-- ==== Sys2Proof/Word.lean ====
section
/-! DEFINITION. The words the machine works with (spec/00_scope.md R1, R12). -/

namespace Sys2Proof

/-- A byte of memory. -/
abbrev Byte := BitVec 8
/-- A 64-bit word: a g register, a system register, a pointer, a cell handle. -/
abbrev Word64 := BitVec 64
/-- The 96 bits of one instruction slot (R28). -/
abbrev SlotBits := BitVec 96
/-- The 512 bits of one fetch line (R28), and of any 64-byte record. -/
abbrev LineBits := BitVec 512
/-- The 512 bytes of one v register (R89). -/
abbrev VecBits := BitVec 4096
/-- The 16 x 256 elements of 32 bits of one accumulator (R161), element (i, n) at bit 32 * (256 i + n). -/
abbrev TileBits := BitVec 131072

end Sys2Proof
end

