-- ==== Sys2Proof/Syntax.lean ====
section
/-! DEFINITION. The instructions and steps of the Moanik: one constructor of Instr for every row of the opcode table.
A slot instruction carries the fields of its payload format (spec/02_encoding.md R40-R52) with its guard; a step of
another agent (a unit, a home, the scheduler, the management processor, a link, the host) carries what names the agent. -/

namespace Sys2Proof

/-! ### Code fields -/

/-- The guard of a slot (R40, R41): the k register named, and whether it is inverted. -/
structure Guard where
  inv : Bool
  k   : BitVec 3
  deriving DecidableEq, Repr

/-- Operation width of format A (R44). -/
inductive Width | w64 | w32 | w16 | w8
  deriving DecidableEq, Repr

/-- Rounding modes (R78). -/
inductive Rm | rne | rtz | rdn | rup | sr
  deriving DecidableEq, Repr

/-- Element types (R54). -/
inductive Et | fp32 | bf16 | fp16 | e4m3 | e5m2 | e2m1x | int8 | int32 | lut4
  deriving DecidableEq, Repr

/-- Access sizes (R53): 1, 2, 4, 8 and 16 bytes. -/
inductive Sz | b | h | w | d | q
  deriving DecidableEq, Repr

/-- Orderings of format M (R46). -/
inductive Ord | plain | acq | rel | ar
  deriving DecidableEq, Repr

/-- Scopes (R46, R210). -/
inductive Scp | core | clu | die | mod | pod
  deriving DecidableEq, Repr

/-- ATOM operations (R53). -/
inductive Aop | add | and | or | xor | min | max | umin | umax | xchg | fadd
  deriving DecidableEq, Repr

/-- Copy spaces (R49). -/
inductive Space | glob | ls | vault
  deriving DecidableEq, Repr

/-- Reduce operations of CPYR (R49). -/
inductive Rop | add | max | min
  deriving DecidableEq, Repr

/-- Slot data of the queue instructions (R50, R311). -/
inductive Src | one | two | ls
  deriving DecidableEq, Repr

/-! ### Payload formats (R44-R52), each with the guard of the slot header -/

/-- NOP: no payload (R55). -/
structure FormN where
  grd : Guard
  deriving DecidableEq, Repr

/-- Format A (R44). -/
structure FormA where
  grd : Guard
  gd  : BitVec 6
  ga  : BitVec 6
  gb  : BitVec 6
  kd  : BitVec 3
  ka  : BitVec 3
  kb  : BitVec 3
  w   : Width
  rm  : Rm
  cc  : BitVec 4
  imm : BitVec 32
  deriving DecidableEq, Repr

/-- Format I (R45). -/
structure FormI where
  grd : Guard
  gd  : BitVec 6
  imm : BitVec 48
  deriving DecidableEq, Repr

/-- Format M (R46). -/
structure FormM where
  grd : Guard
  gt  : BitVec 6
  gb  : BitVec 6
  gx  : BitVec 6
  sz  : Sz
  ord : Ord
  scp : Scp
  aop : Aop
  msk : BitVec 3
  me  : Bool
  off : BitVec 40
  deriving DecidableEq, Repr

/-- Format V (R47). -/
structure FormV where
  grd : Guard
  vd  : BitVec 6
  va  : BitVec 6
  vb  : BitVec 6
  msk : BitVec 3
  mz  : Bool
  me  : Bool
  et  : Et
  et2 : Et
  rm  : Rm
  sat : Bool
  fd  : BitVec 2
  gs  : BitVec 6
  imm : BitVec 32
  deriving DecidableEq, Repr

/-- Format X (R48). -/
structure FormX where
  grd  : Guard
  ca   : BitVec 2
  da   : BitVec 4
  db   : BitVec 4
  gl   : BitVec 6
  gw   : BitVec 6
  loff : BitVec 11
  woff : BitVec 13
  gc   : BitVec 6
  fd   : BitVec 2
  dc   : BitVec 4
  et   : Et
  rm   : Rm
  sat  : Bool
  deriving DecidableEq, Repr

/-- Format C (R49). -/
structure FormC where
  grd : Guard
  gs  : BitVec 6
  gd  : BitVec 6
  gn  : BitVec 6
  gk  : BitVec 6
  ds  : BitVec 4
  mc  : BitVec 8
  ss  : Space
  dsp : Space
  gp  : BitVec 6
  rop : Rop
  et  : Et
  len : BitVec 24
  deriving DecidableEq, Repr

/-- Format Y (R50). -/
structure FormY where
  grd : Guard
  gh  : BitVec 6
  gv1 : BitVec 6
  gv2 : BitVec 6
  gst : BitVec 6
  ls  : BitVec 8
  f   : Bool
  gl  : BitVec 6
  src : Src
  imm : BitVec 32
  deriving DecidableEq, Repr

/-- Format B (R51). cs is the LOOP count source: false from g[GA], true from CNT. -/
structure FormB where
  grd : Guard
  ga  : BitVec 6
  glk : BitVec 6
  cnt : BitVec 16
  cs  : Bool
  ls  : BitVec 8
  off : BitVec 40
  deriving DecidableEq, Repr

/-- Format S (R52). -/
structure FormS where
  grd : Guard
  gd  : BitVec 6
  sel : BitVec 12
  ga  : BitVec 6
  gb  : BitVec 6
  imm : BitVec 32
  deriving DecidableEq, Repr

/-! ### What names the agents and the inputs of the other steps -/

/-- A cluster of the module, and so its slice, escapement, vault, matrix unit and copy engine (R18). -/
structure ClusterLoc where
  site    : Nat
  cluster : Nat
  deriving DecidableEq, Repr

/-- A half-cluster, and so its vector unit (R18): half 0 is the east half, cores 0-3. -/
structure HalfLoc where
  site    : Nat
  cluster : Nat
  half    : Nat
  deriving DecidableEq, Repr

/-- A physical core (R12). -/
structure CoreLoc where
  site    : Nat
  cluster : Nat
  core    : Nat
  deriving DecidableEq, Repr

/-- A group of a launch of a part (R342, R363). The foreman of a part stands under launch identifier 0. -/
structure GroupId where
  cix : Nat
  lid : Nat
  lgi : Nat
  deriving DecidableEq, Repr

/-- A strand: its group and its index within it (R94). -/
structure StrandId where
  grp  : GroupId
  sidx : Nat
  deriving DecidableEq, Repr

/-- Statuses of cell operations (R285). -/
inductive Status | ok | stale | dead | broken | abandoned | ended | full | empty | waitfull | owner
  deriving DecidableEq, Repr

/-- Codes of records (R352). -/
inductive FaultCode
  | illegalOp | cfi | parity | align | pageNotMapped | pagePerm | sealed | type | staleHandle | peerGone | waitfull
  | regBudget | rcpFault | rcpStale | rcpAnchor | hypSync | hypPage | jobFault | loop | desc | matrixOperand
  | brk | swTrap | mixed | overrun | double | watch | job | refused | postFail | saveFull | notice
  deriving DecidableEq, Repr

/-- Status of a refusal on the wire (R424). -/
inductive WireCode | addr | part | incarn | key
  deriving DecidableEq, Repr

/-- What a home on another module, or a host agent, answers to a blocking access (R189, R424): the old or loaded bytes,
the status of a cell operation with the value and item it carries, a wire refusal, or a fault its home found. -/
inductive Answer
  | data (bytes : LineBits)
  /-- A whole line, for a load that allocates it (R186). -/
  | line (bytes : BitVec 1024)
  | status (st : Status) (value : Word64) (item : LineBits)
  | refused (code : WireCode)
  | fault (code : FaultCode) (info : Word64)
  | parked (value : Word64)
  deriving DecidableEq, Repr

/-- An operation of an escapement on a cell, with the operands its request carries (R277): the cell instructions, the poison post
(R235), and the scheduler's take of a launch record (R318). -/
inductive CellOp
  /-- The .cell value and G(GV2). -/
  | init (imm : BitVec 32) (arg : Word64)
  | kill
  | qry
  | ctrAdd (addend : Word64)
  | ctrRd
  | ctrWge (threshold : Word64)
  | poison
  | barArr
  | barWt (token : BitVec 32)
  | barArw
  | barDrop
  | barAdj (delta : Word64)
  | lckTake
  | lckTry
  | lckGive
  | cndWait
  | cndSig
  | cndAll
  /-- A put of len bytes; parks when the queue is full, unless it only tries. -/
  | qPut (item : LineBits) (len : Nat) (tries : Bool)
  | qTake (tries : Bool)
  | qJoin
  /-- The governor form: the launch queue's handle, the limits and the template. -/
  | qGovern (launchQueue limits : Word64) (template : LineBits)
  | qClose
  | launchTake
  deriving DecidableEq, Repr

/-- Who of its module makes an access of another module's (R209): a strand with the live-set index of its wait (R67), a copy job, or another
of its units (a launch, a resolve, a governor, the record engine). -/
inductive RemoteParty
  | strand (who : StrandId) (ls : BitVec 8)
  | job (n : Nat)
  | unit
  deriving DecidableEq, Repr

/-- An access another module or the host sends to a home of this module. A cell operation carries its handle, F, and log2 of the size of
its page (R308). -/
inductive RemoteAccess
  | read (size : Nat)
  /-- A load that fills an L1: its bytes, answered with their line (R186). -/
  | readLine (size : Nat)
  | write (size : Nat) (data : BitVec 128)
  | atom (aop : Aop) (size : Nat) (x : BitVec 128)
  | cas (size : Nat) (old new : BitVec 128)
  | reduce (rop : Rop) (et : Et) (data : BitVec 128)
  | cell (handle : Word64) (fault : Bool) (bits : Nat) (op : CellOp)
  /-- A strand that stopped gives up what it has at a cell here: its park is withdrawn (R282), a lock it holds is abandoned (R295). -/
  | withdraw (handle : Word64)
  /-- A part that stopped discards a wait of a strand of its own at a cell here, which stays as it is (R287). -/
  | discard (handle : Word64)
  /-- May the part use the page of 2^bits bytes at the address (step 5 of R266)? -/
  | frame (bits : Nat)
  /-- A hypothesis instruction for the table home (R377), by its SUB. -/
  | hypothesis (sub : Nat) (handle : Word64) (refute : Bool) (counter : Option Word64)
  /-- What the table home tells the other modules of the context: a hypothesis it has opened and its parent; a resolve with its verdict, the tags it
  concerns, the tag that a confirm folds into and the children it re-parents (R387). -/
  | opened (tag parent : BitVec 20)
  | resolve (hyp : BitVec 20) (confirm : Bool) (tags : List (BitVec 20)) (target : BitVec 20) (kids : List Nat)
  /-- It asks them whether a scrub pass has ended on every slice of theirs since a resolve completed, and nothing of theirs uses the hypotheses
  (R380, R393). -/
  | sweep (tags : List (BitVec 20))
  /-- A TLB.INV of the context's foreman, which goes to every module (R269). -/
  | invalidate (base len : Nat)
  deriving DecidableEq, Repr

/-- A packet: the sending module and its incarnation, the party and where it stands (R353), the context, the address within this module,
the tag hypothesis and what it asks for (R209, R422, R425). -/
structure Packet where
  mid    : Nat
  inc    : Nat
  party  : RemoteParty
  loc    : BitVec 32
  cid    : BitVec 32
  pa     : Nat
  hyp    : BitVec 20
  seqNo  : BitVec 16
  access : RemoteAccess
  /-- The issuer's leaf has HSH: the part at the home needs its shared key (R257, R424). -/
  hsh    : Bool := false
  /-- What else the home follows of the issuer's leaf (R183, R192, R193, R429): a cached placement, WA, EVP, SYNC. -/
  cached : Bool := true
  wa     : Bool := false
  evp    : Nat := 0
  sync   : Bool := false
  /-- The sequence tag of a posted operation, or the identifier of a copy job (R197). -/
  tag    : BitVec 16 := 0
  /-- It comes from a strand of a dynamic family (R331). -/
  dynamic : Bool := false
  /-- The OPEN hypotheses along the chain of HYP as the sender knows them, each with its parent: by this a home that has not heard of one yet follows
  the rule of R382. -/
  tree   : List (BitVec 20 × BitVec 20) := []
  /-- Its number on its link (R425). -/
  linkNo : BitVec 16 := 0
  deriving DecidableEq, Repr

/-- A release at a home on another module, as an answer of that home tells of it (R213): whose it is, where that party stands, the number of
the packet that made it, and its scope. -/
structure Released where
  mid   : Nat
  inc   : Nat
  party : RemoteParty
  loc   : BitVec 32
  seqNo : BitVec 16
  scp   : Scp
  deriving DecidableEq, Repr

/-- Whom an answer of another module is for: the party and the number of its packet (R424, R425); with it come the releases that the access has
read from, or that an acquiring operation follows on its cell. -/
structure Asker where
  party : RemoteParty
  seqNo : BitVec 16
  after : List Released := []
  deriving DecidableEq, Repr

/-- A Ranfen frame of 16 flits as it arrives (R421): whether its tag passes under the key of its phase, which is the receiver's or the session's next
one; the packets whose last flit it brings; and the number of one of which it brings the first flit and not the last (R425). -/
structure Frame where
  tagOk    : Bool
  keyPhase : Bool
  packets  : List Packet
  begun    : Option (BitVec 16) := none
  deriving DecidableEq, Repr

/-- A firmware image (R261): its digest, its security version and its signature. -/
structure FirmwareImage where
  digest    : BitVec 256
  secVer    : BitVec 32
  signature : BitVec 256
  deriving DecidableEq, Repr

/-- Causes of ERROR that arise by themselves (R247): DOUBLE, IDE stream failure, context-region error. -/
inductive PartErrorCause | double | ide | region
  deriving DecidableEq, Repr

/-- Where an uncorrectable soft error strikes (R439): a g, k or f register or a non-bound v register of a strand, a
recipe-bound v register, a local store or accumulator, a hot-line array cell, the line a strand fetches from, or a memory line. -/
inductive SoftErrorPlace
  | register (who : StrandId)
  | boundReg (who : StrandId) (v : Nat)
  | localStore (core : CoreLoc)
  | accumulator (core : CoreLoc)
  | hotLine (who : StrandId)
  | fetchLine (who : StrandId)
  | line (pa : Nat)
  deriving DecidableEq, Repr

/-! ### The instructions and steps -/

/-- One constructor for every row of the opcode table. -/
inductive Instr
  /-- NOP (R113). -/
  | nop (f : FormN)
  /-- BR (R114). -/
  | br (f : FormB)
  /-- BRI (R114). -/
  | bri (f : FormB)
  /-- CALL (R114). -/
  | call (f : FormB)
  /-- CALLI (R114). -/
  | calli (f : FormB)
  /-- RET (R114). -/
  | ret (f : FormB)
  /-- LOOP (R108). -/
  | loop (f : FormB)
  /-- LEXIT (R114). -/
  | lexit (f : FormB)
  /-- EXIT (R117). -/
  | exit (f : FormB)
  /-- TRAP (R118). -/
  | trap (f : FormB)
  /-- BRK (R118). -/
  | brk (f : FormB)
  /-- PRE_POINT (R119). -/
  | prePoint (f : FormB)
  /-- YIELD (R120). -/
  | yield (f : FormB)
  /-- ADD (R122). -/
  | add (f : FormA)
  /-- SUB (R122). -/
  | sub (f : FormA)
  /-- MUL (R122). -/
  | mul (f : FormA)
  /-- MULH (R122). -/
  | mulh (f : FormA)
  /-- MULHS (R122). -/
  | mulhs (f : FormA)
  /-- DIV (R123). -/
  | div (f : FormA)
  /-- DIVS (R123). -/
  | divs (f : FormA)
  /-- REM (R123). -/
  | rem (f : FormA)
  /-- REMS (R123). -/
  | rems (f : FormA)
  /-- MADD (R122). -/
  | madd (f : FormA)
  /-- AND (R122). -/
  | and (f : FormA)
  /-- OR (R122). -/
  | or (f : FormA)
  /-- XOR (R122). -/
  | xor (f : FormA)
  /-- ANDN (R122). -/
  | andn (f : FormA)
  /-- ORN (R122). -/
  | orn (f : FormA)
  /-- SHL (R122). -/
  | shl (f : FormA)
  /-- SHR (R122). -/
  | shr (f : FormA)
  /-- SHRA (R122). -/
  | shra (f : FormA)
  /-- ROR (R122). -/
  | ror (f : FormA)
  /-- MIN (R122). -/
  | min (f : FormA)
  /-- MAX (R122). -/
  | max (f : FormA)
  /-- MINS (R122). -/
  | mins (f : FormA)
  /-- MAXS (R122). -/
  | maxs (f : FormA)
  /-- CLZ (R122). -/
  | clz (f : FormA)
  /-- CTZ (R122). -/
  | ctz (f : FormA)
  /-- POPC (R122). -/
  | popc (f : FormA)
  /-- BREV (R122). -/
  | brev (f : FormA)
  /-- BSWAP (R122). -/
  | bswap (f : FormA)
  /-- BFX (R124). -/
  | bfx (f : FormA)
  /-- BFI (R124). -/
  | bfi (f : FormA)
  /-- CMP (R125). -/
  | cmp (f : FormA)
  /-- KOP (R125). -/
  | kop (f : FormA)
  /-- SEL (R125). -/
  | sel (f : FormA)
  /-- LEA (R126). -/
  | lea (f : FormA)
  /-- ADDI (R122). -/
  | addi (f : FormA)
  /-- SUB_IMM (R122). -/
  | subImm (f : FormA)
  /-- MUL_IMM (R122). -/
  | mulImm (f : FormA)
  /-- MULH_IMM (R122). -/
  | mulhImm (f : FormA)
  /-- MULHS_IMM (R122). -/
  | mulhsImm (f : FormA)
  /-- DIV_IMM (R123). -/
  | divImm (f : FormA)
  /-- DIVS_IMM (R123). -/
  | divsImm (f : FormA)
  /-- REM_IMM (R123). -/
  | remImm (f : FormA)
  /-- REMS_IMM (R123). -/
  | remsImm (f : FormA)
  /-- MADD_IMM (R122). -/
  | maddImm (f : FormA)
  /-- AND_IMM (R122). -/
  | andImm (f : FormA)
  /-- OR_IMM (R122). -/
  | orImm (f : FormA)
  /-- XOR_IMM (R122). -/
  | xorImm (f : FormA)
  /-- ANDN_IMM (R122). -/
  | andnImm (f : FormA)
  /-- ORN_IMM (R122). -/
  | ornImm (f : FormA)
  /-- SHL_IMM (R122). -/
  | shlImm (f : FormA)
  /-- SHR_IMM (R122). -/
  | shrImm (f : FormA)
  /-- SHRA_IMM (R122). -/
  | shraImm (f : FormA)
  /-- ROR_IMM (R122). -/
  | rorImm (f : FormA)
  /-- MIN_IMM (R122). -/
  | minImm (f : FormA)
  /-- MAX_IMM (R122). -/
  | maxImm (f : FormA)
  /-- MINS_IMM (R122). -/
  | minsImm (f : FormA)
  /-- MAXS_IMM (R122). -/
  | maxsImm (f : FormA)
  /-- BFX_IMM (R124). -/
  | bfxImm (f : FormA)
  /-- BFI_IMM (R124). -/
  | bfiImm (f : FormA)
  /-- CMPI (R125). -/
  | cmpi (f : FormA)
  /-- LEA_PC (R126). -/
  | leaPc (f : FormA)
  /-- MOVI (R126). -/
  | movi (f : FormI)
  /-- MOVH (R126). -/
  | movh (f : FormI)
  /-- FADD (R128). -/
  | fadd (f : FormA)
  /-- FSUB (R128). -/
  | fsub (f : FormA)
  /-- FMUL (R128). -/
  | fmul (f : FormA)
  /-- FFMA (R128). -/
  | ffma (f : FormA)
  /-- FDIV (R128). -/
  | fdiv (f : FormA)
  /-- FSQRT (R128). -/
  | fsqrt (f : FormA)
  /-- FMIN (R129). -/
  | fmin (f : FormA)
  /-- FMAX (R129). -/
  | fmax (f : FormA)
  /-- FCMP (R129). -/
  | fcmp (f : FormA)
  /-- FCVT (R130). -/
  | fcvt (f : FormA)
  /-- FCLASS (R131). -/
  | fclass (f : FormA)
  /-- FSGN (R128). -/
  | fsgn (f : FormA)
  /-- FGET (R132). -/
  | fget (f : FormA)
  /-- FPEEK (R132). -/
  | fpeek (f : FormA)
  /-- LD (R199). -/
  | ld (f : FormM)
  /-- LDS (R199). -/
  | lds (f : FormM)
  /-- ST (R199). -/
  | st (f : FormM)
  /-- ATOM (R200). -/
  | atom (f : FormM)
  /-- CAS (R201). -/
  | cas (f : FormM)
  /-- PREF (R206). -/
  | pref (f : FormM)
  /-- VLDG (R205). -/
  | vldg (f : FormM)
  /-- VSTG (R205). -/
  | vstg (f : FormM)
  /-- SEAL (R207). -/
  | seal (f : FormM)
  /-- UNSEAL (R207). -/
  | unseal (f : FormM)
  /-- L1INV (R208). -/
  | l1inv (f : FormM)
  /-- L1INV_ALL (R208). -/
  | l1invAll (f : FormM)
  /-- LDL (R202). -/
  | ldl (f : FormM)
  /-- STL (R202). -/
  | stl (f : FormM)
  /-- LDN (R203). -/
  | ldn (f : FormM)
  /-- STN (R203). -/
  | stn (f : FormM)
  /-- VLD (R204). -/
  | vld (f : FormM)
  /-- VST (R204). -/
  | vst (f : FormM)
  /-- FENCE (R223). -/
  | fence (f : FormM)
  /-- FENCE_XP (R224). -/
  | fenceXp (f : FormM)
  /-- WACK (R225). -/
  | wack (f : FormM)
  /-- SEQ (R226). -/
  | seq (f : FormM)
  /-- CELL_INIT (R288). -/
  | cellInit (f : FormY)
  /-- CELL_KILL (R289). -/
  | cellKill (f : FormY)
  /-- CELL_QRY (R290). -/
  | cellQry (f : FormY)
  /-- CTR_ADD (R292). -/
  | ctrAdd (f : FormY)
  /-- CTR_RD (R293). -/
  | ctrRd (f : FormY)
  /-- CTR_WGE (R294). -/
  | ctrWge (f : FormY)
  /-- BAR_ARR (R302). -/
  | barArr (f : FormY)
  /-- BAR_WT (R302). -/
  | barWt (f : FormY)
  /-- BAR_ARW (R304). -/
  | barArw (f : FormY)
  /-- BAR_DROP (R302). -/
  | barDrop (f : FormY)
  /-- BAR_ADJ (R302). -/
  | barAdj (f : FormY)
  /-- LCK_TAKE (R296). -/
  | lckTake (f : FormY)
  /-- LCK_TRY (R296). -/
  | lckTry (f : FormY)
  /-- LCK_GIVE (R296). -/
  | lckGive (f : FormY)
  /-- CND_WAIT (R298). -/
  | cndWait (f : FormY)
  /-- CND_SIG (R298). -/
  | cndSig (f : FormY)
  /-- CND_ALL (R298). -/
  | cndAll (f : FormY)
  /-- Q_PUT (R315). -/
  | qPut (f : FormY)
  /-- Q_TAKE (R315). -/
  | qTake (f : FormY)
  /-- Q_TRYPUT (R315). -/
  | qTryput (f : FormY)
  /-- Q_TRYTAKE (R315). -/
  | qTrytake (f : FormY)
  /-- Q_JOIN (R316). -/
  | qJoin (f : FormY)
  /-- Q_JOIN_GOVERNOR (R324). -/
  | qJoinGovernor (f : FormY)
  /-- Q_CLOSE (R316). -/
  | qClose (f : FormY)
  /-- VADD (R144). -/
  | vadd (f : FormV)
  /-- VSUB (R144). -/
  | vsub (f : FormV)
  /-- VMUL (R144). -/
  | vmul (f : FormV)
  /-- VFMA (R144). -/
  | vfma (f : FormV)
  /-- VFMS (R144). -/
  | vfms (f : FormV)
  /-- VMIN (R144). -/
  | vmin (f : FormV)
  /-- VMAX (R144). -/
  | vmax (f : FormV)
  /-- VABS (R144). -/
  | vabs (f : FormV)
  /-- VNEG (R144). -/
  | vneg (f : FormV)
  /-- VRCP (R145). -/
  | vrcp (f : FormV)
  /-- VRSQ (R145). -/
  | vrsq (f : FormV)
  /-- VSQRT (R145). -/
  | vsqrt (f : FormV)
  /-- VEXP2 (R145). -/
  | vexp2 (f : FormV)
  /-- VLOG2 (R145). -/
  | vlog2 (f : FormV)
  /-- VTANH (R145). -/
  | vtanh (f : FormV)
  /-- VIADD (R146). -/
  | viadd (f : FormV)
  /-- VISUB (R146). -/
  | visub (f : FormV)
  /-- VIMUL (R146). -/
  | vimul (f : FormV)
  /-- VAND (R146). -/
  | vand (f : FormV)
  /-- VOR (R146). -/
  | vor (f : FormV)
  /-- VXOR (R146). -/
  | vxor (f : FormV)
  /-- VSHL (R146). -/
  | vshl (f : FormV)
  /-- VSHR (R146). -/
  | vshr (f : FormV)
  /-- VSHRA (R146). -/
  | vshra (f : FormV)
  /-- VCMP (R147). -/
  | vcmp (f : FormV)
  /-- VSEL (R148). -/
  | vsel (f : FormV)
  /-- MOP (R148). -/
  | mop (f : FormV)
  /-- MPOP (R148). -/
  | mpop (f : FormV)
  /-- VMOV (R149). -/
  | vmov (f : FormV)
  /-- VBCAST (R149). -/
  | vbcast (f : FormV)
  /-- VEXT (R149). -/
  | vext (f : FormV)
  /-- VPERM (R150). -/
  | vperm (f : FormV)
  /-- VSHUF (R150). -/
  | vshuf (f : FormV)
  /-- VSLIDE (R150). -/
  | vslide (f : FormV)
  /-- VZIP (R150). -/
  | vzip (f : FormV)
  /-- VRED (R151). -/
  | vred (f : FormV)
  /-- VSCAN (R152). -/
  | vscan (f : FormV)
  /-- VDOT (R153). -/
  | vdot (f : FormV)
  /-- VCVT (R154). -/
  | vcvt (f : FormV)
  /-- VQNT (R155). -/
  | vqnt (f : FormV)
  /-- VDQ (R156). -/
  | vdq (f : FormV)
  /-- VLUT (R157). -/
  | vlut (f : FormV)
  /-- VMAC (R158). -/
  | vmac (f : FormV)
  /-- VCLAMP (R159). -/
  | vclamp (f : FormV)
  /-- VECTOR_COMMAND_RUN (R142). -/
  | vectorCommandRun (unit : HalfLoc)
  /-- MMA (R171). -/
  | mma (f : FormX)
  /-- MMAZ (R171). -/
  | mmaz (f : FormX)
  /-- MZERO (R171). -/
  | mzero (f : FormX)
  /-- MOVC (R172). -/
  | movc (f : FormX)
  /-- MOVCV (R172). -/
  | movcv (f : FormX)
  /-- MDESC (R174). -/
  | mdesc (f : FormX)
  /-- MGEO (R175). -/
  | mgeo (f : FormX)
  /-- LUTLD (R176). -/
  | lutld (f : FormX)
  /-- MWAIT (R177). -/
  | mwait (f : FormX)
  /-- MWT (R177). -/
  | mwt (f : FormX)
  /-- TILE_COMMAND_START (R170). -/
  | tileCommandStart (unit : ClusterLoc)
  /-- TILE_COMMAND_RETIRE (R168). -/
  | tileCommandRetire (core : CoreLoc)
  /-- CPY (R238). -/
  | cpy (f : FormC)
  /-- CPYC (R240). -/
  | cpyc (f : FormC)
  /-- CPYM (R238). -/
  | cpym (f : FormC)
  /-- CPYG (R241). -/
  | cpyg (f : FormC)
  /-- CPYS (R241). -/
  | cpys (f : FormC)
  /-- CPYR (R242). -/
  | cpyr (f : FormC)
  /-- CPYQ (R243). -/
  | cpyq (f : FormC)
  /-- CPYK (R244). -/
  | cpyk (f : FormC)
  /-- COPY_JOB_START (R232). -/
  | copyJobStart (unit : ClusterLoc)
  /-- COPY_CHUNK (R233). -/
  | copyChunk (job : Nat) (pick : Nat)
  /-- COPY_JOB_DONE (R234). -/
  | copyJobDone (job : Nat)
  /-- HYP_OPEN (R396). -/
  | hypOpen (f : FormY)
  /-- HYP_ENTER (R397). -/
  | hypEnter (f : FormY)
  /-- HYP_LEAVE (R397). -/
  | hypLeave (f : FormY)
  /-- HYP_RSV (R398). -/
  | hypRsv (f : FormY)
  /-- HYP_QRY (R400). -/
  | hypQry (f : FormY)
  /-- RESOLVE_APPLY (R387). -/
  | resolveApply (cix rid site : Nat)
  /-- RESOLVE_COMPLETE (R387). -/
  | resolveComplete (cix rid : Nat)
  /-- SCRUB_PASS_END (R440). -/
  | scrubPassEnd (slice : ClusterLoc)
  /-- RCP_BIND (R405). -/
  | rcpBind (f : FormV)
  /-- RCP_FREE (R406). -/
  | rcpFree (f : FormV)
  /-- RCP_DROP (R406). -/
  | rcpDrop (f : FormV)
  /-- RCP_ANCH (R406). -/
  | rcpAnch (f : FormV)
  /-- RCP_QRY (R407). -/
  | rcpQry (f : FormV)
  /-- SRD (R133). -/
  | srd (f : FormS)
  /-- SWR (R133). -/
  | swr (f : FormS)
  /-- GEO (R134). -/
  | geo (f : FormS)
  /-- CLK (R135). -/
  | clk (f : FormS)
  /-- ID (R136). -/
  | id (f : FormS)
  /-- WIN_RD (R364). -/
  | winRd (f : FormS)
  /-- WIN_WR (R365). -/
  | winWr (f : FormS)
  /-- GRP_FRZ (R363). -/
  | grpFrz (f : FormS)
  /-- GRP_THAW (R363). -/
  | grpThaw (f : FormS)
  /-- GRP_KILL (R363). -/
  | grpKill (f : FormS)
  /-- TLB_INV (R366). -/
  | tlbInv (f : FormS)
  /-- TLB_INV_SITE_ACK (R269). -/
  | tlbInvSiteAck (inv mid site : Nat)
  /-- PAGE_WALK (R266). -/
  | pageWalk (cluster : ClusterLoc) (cix : Nat) (va : Word64)
  /-- HOME_READ (R185). -/
  | homeRead (req : Nat)
  /-- HOME_WRITE (R185). -/
  | homeWrite (req : Nat)
  /-- STORE_ACK (R190). -/
  | storeAck (req : Nat)
  /-- LOAD_RETURN (R189). -/
  | loadReturn (req : Nat)
  /-- BLOCKING_RESPONSE (R189). -/
  | blockingResponse (who : Asker) (answer : Answer)
  /-- WRITEBACK_DRAIN (R192). -/
  | writebackDrain (slice : ClusterLoc)
  /-- REPLICA_DROP (R187). -/
  | replicaDrop (slice : ClusterLoc) (line : Nat)
  /-- UNSEAL_COMPLETE (R270). -/
  | unsealComplete (leaf : Nat)
  /-- CELL_OPERATION (R277). -/
  | cellOperation (op : Nat)
  /-- HOT_LINE_FILL (R278). -/
  | hotLineFill (slice : ClusterLoc) (granule : Nat)
  /-- WAKE (R282). -/
  | wake (wake : Nat)
  /-- HQPUT (R319). -/
  | hqput (cix lqi : Nat) (offset : Nat) (bytes : List Byte)
  /-- HQS_READ (R319). -/
  | hqsRead (cix lqi : Nat) (offset : Nat)
  /-- LAUNCH_TAKE (R331). -/
  | launchTake (cix lqi : Nat)
  /-- KERNEL_LOAD (R329). -/
  | kernelLoad (cix : Nat) (kimg : Word64)
  /-- GROUP_PLACE (R340). -/
  | groupPlace (cix : Nat)
  /-- LAUNCH_END (R335). -/
  | launchEnd (cix lid : Nat)
  /-- QUIESCENCE_SWEEP (R336). -/
  | quiescenceSweep (cix lid : Nat)
  /-- REPLENISHMENT (R321). -/
  | replenishment (cix lqi : Nat)
  /-- OVERRUN (R323). -/
  | overrun (cix lqi : Nat)
  /-- SWAP (R345). -/
  | swap (grp : GroupId)
  /-- SAVE_COMPLETE (R343). -/
  | saveComplete (grp : GroupId)
  /-- GRACE_EXPIRY (R347). -/
  | graceExpiry (who : StrandId)
  /-- SAVE_RETRY (R347). -/
  | saveRetry (grp : GroupId)
  /-- FAULT_RECORD_DELIVERY (R354). -/
  | faultRecordDelivery (rec : Nat)
  /-- DOUBLE (R360). -/
  | double (cix : Nat)
  /-- CREATE (R247). -/
  | create (cix : Nat)
  /-- LOCK (R248). -/
  | lock (cix : Nat)
  /-- START (R247). -/
  | start (cix : Nat)
  /-- STOP (R247). -/
  | stop (cix : Nat)
  /-- RELEASE (R247). -/
  | release (cix : Nat)
  /-- INVALID_COMMAND (R247). -/
  | invalidCommand (cix : Nat) (code : Byte)
  /-- STOP_DRAIN_COMPLETE (R247). -/
  | stopDrainComplete (cix : Nat)
  /-- SCRUB_COMPLETE (R258). -/
  | scrubComplete (cix : Nat)
  /-- PART_ERROR (R247). -/
  | partError (cix : Nat) (cause : PartErrorCause)
  /-- REGISTER_WRITE (R246). -/
  | registerWrite (addr : Nat) (value : Word64)
  /-- VBND_WRITE (R182). -/
  | vbndWrite (slice : ClusterLoc) (value : Word64)
  /-- LOCK_INTERFACE_REQUEST (R249). -/
  | lockInterfaceRequest (cix : Nat)
  /-- START_INTERFACE_REQUEST (R249). -/
  | startInterfaceRequest (cix : Nat)
  /-- STOP_INTERFACE_REQUEST (R249). -/
  | stopInterfaceRequest (cix : Nat)
  /-- CHALLENGE (R259). -/
  | challenge (cix : Nat) (nonce : BitVec 256)
  /-- GET_MEASUREMENTS (R259). -/
  | getMeasurements (cix : Nat)
  /-- SHARED_KEY_INSTALL (R257). -/
  | sharedKeyInstall (cix : Nat) (key : BitVec 512)
  /-- TIME_SHARE_SWITCH (R252). -/
  | timeShareSwitch (cix : Nat)
  /-- FIRMWARE_LOAD (R261). -/
  | firmwareLoad (image : FirmwareImage)
  /-- LIVE_UPDATE (R437). -/
  | liveUpdate (image : FirmwareImage)
  /-- SRET_GO (R438). -/
  | sretGo (site : Nat)
  /-- RETIREMENT_DRAIN_COMPLETE (R438). -/
  | retirementDrainComplete (site : Nat)
  /-- GRANT (R431). -/
  | grant (site watts demand : Nat)
  /-- THERMAL_TRIP (R431). -/
  | thermalTrip (site : Nat)
  /-- THERMAL_CLEAR (R431). -/
  | thermalClear (site : Nat)
  /-- RETENTION_SLEEP (R434). -/
  | retentionSleep (slice : ClusterLoc)
  /-- SLICE_WAKE (R434). -/
  | sliceWake (slice : ClusterLoc)
  /-- SOFT_ERROR (R439). -/
  | softError (where_ : SoftErrorPlace)
  /-- FLIT_REPLAY (R416). -/
  | flitReplay (boundary : Nat) (good : Bool)
  /-- TRAIN (R420). -/
  | train (port : Nat)
  /-- FENCE_PORT (R420). -/
  | fencePort (port : Nat)
  /-- DOWN (R420). -/
  | down (port : Nat)
  /-- SIGNAL_DETECTED (R420). -/
  | signalDetected (port : Nat)
  /-- LANES_TRAINED (R420). -/
  | lanesTrained (port : Nat) (good : Bool)
  /-- PORT_AUTH (R420). -/
  | portAuth (port : Nat) (good : Bool) (pmid pinc : Nat)
  /-- FRAME_RECEIVE (R421). -/
  | frameReceive (port : Nat) (frame : Frame)
  /-- RETRAIN_COMPLETE (R420). -/
  | retrainComplete (port : Nat) (good : Bool) (pmid pinc : Nat)
  /-- KEY_UPDATE (R421). -/
  | keyUpdate (port : Nat) (good : Bool)
  /-- PEER_LOST (R423). -/
  | peerLost (mid : Nat)
  /-- PACKET_FORWARD (R425). -/
  | packetForward (link : Nat)
  /-- MILL_MERGE_FORWARD (R427). -/
  | millMergeForward (line : Nat)
  /-- CXL_MEM_READ (R428). -/
  | cxlMemRead (addr : Nat) (len : Nat)
  /-- CXL_MEM_WRITE (R273). -/
  | cxlMemWrite (addr : Nat) (bytes : List Byte)
  /-- HOST_SNOOP (R429). -/
  | hostSnoop (addr : Nat) (inval : Bool)
  /-- ATOMIC_PROXY (R430). -/
  | atomicProxy (req : Nat)
  /-- COLD_RESET (R7). -/
  | coldReset
  /-- WARM_RESET (R7). -/
  | warmReset
  /-- LANE_ERROR (R420). -/
  | laneError (port : Nat)
  /-- HBM_MISS_RETURN (R192). -/
  | hbmMissReturn (slice : ClusterLoc) (line : Nat)
  deriving DecidableEq, Repr

end Sys2Proof
end

