-- ==== Sys2Proof/Config.lean ====
section
/-! DEFINITION. What the spec leaves open and the model does not fix: opaque constants with no body, so that nothing can be proved
of their values. Each is named in the assumption log. -/

namespace Sys2Proof.Config

/-- The n-th free bit string drawn, n from the State counter `fresh` (assumption 9). -/
opaque freeBits (w : Nat) (n : Nat) : BitVec w
/-- The result of a transcendental on an operand whose enclosure does not decide the rounding (assumption 11). -/
opaque freeElementary : Nat → Nat → BitVec 32

/-- Does the assayer accept an image's signature (R261; assumption 13)? -/
opaque signatureGood : FirmwareImage → Bool
/-- The device's SLH-DSA-SHA2-128s signature over a transcript hash (R260; assumption 47). -/
opaque signature : BitVec 256 → BitVec 62848
/-- The fused minimum of the firmware's security version (R261; assumption 13). -/
opaque minSecVer : Nat
/-- Host addresses that the host routes to the memory of a peer device (R430; assumption 87). -/
opaque peerMemory : Nat → Bool

end Sys2Proof.Config
end

