-- ==== Sys2Proof/WellFormed.lean ====
section
/-! DEFINITION. Which terms of Instr are instructions of the Moanik: the unused fields zero, the codes those the entry permits
(spec/02_encoding.md R42, R43, R46, R47, R57, and the entry of each instruction). Decode accepts exactly these. -/

namespace Sys2Proof

/-- GUARD 0b1000 would mean never and is reserved (R41). -/
def Guard.wf (g : Guard) : Bool := !(g.inv && g.k == 0)

/-! ### Element types (R137) -/

/-- Element size in bytes; 0 for the types used in conversions only. -/
def etBytes : Et → Nat
  | .fp32 | .int32 => 4
  | .bf16 | .fp16 => 2
  | .e4m3 | .e5m2 | .int8 => 1
  | .e2m1x | .lut4 => 0
/-- Element count of a v register. -/
def etCount (e : Et) : Nat := 512 / etBytes e
/-- The float types of arithmetic. -/
def etFloat : Et → Bool
  | .fp32 | .bf16 | .fp16 => true
  | _ => false
/-- The integer types of arithmetic. -/
def etInt : Et → Bool
  | .int8 | .int32 => true
  | _ => false
/-- Types of compare and reduce. -/
def etReduce (e : Et) : Bool := etFloat e || etInt e
/-- Types with a size: logic, move, permute. -/
def etSized (e : Et) : Bool := etBytes e != 0
/-- Any rounding mode, stochastic included. -/
def rmAny (_ : Rm) : Bool := true

/-! ### Code rules named by several entries -/

/-- CC codes of CMP and CMPI (R53). -/
def ccCmp (c : BitVec 4) : Bool := c.toNat ≤ 9
/-- CC codes of KOP (R53). -/
def ccKop (c : BitVec 4) : Bool := c.toNat ≤ 5
/-- CC codes of FCMP (R53). -/
def ccFcmp (c : BitVec 4) : Bool := c.toNat ≤ 3 || c == 6 || c == 7 || c == 10 || c == 11
/-- IMM of the immediate bit-field forms (R124): the descriptor holds a position [5:0] and a length [14:8], at most 64. -/
def bitFieldImm (i : BitVec 32) : Bool := i.extractLsb' 15 17 == 0 && i.extractLsb' 6 2 == 0 && (i.extractLsb' 8 7).toNat ≤ 64
/-- The even register of a pair, at most 62 (R53). -/
def evenPair (r : BitVec 6) : Bool := !r.getLsbD 0
/-- A field naming a v register (R42). -/
def vField (r : BitVec 6) : Bool := r.toNat < 48
def szAll (_ : Sz) : Bool := true
def szSmall : Sz → Bool
  | .b | .h | .w => true
  | _ => false
def szWD : Sz → Bool
  | .w | .d => true
  | _ => false
def szWDQ : Sz → Bool
  | .w | .d | .q => true
  | _ => false
def ordAll (_ : Ord) : Bool := true
def ordLd : Ord → Bool
  | .plain | .acq => true
  | _ => false
def ordSt : Ord → Bool
  | .plain | .rel => true
  | _ => false
def ordFence : Ord → Bool
  | .plain => false
  | _ => true

/-! ### What each format checks. A field a record leaves false must be zero. -/

structure UseA where
  gd : Bool := false
  ga : Bool := false
  gb : Bool := false
  kd : Bool := false
  ka : Bool := false
  kb : Bool := false
  w : Bool := false
  rm : Bool := false
  cc : BitVec 4 → Bool := fun c => c == 0
  imm : BitVec 32 → Bool := fun i => i == 0

def FormA.fits (f : FormA) (u : UseA) : Bool :=
  f.grd.wf && (u.gd || f.gd == 0) && (u.ga || f.ga == 0) && (u.gb || f.gb == 0) && (u.kd || f.kd == 0) && (u.ka || f.ka == 0)
    && (u.kb || f.kb == 0) && (u.w || f.w == .w64) && (if u.rm then f.rm != .sr else f.rm == .rne) && u.cc f.cc && u.imm f.imm

def FormI.fits (f : FormI) (imm : BitVec 48 → Bool) : Bool := f.grd.wf && imm f.imm

structure UseB where
  ga : Bool := false
  glk : Bool := false
  cnt : Bool := false
  ls : Bool := false
  off : Bool := false
  /-- LOOP: CS selects GA or CNT, and the other is unused (R113); OFF names a later slot (R108). Both are taken as checks of the encoding (assumption 12). -/
  loopForm : Bool := false

def FormB.fits (f : FormB) (u : UseB) : Bool :=
  f.grd.wf && (if u.loopForm then decide (1 ≤ f.off.toInt) && (if f.cs then f.ga == 0 else f.cnt == 0)
      else (u.ga || f.ga == 0) && (u.cnt || f.cnt == 0) && !f.cs)
    && (u.glk || f.glk == 0) && (u.ls || f.ls == 0) && (u.off || f.off == 0)

structure UseM where
  gt : Bool := false
  gb : Bool := false
  gx : Bool := false
  me : Bool := false
  off : Bool := false
  aop : Bool := false
  /-- GT names a v register. -/
  vt : Bool := false
  /-- GX names a v register. -/
  vx : Bool := false
  /-- A scope is named although ORD may be plain (FENCE never is). -/
  scope : Bool := false
  /-- L1INV of every line: ME is set. -/
  allLines : Bool := false
  sz : Sz → Bool := fun s => s == .b
  ord : Ord → Bool := fun o => o == .plain
  /-- What a .q form asks of its pairs. -/
  pair : FormM → Bool := fun _ => true

/-- A field of no use is zero (R43). Where ME is a field of use (VLD, VST, VLDG, VSTG), MK with ME = 0 is of use too and may hold anything: R47 forbids
it for format V alone (assumption 73). -/
def FormM.fits (f : FormM) (u : UseM) : Bool :=
  f.grd.wf && (u.gt || f.gt == 0) && (u.gb || f.gb == 0) && (u.gx || f.gx == 0) && (u.off || f.off == 0) && (u.aop || f.aop == .add)
    && (u.me || (f.me == u.allLines && f.msk == 0)) && (!u.vt || vField f.gt) && (!u.vx || vField f.gx) && u.sz f.sz && u.ord f.ord
    && (f.ord != .plain || f.scp == .core) && (f.sz != .q || u.pair f) && (f.aop != .fadd || f.sz == .w)

structure UseY where
  gh : Bool := false
  gv1 : Bool := false
  gv2 : Bool := false
  gst : Bool := false
  f : Bool := false
  ls : Bool := false
  /-- Slot data of a queue instruction (R311). -/
  slot : Bool := false
  /-- The governor form of Q.JOIN (R324). -/
  governor : Bool := false
  imm : BitVec 32 → Bool := fun i => i == 0
  extra : FormY → Bool := fun _ => true

/-- Slot data (R311): one register, two registers, or a local-store address with the length in IMM[1:0]. -/
def FormY.slotFits (f : FormY) : Bool :=
  match f.src with
  | .one => f.gv2 == 0 && f.gl == 0 && f.imm == 0
  | .two => f.gl == 0 && f.imm == 0
  | .ls => f.gv1 == 0 && f.gv2 == 0 && f.imm.toNat < 4

def FormY.fits (f : FormY) (u : UseY) : Bool :=
  f.grd.wf && (u.gh || f.gh == 0) && (u.gst || f.gst == 0) && (u.f || !f.f) && (u.ls || f.ls == 0) && u.extra f
    && (if u.slot then f.slotFits
        else if u.governor then f.src == .ls && f.imm == 7
        else (u.gv1 || f.gv1 == 0) && (u.gv2 || f.gv2 == 0) && f.src == .one && f.gl == 0 && u.imm f.imm)

structure UseS where
  gd : Bool := false
  sel : Bool := false
  ga : Bool := false
  gb : Bool := false
  imm : BitVec 32 → Bool := fun i => i == 0
  extra : FormS → Bool := fun _ => true

def FormS.fits (f : FormS) (u : UseS) : Bool :=
  f.grd.wf && (u.gd || f.gd == 0) && (u.sel || f.sel == 0) && (u.ga || f.ga == 0) && (u.gb || f.gb == 0) && u.imm f.imm && u.extra f

structure UseX where
  ca : Bool := false
  da : Bool := false
  db : Bool := false
  dc : Bool := false
  gc : Bool := false
  /-- GL alone. -/
  gl : Bool := false
  /-- GL and LOFF: a local-store operand. -/
  loc : Bool := false
  /-- GW and WOFF: a vault-window operand. -/
  win : Bool := false
  fd : Bool := false
  /-- ET, RM and SAT of an output (R172). -/
  out : Bool := false

/-- SAT is permitted for an output type narrower than 16 bits (R172). -/
def outSat : Et → Bool
  | .e4m3 | .e5m2 | .e2m1x | .int8 => true
  | _ => false

def FormX.fits (f : FormX) (u : UseX) : Bool :=
  f.grd.wf && (u.ca || f.ca == 0) && (u.da || f.da == 0) && (u.db || f.db == 0) && (u.dc || f.dc == 0) && (u.gc || f.gc == 0)
    && (u.gl || u.loc || f.gl == 0) && (u.loc || f.loff == 0) && (u.win || (f.gw == 0 && f.woff == 0)) && (u.fd || f.fd == 0)
    && (if u.out then f.rm != .sr && (!f.sat || outSat f.et) else f.et == .fp32 && f.rm == .rne && !f.sat)

structure UseC where
  gs : Bool := false
  gd : Bool := false
  gk : Bool := false
  ds : Bool := false
  gp : Bool := false
  /-- A length, from GN or, with GN = 0, from LEN (R227); with GN named LEN is unused (assumption 12). -/
  len : Bool := false
  lenAny : Bool := false
  /-- Any source space. -/
  src : Bool := false
  /-- Any destination space. -/
  dst : Bool := false
  /-- A destination in local store alone (R240). -/
  toLs : Bool := false
  /-- A multicast mask, and so a destination in local store (R238). -/
  mc : Bool := false
  /-- A reduction, and so a global destination and a type of R242. -/
  rop : Bool := false
  extra : FormC → Bool := fun _ => true

def etCopy : Et → Bool
  | .fp32 | .bf16 | .int32 => true
  | _ => false

def FormC.fits (f : FormC) (u : UseC) : Bool :=
  f.grd.wf && (u.gs || f.gs == 0) && (u.gd || f.gd == 0) && (u.gk || f.gk == 0) && (u.ds || f.ds == 0) && (u.gp || f.gp == 0)
    && (u.len || f.gn == 0) && (f.gn == 0 || f.len == 0) && (u.len || u.lenAny || f.len == 0) && (u.src || f.ss == .glob)
    && (if u.mc || u.toLs then f.dsp == .ls else u.dst || f.dsp == .glob) && (if u.mc then f.mc != 0 else f.mc == 0)
    && (if u.rop then etCopy f.et else f.et == .fp32 && f.rop == .add) && u.extra f

structure UseV where
  vd : Bool := false
  va : Bool := false
  vb : Bool := false
  /-- VD[2:0] names an m register. -/
  mdst : Bool := false
  /-- VA names an m register. -/
  msrc : Bool := false
  /-- VA and VB name m registers. -/
  msrc2 : Bool := false
  fd : Bool := false
  /-- GS is a scalar operand. -/
  gs : Bool := false
  mask : Bool := false
  sat : Bool := false
  et : Et → Bool := fun e => e == .fp32
  et2 : Et → Bool := fun e => e == .fp32
  rm : Rm → Bool := fun r => r == .rne
  imm : FormV → Bool := fun f => f.imm == 0
  extra : FormV → Bool := fun _ => true

def FormV.fits (f : FormV) (u : UseV) : Bool :=
  f.grd.wf && (if u.vd then vField f.vd else if u.mdst then f.vd.toNat < 8 else f.vd == 0)
    && (if u.va then vField f.va else if u.msrc || u.msrc2 then f.va.toNat < 8 else f.va == 0)
    && (if u.vb then vField f.vb else if u.msrc2 then f.vb.toNat < 8 else f.vb == 0)
    && (u.fd || f.fd == 0) && (u.gs || f.gs == 0 || (u.rm .sr && f.rm == .sr)) && (u.mask || !f.me) && (f.me || (f.msk == 0 && !f.mz))
    && (u.sat || !f.sat) && u.et f.et && u.et2 f.et2 && u.rm f.rm && u.imm f && u.extra f

/-! ### Entries with rules of their own -/

/-- Shift counts (R146): with IMM[5] clear the count is IMM[4:0] and VB is zero; with IMM[5] set, IMM[4:0] is zero. -/
def shiftImm (f : FormV) : Bool := f.imm == 32 || (f.imm.toNat < 32 && f.vb == 0)
/-- VCMP conditions (R147). -/
def vcmpImm (f : FormV) : Bool := f.imm.toNat < 16 && (if etFloat f.et then ccFcmp (f.imm.setWidth 4) else etInt f.et && ccCmp (f.imm.setWidth 4))
/-- VBCAST (R149): VA is named by the element form alone. -/
def vbcastSrc (f : FormV) : Bool := f.imm == 1 || f.va == 0
/-- An instruction that writes no vector or mask register has no inactive lane to write, so it does not use MZ (R43, R138): VRED, VDOT. -/
def noZeroing (f : FormV) : Bool := !f.mz
/-- VRED and VSCAN operations (R151). -/
def reduceImm (f : FormV) : Bool := f.imm.toNat < 3 || ((f.imm == 5 || f.imm == 6) && etInt f.et)
/-- The narrow float types. -/
def etNarrow : Et → Bool
  | .e4m3 | .e5m2 => true
  | _ => false
/-- Legal pairs of VCVT with their SAT and their parts (R154). -/
def vcvtPair (f : FormV) : Bool :=
  let big := Nat.max (etBytes f.et) (etBytes f.et2)
  let small := Nat.min (etBytes f.et) (etBytes f.et2)
  let legal :=
    if (etFloat f.et || etNarrow f.et) && (etFloat f.et2 || etNarrow f.et2) then f.et != f.et2 && (!f.sat || etNarrow f.et2)
    else if etFloat f.et && etInt f.et2 then !f.sat
    else if etInt f.et && etFloat f.et2 then !f.sat
    else if f.et == .int32 && f.et2 == .int8 then true
    else f.et == .int8 && f.et2 == .int32 && !f.sat
  legal && f.imm.toNat < big / small
/-- Legal pairs of VMAC with their SAT and their parts (R158). -/
def vmacPair (f : FormV) : Bool :=
  if f.et == .bf16 || f.et == .fp16 then f.et2 == .fp32 && !f.sat && f.imm.toNat < 2
  else f.et == .int8 && f.et2 == .int32 && f.imm.toNat < 4
/-- RCP.BIND (R405): at most four captures, from consecutive g registers. -/
def bindImm (f : FormV) : Bool :=
  let c := (f.imm.extractLsb' 4 3).toNat
  f.imm.toNat < 128 && c ≤ 4 && (if c == 0 then f.gs == 0 else f.gs.toNat + c ≤ 64)
/-- CELL.INIT's parameters (R288): the type in IMM[2:0], and the parameters a type takes. -/
def cellInitFields (f : FormY) : Bool :=
  match (f.imm.extractLsb' 0 3).toNat with
  | 1 | 2 => f.imm.extractLsb' 3 29 == 0
  | 3 => f.imm.extractLsb' 3 29 == 0 && f.gv2 == 0
  | 4 => f.imm.extractLsb' 17 15 == 0 && f.gv2 == 0 && (f.imm.extractLsb' 3 5).toNat ≤ 16
      && (if f.imm.getLsbD 10 then (f.imm.extractLsb' 8 2).toNat == 3 else f.imm.extractLsb' 11 6 == 0)
  | 5 => f.imm.extractLsb' 3 29 == 0
  | _ => false
/-- System registers (R56): which selectors exist, and IMM naming a queue or a half of GGR only. -/
def selFields (f : FormS) : Bool :=
  let n := f.sel.toNat
  if n == 2 then f.imm.toNat ≤ 1
  else if 8 ≤ n && n ≤ 11 then true
  else f.imm == 0 && ((1 ≤ n && n ≤ 14) || (0x100 ≤ n && n ≤ 0x14F) || (0x800 ≤ n && n ≤ 0xCFF))
/-- WIN.RD and WIN.WR (R364): the part's own registers take no group. -/
def windowFields (f : FormS) : Bool := f.imm != 2 || f.ga == 0

/-! ### Every instruction -/

/-- The instruction is one its entry permits. A step of another agent carries no encoding and no condition. -/
def Instr.wf : Instr → Bool
  | .nop f => f.grd.wf
  | .br f => f.fits { off := true }
  | .bri f => f.fits { ga := true }
  | .call f => f.fits { glk := true, off := true }
  | .calli f => f.fits { glk := true, ga := true }
  | .ret f => f.fits { ga := true }
  | .loop f => f.fits { loopForm := true, off := true }
  | .lexit f => f.fits { off := true }
  | .exit f => f.fits {}
  | .trap f => f.fits { cnt := true }
  | .brk f => f.fits { cnt := true }
  | .prePoint f => f.fits { ls := true }
  | .yield f => f.fits { ls := true }
  | .add f => f.fits { gd := true, ga := true, gb := true, w := true }
  | .sub f => f.fits { gd := true, ga := true, gb := true, w := true }
  | .mul f => f.fits { gd := true, ga := true, gb := true, w := true }
  | .mulh f => f.fits { gd := true, ga := true, gb := true, w := true }
  | .mulhs f => f.fits { gd := true, ga := true, gb := true, w := true }
  | .div f => f.fits { gd := true, ga := true, gb := true, w := true }
  | .divs f => f.fits { gd := true, ga := true, gb := true, w := true }
  | .rem f => f.fits { gd := true, ga := true, gb := true, w := true }
  | .rems f => f.fits { gd := true, ga := true, gb := true, w := true }
  | .madd f => f.fits { gd := true, ga := true, gb := true, w := true }
  | .and f => f.fits { gd := true, ga := true, gb := true, w := true }
  | .or f => f.fits { gd := true, ga := true, gb := true, w := true }
  | .xor f => f.fits { gd := true, ga := true, gb := true, w := true }
  | .andn f => f.fits { gd := true, ga := true, gb := true, w := true }
  | .orn f => f.fits { gd := true, ga := true, gb := true, w := true }
  | .shl f => f.fits { gd := true, ga := true, gb := true, w := true }
  | .shr f => f.fits { gd := true, ga := true, gb := true, w := true }
  | .shra f => f.fits { gd := true, ga := true, gb := true, w := true }
  | .ror f => f.fits { gd := true, ga := true, gb := true, w := true }
  | .min f => f.fits { gd := true, ga := true, gb := true, w := true }
  | .max f => f.fits { gd := true, ga := true, gb := true, w := true }
  | .mins f => f.fits { gd := true, ga := true, gb := true, w := true }
  | .maxs f => f.fits { gd := true, ga := true, gb := true, w := true }
  | .clz f => f.fits { gd := true, ga := true, w := true }
  | .ctz f => f.fits { gd := true, ga := true, w := true }
  | .popc f => f.fits { gd := true, ga := true, w := true }
  | .brev f => f.fits { gd := true, ga := true, w := true }
  | .bswap f => f.fits { gd := true, ga := true, w := true }
  | .bfx f => f.fits { gd := true, ga := true, gb := true }
  | .bfi f => f.fits { gd := true, ga := true, gb := true }
  | .cmp f => f.fits { kd := true, ga := true, gb := true, w := true, cc := ccCmp }
  | .kop f => f.fits { kd := true, ka := true, kb := true, cc := ccKop }
  | .sel f => f.fits { gd := true, ka := true, ga := true, gb := true }
  | .lea f => f.fits { gd := true, ga := true, gb := true, imm := fun i => i.toNat < 8 }
  | .addi f => f.fits { gd := true, ga := true, w := true, imm := fun _ => true }
  | .subImm f => f.fits { gd := true, ga := true, w := true, imm := fun _ => true }
  | .mulImm f => f.fits { gd := true, ga := true, w := true, imm := fun _ => true }
  | .mulhImm f => f.fits { gd := true, ga := true, w := true, imm := fun _ => true }
  | .mulhsImm f => f.fits { gd := true, ga := true, w := true, imm := fun _ => true }
  | .divImm f => f.fits { gd := true, ga := true, w := true, imm := fun _ => true }
  | .divsImm f => f.fits { gd := true, ga := true, w := true, imm := fun _ => true }
  | .remImm f => f.fits { gd := true, ga := true, w := true, imm := fun _ => true }
  | .remsImm f => f.fits { gd := true, ga := true, w := true, imm := fun _ => true }
  | .maddImm f => f.fits { gd := true, ga := true, w := true, imm := fun _ => true }
  | .andImm f => f.fits { gd := true, ga := true, w := true, imm := fun _ => true }
  | .orImm f => f.fits { gd := true, ga := true, w := true, imm := fun _ => true }
  | .xorImm f => f.fits { gd := true, ga := true, w := true, imm := fun _ => true }
  | .andnImm f => f.fits { gd := true, ga := true, w := true, imm := fun _ => true }
  | .ornImm f => f.fits { gd := true, ga := true, w := true, imm := fun _ => true }
  | .shlImm f => f.fits { gd := true, ga := true, w := true, imm := fun _ => true }
  | .shrImm f => f.fits { gd := true, ga := true, w := true, imm := fun _ => true }
  | .shraImm f => f.fits { gd := true, ga := true, w := true, imm := fun _ => true }
  | .rorImm f => f.fits { gd := true, ga := true, w := true, imm := fun _ => true }
  | .minImm f => f.fits { gd := true, ga := true, w := true, imm := fun _ => true }
  | .maxImm f => f.fits { gd := true, ga := true, w := true, imm := fun _ => true }
  | .minsImm f => f.fits { gd := true, ga := true, w := true, imm := fun _ => true }
  | .maxsImm f => f.fits { gd := true, ga := true, w := true, imm := fun _ => true }
  | .bfxImm f => f.fits { gd := true, ga := true, imm := bitFieldImm }
  | .bfiImm f => f.fits { gd := true, ga := true, imm := bitFieldImm }
  | .cmpi f => f.fits { kd := true, ga := true, w := true, cc := ccCmp, imm := fun _ => true }
  | .leaPc f => f.fits { gd := true, ga := true, imm := fun _ => true }
  | .movi f => f.fits (fun _ => true)
  | .movh f => f.fits (fun i => i.toNat < 65536)
  | .fadd f => f.fits { gd := true, ga := true, gb := true, rm := true }
  | .fsub f => f.fits { gd := true, ga := true, gb := true, rm := true }
  | .fmul f => f.fits { gd := true, ga := true, gb := true, rm := true }
  | .ffma f => f.fits { gd := true, ga := true, gb := true, rm := true }
  | .fdiv f => f.fits { gd := true, ga := true, gb := true, rm := true }
  | .fsqrt f => f.fits { gd := true, ga := true, rm := true }
  | .fmin f => f.fits { gd := true, ga := true, gb := true }
  | .fmax f => f.fits { gd := true, ga := true, gb := true }
  | .fcmp f => f.fits { kd := true, ga := true, gb := true, cc := ccFcmp }
  | .fcvt f => f.fits { gd := true, ga := true, rm := true, imm := fun i => i.toNat < 8 }
  | .fclass f => f.fits { kd := true, gd := true, ga := true, imm := fun i => i.toNat < 512 }
  | .fsgn f => f.fits { gd := true, ga := true, gb := true, imm := fun i => i.toNat ≤ 2 }
  | .fget f => f.fits { gd := true, imm := fun i => i.toNat < 4 }
  | .fpeek f => f.fits { gd := true, kd := true, imm := fun i => i.toNat < 4 }
  | .ld f => f.fits { gt := true, gb := true, sz := szAll, ord := ordLd, off := true, pair := fun f => evenPair f.gt }
  | .lds f => f.fits { gt := true, gb := true, sz := szSmall, ord := ordLd, off := true }
  | .st f => f.fits { gt := true, gb := true, sz := szAll, ord := ordSt, off := true, pair := fun f => evenPair f.gt }
  | .atom f => f.fits { gt := true, gb := true, gx := true, sz := szWD, ord := ordAll, aop := true, off := true, pair := fun _ => true }
  | .cas f => f.fits { gt := true, gb := true, gx := true, sz := szWDQ, ord := ordAll, off := true, pair := fun f => evenPair f.gt && evenPair f.gx }
  | .pref f => f.fits { gb := true, off := true }
  | .vldg f => f.fits { gt := true, gb := true, gx := true, me := true, off := true, vt := true, vx := true }
  | .vstg f => f.fits { gt := true, gb := true, gx := true, me := true, off := true, vt := true, vx := true }
  | .seal f => f.fits { gt := true, gb := true, off := true }
  | .unseal f => f.fits { gt := true, gb := true, off := true }
  | .l1inv f => f.fits { gb := true, off := true }
  | .l1invAll f => f.fits { allLines := true }
  | .ldl f => f.fits { gt := true, gb := true, sz := szAll, off := true, pair := fun f => evenPair f.gt }
  | .stl f => f.fits { gt := true, gb := true, sz := szAll, off := true, pair := fun f => evenPair f.gt }
  | .ldn f => f.fits { gt := true, gb := true, gx := true, sz := szAll, off := true, pair := fun f => evenPair f.gt }
  | .stn f => f.fits { gt := true, gb := true, gx := true, sz := szAll, off := true, pair := fun f => evenPair f.gt }
  | .vld f => f.fits { gt := true, gb := true, me := true, off := true, vt := true }
  | .vst f => f.fits { gt := true, gb := true, me := true, off := true, vt := true }
  | .fence f => f.fits { ord := ordFence, scope := true }
  | .fenceXp f => f.fits {}
  | .wack f => f.fits { gt := true }
  | .seq f => f.fits { gt := true }
  | .cellInit f => f.fits { gh := true, gv1 := true, gv2 := true, gst := true, imm := fun _ => true, extra := cellInitFields }
  | .cellKill f => f.fits { gh := true, gst := true, f := true }
  | .cellQry f => f.fits { gh := true, gv1 := true, gst := true, f := true }
  | .ctrAdd f => f.fits { gh := true, gv1 := true, gv2 := true, gst := true, f := true, imm := fun _ => true }
  | .ctrRd f => f.fits { gh := true, gv1 := true, gst := true, f := true }
  | .ctrWge f => f.fits { gh := true, gv1 := true, gst := true, f := true, ls := true, imm := fun _ => true }
  | .barArr f => f.fits { gh := true, gv1 := true, gst := true, f := true }
  | .barWt f => f.fits { gh := true, gv1 := true, gst := true, f := true, ls := true }
  | .barArw f => f.fits { gh := true, gv1 := true, gst := true, f := true, ls := true, extra := fun f => f.gv1 != 0 }
  | .barDrop f => f.fits { gh := true, gv1 := true, gst := true, f := true }
  | .barAdj f => f.fits { gh := true, gv1 := true, gst := true, f := true, imm := fun _ => true }
  | .lckTake f => f.fits { gh := true, gst := true, f := true, ls := true }
  | .lckTry f => f.fits { gh := true, gst := true, f := true }
  | .lckGive f => f.fits { gh := true, gst := true, f := true }
  | .cndWait f => f.fits { gh := true, gst := true, f := true, ls := true }
  | .cndSig f => f.fits { gh := true, gv1 := true, gst := true, f := true }
  | .cndAll f => f.fits { gh := true, gv1 := true, gst := true, f := true }
  | .qPut f => f.fits { gh := true, gst := true, f := true, ls := true, slot := true }
  | .qTake f => f.fits { gh := true, gst := true, f := true, ls := true, slot := true }
  | .qTryput f => f.fits { gh := true, gst := true, f := true, slot := true }
  | .qTrytake f => f.fits { gh := true, gst := true, f := true, slot := true }
  | .qJoin f => f.fits { gh := true, gst := true, f := true }
  | .qJoinGovernor f => f.fits { gh := true, gst := true, f := true, governor := true }
  | .qClose f => f.fits { gh := true, gst := true, f := true }
  | .vadd f => f.fits { vd := true, va := true, vb := true, mask := true, et := etFloat, rm := rmAny }
  | .vsub f => f.fits { vd := true, va := true, vb := true, mask := true, et := etFloat, rm := rmAny }
  | .vmul f => f.fits { vd := true, va := true, vb := true, mask := true, et := etFloat, rm := rmAny }
  | .vfma f => f.fits { vd := true, va := true, vb := true, mask := true, et := etFloat, rm := rmAny }
  | .vfms f => f.fits { vd := true, va := true, vb := true, mask := true, et := etFloat, rm := rmAny }
  | .vmin f => f.fits { vd := true, va := true, vb := true, mask := true, et := etFloat }
  | .vmax f => f.fits { vd := true, va := true, vb := true, mask := true, et := etFloat }
  | .vabs f => f.fits { vd := true, va := true, mask := true, et := etFloat }
  | .vneg f => f.fits { vd := true, va := true, mask := true, et := etFloat }
  | .vrcp f => f.fits { vd := true, va := true, mask := true, et := etFloat }
  | .vrsq f => f.fits { vd := true, va := true, mask := true, et := etFloat }
  | .vsqrt f => f.fits { vd := true, va := true, mask := true, et := etFloat, rm := rmAny }
  | .vexp2 f => f.fits { vd := true, va := true, mask := true, et := etFloat }
  | .vlog2 f => f.fits { vd := true, va := true, mask := true, et := etFloat }
  | .vtanh f => f.fits { vd := true, va := true, mask := true, et := etFloat }
  | .viadd f => f.fits { vd := true, va := true, vb := true, mask := true, et := etInt, sat := true, imm := fun f => f.imm == 0 || (f.imm == 1 && f.sat) }
  | .visub f => f.fits { vd := true, va := true, vb := true, mask := true, et := etInt, sat := true, imm := fun f => f.imm == 0 || (f.imm == 1 && f.sat) }
  | .vimul f => f.fits { vd := true, va := true, vb := true, mask := true, et := etInt, sat := true, imm := fun f => f.imm == 0 || (f.imm == 1 && f.sat) }
  | .vand f => f.fits { vd := true, va := true, vb := true, mask := true, et := etSized }
  | .vor f => f.fits { vd := true, va := true, vb := true, mask := true, et := etSized }
  | .vxor f => f.fits { vd := true, va := true, vb := true, mask := true, et := etSized }
  | .vshl f => f.fits { vd := true, va := true, vb := true, mask := true, et := etInt, imm := shiftImm }
  | .vshr f => f.fits { vd := true, va := true, vb := true, mask := true, et := etInt, imm := shiftImm }
  | .vshra f => f.fits { vd := true, va := true, vb := true, mask := true, et := etInt, imm := shiftImm }
  | .vcmp f => f.fits { mdst := true, va := true, vb := true, mask := true, et := etSized, imm := vcmpImm }
  | .vsel f => f.fits { vd := true, va := true, vb := true, et := etSized, extra := fun f => f.me && !f.mz, mask := true }
  | .mop f => f.fits { mdst := true, msrc2 := true, imm := fun f => f.imm.toNat ≤ 5 }
  | .mpop f => f.fits { msrc := true, fd := true, et := etSized, imm := fun f => f.imm.toNat ≤ 1 }
  | .vmov f => f.fits { vd := true, va := true, mask := true, et := etSized }
  | .vbcast f => f.fits { vd := true, mask := true, et := etSized, extra := vbcastSrc, va := true, gs := true, imm := fun f => f.imm.toNat ≤ 1 }
  | .vext f => f.fits { va := true, fd := true, gs := true, et := etSized }
  | .vperm f => f.fits { vd := true, va := true, vb := true, mask := true, et := etSized }
  | .vshuf f => f.fits { vd := true, va := true, mask := true, et := etSized, imm := fun f => f.imm.toNat < etCount f.et }
  | .vslide f => f.fits { vd := true, va := true, vb := true, mask := true, et := etSized, imm := fun f => f.imm.toNat ≤ etCount f.et }
  | .vzip f => f.fits { vd := true, va := true, vb := true, mask := true, et := etSized, imm := fun f => f.imm.toNat ≤ 3 }
  | .vred f => f.fits { va := true, fd := true, mask := true, et := etReduce, imm := reduceImm, extra := noZeroing }
  | .vscan f => f.fits { vd := true, va := true, mask := true, et := etReduce, imm := reduceImm }
  | .vdot f => f.fits { va := true, vb := true, fd := true, mask := true, et := etReduce, extra := noZeroing }
  | .vcvt f => f.fits { vd := true, va := true, mask := true, et := fun _ => true, et2 := fun _ => true, rm := rmAny, sat := true, imm := fun _ => true, extra := vcvtPair }
  | .vqnt f => f.fits { vd := true, va := true, vb := true, et := fun e => e == .fp32, et2 := fun e => e == .e2m1x, rm := rmAny, sat := true, imm := fun f => f.imm.toNat < 32, extra := fun f => f.vd != f.vb }
  | .vdq f => f.fits { vd := true, va := true, vb := true, mask := true, et := fun e => e == .e2m1x, rm := rmAny, imm := fun f => f.imm.toNat < 32 }
  | .vlut f => f.fits { vd := true, va := true, mask := true, et := fun e => e == .lut4, et2 := fun e => e == .int8, imm := fun f => f.imm.toNat ≤ 1 }
  | .vmac f => f.fits { vd := true, va := true, vb := true, mask := true, et := fun _ => true, et2 := fun _ => true, rm := rmAny, sat := true, imm := fun _ => true, extra := vmacPair }
  | .vclamp f => f.fits { vd := true, va := true, gs := true, mask := true, et := etReduce }
  | .mma f => f.fits { ca := true, da := true, db := true, loc := true, win := true }
  | .mmaz f => f.fits { ca := true, da := true, db := true, loc := true, win := true }
  | .mzero f => f.fits { ca := true }
  | .movc f => f.fits { ca := true, dc := true, loc := true, fd := true, out := true }
  | .movcv f => f.fits { ca := true, dc := true, win := true, fd := true, out := true }
  | .mdesc f => f.fits { da := true, gc := true }
  | .mgeo f => f.fits { da := true, gl := true, gc := true }
  | .lutld f => f.fits { gc := true }
  | .mwait f => f.fits {}
  | .mwt f => f.fits { gc := true }
  | .cpy f => f.fits { gs := true, gd := true, gk := true, ds := true, len := true, src := true, dst := true }
  | .cpyc f => f.fits { gs := true, gd := true, gk := true, ds := true, gp := true, src := true, toLs := true }
  | .cpym f => f.fits { gs := true, gd := true, gk := true, ds := true, len := true, src := true, mc := true }
  | .cpyg f => f.fits { gs := true, gd := true, gk := true, ds := true, gp := true, src := true, dst := true, extra := fun f => f.ss != .ls }
  | .cpys f => f.fits { gs := true, gd := true, gk := true, ds := true, gp := true, src := true, dst := true, extra := fun f => f.dsp != .ls }
  | .cpyr f => f.fits { gs := true, gd := true, gk := true, ds := true, len := true, src := true, rop := true }
  | .cpyq f => f.fits { gd := true, gp := true }
  | .cpyk f => f.fits { gp := true, extra := fun f => f.gn == 0 && f.len.toNat ≤ 1, lenAny := true }
  | .hypOpen f => f.fits { gst := true, gv1 := true }
  | .hypEnter f => f.fits { gst := true, gv1 := true, f := true }
  | .hypLeave f => f.fits { gst := true }
  | .hypRsv f => f.fits { gst := true, gv1 := true, gh := true, f := true, imm := fun i => i.toNat ≤ 1 }
  | .hypQry f => f.fits { gst := true, gv1 := true, gv2 := true, f := true }
  | .rcpBind f => f.fits { vd := true, gs := true, imm := bindImm }
  | .rcpFree f => f.fits { vd := true }
  | .rcpDrop f => f.fits { vd := true }
  | .rcpAnch f => f.fits { vd := true }
  | .rcpQry f => f.fits { va := true, fd := true }
  | .srd f => f.fits { gd := true, sel := true, imm := fun _ => true, extra := selFields }
  | .swr f => f.fits { gd := true, sel := true, imm := fun _ => true, extra := selFields }
  | .geo f => f.fits { gd := true, imm := fun i => i.toNat ≤ 10 }
  | .clk f => f.fits { gd := true }
  | .id f => f.fits { gd := true, imm := fun i => i.toNat ≤ 4 }
  | .winRd f => f.fits { gd := true, ga := true, gb := true, imm := fun i => i.toNat ≤ 2, extra := windowFields }
  | .winWr f => f.fits { gd := true, ga := true, gb := true, imm := fun i => i.toNat ≤ 2, extra := windowFields }
  | .grpFrz f => f.fits { gd := true, ga := true }
  | .grpThaw f => f.fits { gd := true, ga := true }
  | .grpKill f => f.fits { gd := true, ga := true }
  | .tlbInv f => f.fits { ga := true, gb := true }
  | .vectorCommandRun _ => true
  | .tileCommandStart _ => true
  | .tileCommandRetire _ => true
  | .copyJobStart _ => true
  | .copyChunk _ _ => true
  | .copyJobDone _ => true
  | .resolveApply _ _ _ => true
  | .resolveComplete _ _ => true
  | .scrubPassEnd _ => true
  | .tlbInvSiteAck _ _ _ => true
  | .pageWalk _ _ _ => true
  | .homeRead _ => true
  | .homeWrite _ => true
  | .storeAck _ => true
  | .loadReturn _ => true
  | .blockingResponse _ _ => true
  | .writebackDrain _ => true
  | .replicaDrop _ _ => true
  | .unsealComplete _ => true
  | .cellOperation _ => true
  | .hotLineFill _ _ => true
  | .wake _ => true
  | .hqput _ _ _ _ => true
  | .hqsRead _ _ _ => true
  | .launchTake _ _ => true
  | .kernelLoad _ _ => true
  | .groupPlace _ => true
  | .launchEnd _ _ => true
  | .quiescenceSweep _ _ => true
  | .replenishment _ _ => true
  | .overrun _ _ => true
  | .swap _ => true
  | .saveComplete _ => true
  | .graceExpiry _ => true
  | .saveRetry _ => true
  | .faultRecordDelivery _ => true
  | .double _ => true
  | .create _ => true
  | .lock _ => true
  | .start _ => true
  | .stop _ => true
  | .release _ => true
  | .invalidCommand _ _ => true
  | .stopDrainComplete _ => true
  | .scrubComplete _ => true
  | .partError _ _ => true
  | .registerWrite _ _ => true
  | .vbndWrite _ _ => true
  | .lockInterfaceRequest _ => true
  | .startInterfaceRequest _ => true
  | .stopInterfaceRequest _ => true
  | .challenge _ _ => true
  | .getMeasurements _ => true
  | .sharedKeyInstall _ _ => true
  | .timeShareSwitch _ => true
  | .firmwareLoad _ => true
  | .liveUpdate _ => true
  | .sretGo _ => true
  | .retirementDrainComplete _ => true
  | .grant _ _ _ => true
  | .thermalTrip _ => true
  | .thermalClear _ => true
  | .retentionSleep _ => true
  | .sliceWake _ => true
  | .softError _ => true
  | .flitReplay _ _ => true
  | .train _ => true
  | .fencePort _ => true
  | .down _ => true
  | .signalDetected _ => true
  | .lanesTrained _ _ => true
  | .portAuth _ _ _ _ => true
  | .frameReceive _ _ => true
  | .retrainComplete _ _ _ _ => true
  | .keyUpdate _ _ => true
  | .peerLost _ => true
  | .packetForward _ => true
  | .millMergeForward _ => true
  | .cxlMemRead _ _ => true
  | .cxlMemWrite _ _ => true
  | .hostSnoop _ _ => true
  | .atomicProxy _ => true
  | .coldReset => true
  | .warmReset => true
  | .laneError _ => true
  | .hbmMissReturn _ _ => true

end Sys2Proof
end

