-- ==== Sys2Proof/Machine/Float.lean ====
section
/-! DEFINITION. Number formats and rounding (spec/04_numbers.md R69-R74, R78-R83). A finite value is held exactly, as a sign and a
natural number of units of a power of two; every operation computes exactly and rounds once. -/

namespace Sys2Proof.Machine

/-- The sticky arithmetic bits of VFLAGS (R81, R93). -/
abbrev FloatFlags := BitVec 6
def flagNV : FloatFlags := 0x01
def flagDZ : FloatFlags := 0x02
def flagOF : FloatFlags := 0x04
def flagUF : FloatFlags := 0x08
def flagNX : FloatFlags := 0x10
def flagSAT : FloatFlags := 0x20
/-- The bit when the condition holds. -/
def flagIf (c : Bool) (f : FloatFlags) : FloatFlags := if c then f else 0

/-- A floating-point format (R69): widths of the exponent and fraction fields, the bias, and whether exponent field all ones
holds infinities. -/
structure FloatFormat where
  ebits : Nat
  mbits : Nat
  bias  : Nat
  infs  : Bool
  deriving DecidableEq, Repr

def fp32Format : FloatFormat := { ebits := 8, mbits := 23, bias := 127, infs := true }
def bf16Format : FloatFormat := { ebits := 8, mbits := 7, bias := 127, infs := true }
def fp16Format : FloatFormat := { ebits := 5, mbits := 10, bias := 15, infs := true }
def e5m2Format : FloatFormat := { ebits := 5, mbits := 2, bias := 15, infs := true }
def e4m3Format : FloatFormat := { ebits := 4, mbits := 3, bias := 7, infs := false }

/-- The format of a float element type; FP32 for a type that is none. -/
def formatOf : Et → FloatFormat
  | .bf16 => bf16Format
  | .fp16 => fp16Format
  | .e4m3 => e4m3Format
  | .e5m2 => e5m2Format
  | _ => fp32Format

def FloatFormat.width (t : FloatFormat) : Nat := 1 + t.ebits + t.mbits
/-- Bit pattern of the largest finite magnitude. -/
def FloatFormat.maxFinite (t : FloatFormat) : Nat := if t.infs then (2 ^ t.ebits - 1) * 2 ^ t.mbits - 1 else 2 ^ (t.ebits + t.mbits) - 2
/-- Bit pattern of +infinity; of the positive NaN where the format has none (R79). -/
def FloatFormat.infinity (t : FloatFormat) : Nat := if t.infs then (2 ^ t.ebits - 1) * 2 ^ t.mbits else 2 ^ (t.ebits + t.mbits) - 1
/-- The canonical NaN (R72). -/
def FloatFormat.nan (t : FloatFormat) : Nat :=
  if t.infs then (2 ^ t.ebits - 1) * 2 ^ t.mbits + 2 ^ (t.mbits - 1) else 2 ^ (t.ebits + t.mbits) - 1
/-- The bit pattern with its sign. -/
def FloatFormat.signed (t : FloatFormat) (neg : Bool) (mag : Nat) : Nat := if neg then mag + 2 ^ (t.ebits + t.mbits) else mag
/-- Exponent of the smallest normal. -/
def FloatFormat.emin (t : FloatFormat) : Int := 1 - (t.bias : Int)

/-- A value: NaN, an infinity, or (-1)^neg * m * 2^e exactly. -/
inductive FloatVal
  | nan
  | inf (neg : Bool)
  | fin (neg : Bool) (m : Nat) (e : Int)
  deriving DecidableEq, Repr

/-- A bit pattern read as a value (R70, R71). -/
def decodeFloat (t : FloatFormat) (bits : Nat) : FloatVal :=
  let m := bits % 2 ^ t.mbits
  let e := bits / 2 ^ t.mbits % 2 ^ t.ebits
  let neg := bits / 2 ^ (t.ebits + t.mbits) % 2 == 1
  if e = 2 ^ t.ebits - 1 ∧ t.infs then (if m = 0 then .inf neg else .nan)
  else if e = 2 ^ t.ebits - 1 ∧ m = 2 ^ t.mbits - 1 then .nan
  else if e = 0 then .fin neg m (t.emin - t.mbits)
  else .fin neg (m + 2 ^ t.mbits) ((e : Int) - t.bias - t.mbits)

/-- What an operation gives before rounding. In fin the magnitude is m * 2^e when exact, and lies strictly between m * 2^e and
(m + 1) * 2^e otherwise. -/
inductive ExactVal
  /-- A NaN; invalid when it comes from operands that are none (NV). -/
  | nan (invalid : Bool)
  /-- An infinity; byZero when a finite operand gave it (DZ). -/
  | inf (neg : Bool) (byZero : Bool)
  | fin (neg : Bool) (m : Nat) (e : Int) (exact : Bool)
  deriving DecidableEq, Repr

/-- A value as it stands. -/
def FloatVal.exactly : FloatVal → ExactVal
  | .nan => .nan false
  | .inf n => .inf n false
  | .fin n m e => .fin n m e true

def FloatVal.isNan : FloatVal → Bool
  | .nan => true
  | _ => false
def FloatVal.isInf : FloatVal → Bool
  | .inf _ => true
  | _ => false
def FloatVal.isZero : FloatVal → Bool
  | .fin _ m _ => m == 0
  | _ => false
def FloatVal.isNeg : FloatVal → Bool
  | .nan => false
  | .inf n => n
  | .fin n _ _ => n
def FloatVal.negate : FloatVal → FloatVal
  | .nan => .nan
  | .inf n => .inf (!n)
  | .fin n m e => .fin (!n) m e
def FloatVal.magnitude : FloatVal → FloatVal
  | .nan => .nan
  | .inf _ => .inf false
  | .fin _ m e => .fin false m e

/-- n * 2^k for a signed k, with the bits shifted out reported. -/
def scaleNat (n : Nat) (k : Int) : Nat × Bool :=
  match k with
  | .ofNat j => (n <<< j, false)
  | .negSucc j => (n >>> (j + 1), n % 2 ^ (j + 1) != 0)

/-- Does the mode take the candidate farther from zero? rem is the part cut off, in units of 2^-sh of the last place, more
says that the exact value lies above it, odd is the lowest fraction bit of the nearer candidate, r the draw of R82 (R78). -/
def takesUpper (rm : Rm) (neg : Bool) (rem sh : Nat) (more odd : Bool) (r : Nat) : Bool :=
  if rem = 0 ∧ more = false then false
  else match rm with
    | .rne => decide (2 * rem > 2 ^ sh) || (2 * rem == 2 ^ sh && (more || odd))
    | .rtz => false
    | .rdn => neg
    | .rup => !neg
    | .sr => decide (r < (rem <<< 32) >>> sh)

/-- Round (R78-R80): a nonzero or zero magnitude m * 2^e with its sign to format t; r is the draw of R82 under SR.
The result's bit pattern and the flags. -/
def roundFinite (t : FloatFormat) (rm : Rm) (sat : Bool) (r : Nat) (neg : Bool) (m : Nat) (e : Int) (exact : Bool) : Nat × FloatFlags :=
  if m = 0 then (t.signed neg 0, 0) else
  let top : Int := e + Nat.log2 m
  let unit : Int := (if top < t.emin then t.emin else top) - t.mbits
  let sh := (unit - e).toNat
  let k := if unit ≤ e then m <<< (e - unit).toNat else m >>> sh
  let rem := if unit ≤ e then 0 else m % 2 ^ sh
  let inexact := rem != 0 || !exact
  let up := takesUpper rm neg rem sh (!exact) (k % 2 == 1) r
  let k1 := if up then k + 1 else k
  let mag := ((unit + t.mbits + t.bias - 1).toNat) * 2 ^ t.mbits + k1
  let tiny :=
    if t.emin ≤ top then false
    else
      let sh0 := (top - t.mbits - e).toNat
      let k0 := m >>> sh0
      let up0 := if rm = .sr then up && (m % 2 ^ sh0 != 0 || !exact) else takesUpper rm neg (m % 2 ^ sh0) sh0 (!exact) (k0 % 2 == 1) r
      let carried := decide (e + (sh0 : Int) + t.mbits = top) && up0 && k0 + 1 == 2 ^ (t.mbits + 1)
      !(carried && top + 1 == t.emin)
  if mag > t.maxFinite then
    if sat then (t.signed neg t.maxFinite, flagOF ||| flagNX ||| flagSAT)
    else
      let toInf := match rm with
        | .rne => true
        | .rtz => false
        | .rdn => neg
        | .rup => !neg
        | .sr => true
      (t.signed neg (if toInf then t.infinity else t.maxFinite), flagOF ||| flagNX)
  else (t.signed neg mag, flagIf inexact flagNX ||| flagIf (inexact && tiny) flagUF)

/-- Round an exact result, with the special cases of R72 and R79. -/
def roundTo (t : FloatFormat) (rm : Rm) (sat : Bool) (r : Nat) : ExactVal → Nat × FloatFlags
  | .nan invalid => (t.nan, flagIf invalid flagNV)
  | .inf neg byZero =>
    if sat then (t.signed neg t.maxFinite, flagSAT ||| flagIf byZero flagDZ)
    else (t.signed neg t.infinity, flagIf byZero flagDZ ||| flagIf (!t.infs) flagNV)
  | .fin neg m e exact => roundFinite t rm sat r neg m e exact

/-! ### Exact operations (R128, R144) -/

/-- Sum of two signed magnitudes on one unit; the sign of an exact zero by R78. -/
def addSigned (rm : Rm) (n1 : Bool) (m1 : Nat) (n2 : Bool) (m2 : Nat) : Bool × Nat :=
  if n1 = n2 then (n1, m1 + m2)
  else if m1 = m2 then (decide (rm = .rdn), 0)
  else if m1 > m2 then (n1, m1 - m2) else (n2, m2 - m1)

/-- a + b; the mode matters for the sign of an exact zero only. -/
def exactAdd (rm : Rm) : FloatVal → FloatVal → ExactVal
  | .nan, _ => .nan false
  | _, .nan => .nan false
  | .inf a, .inf b => if a = b then .inf a false else .nan true
  | .inf a, .fin _ _ _ => .inf a false
  | .fin _ _ _, .inf b => .inf b false
  | .fin n1 m1 e1, .fin n2 m2 e2 =>
    let e := if e1 ≤ e2 then e1 else e2
    let s := addSigned rm n1 (m1 <<< (e1 - e).toNat) n2 (m2 <<< (e2 - e).toNat)
    .fin s.1 s.2 e true

/-- a * b as a value, with a NaN marked invalid for 0 * infinity. -/
def exactMul : FloatVal → FloatVal → ExactVal
  | .nan, _ => .nan false
  | _, .nan => .nan false
  | .inf a, .inf b => .inf (a != b) false
  | .inf a, .fin n m _ => if m = 0 then .nan true else .inf (a != n) false
  | .fin n m _, .inf b => if m = 0 then .nan true else .inf (n != b) false
  | .fin n1 m1 e1, .fin n2 m2 e2 => .fin (n1 != n2) (m1 * m2) (e1 + e2) true

/-- a * b + c, rounded once by the caller. -/
def exactFma (rm : Rm) (a b c : FloatVal) : ExactVal :=
  match exactMul a b with
  | .nan invalid => .nan invalid
  | .inf n _ => match c with
    | .nan => .nan false
    | .inf k => if n = k then .inf n false else .nan true
    | .fin _ _ _ => .inf n false
  | .fin n m e _ => exactAdd rm (.fin n m e) c

/-- a / b to 64 bits beyond the operands, the rest known to be nonzero or zero. -/
def exactDiv : FloatVal → FloatVal → ExactVal
  | .nan, _ => .nan false
  | _, .nan => .nan false
  | .inf _, .inf _ => .nan true
  | .inf a, .fin n _ _ => .inf (a != n) false
  | .fin n _ _, .inf b => .fin (n != b) 0 0 true
  | .fin n1 m1 e1, .fin n2 m2 e2 =>
    if m2 = 0 then (if m1 = 0 then .nan true else .inf (n1 != n2) true)
    else
      let q := (m1 <<< 128) / m2
      .fin (n1 != n2) q (e1 - e2 - 128) ((m1 <<< 128) % m2 == 0)

/-- Integer square root by bits: fuel is how many result bits remain to be tried. -/
def isqrtAux (n : Nat) : Nat → Nat → Nat
  | 0, root => root
  | fuel + 1, root =>
    let c := root + 2 ^ fuel
    isqrtAux n fuel (if c * c ≤ n then c else root)
/-- The integer square root of n < 2^(2 * bits). -/
def isqrt (bits n : Nat) : Nat := isqrtAux n bits 0

/-- The square root of a value (R128): of a negative value, NaN with NV; of -0, -0. -/
def exactSqrt : FloatVal → ExactVal
  | .nan => .nan false
  | .inf true => .nan true
  | .inf false => .inf false false
  | .fin n m e =>
    if m = 0 then .fin n 0 0 true
    else if n then .nan true
    else
      let k : Nat := if e % 2 = 0 then 128 else 129
      let x := m <<< k
      let q := isqrt 96 x
      .fin false q ((e - k) / 2) (q * q == x)

/-! ### Order (R129) -/

/-- The value as a signed integer on the unit 2^e, e at most its own exponent. -/
def onUnit (n : Bool) (m : Nat) (ofExp e : Int) : Int :=
  let v : Int := (m <<< (ofExp - e).toNat : Nat)
  if n then -v else v

/-- a < b of values that are no NaN; both zeros are equal. -/
def floatLt : FloatVal → FloatVal → Bool
  | .nan, _ => false
  | _, .nan => false
  | .inf a, .inf b => a && !b
  | .inf a, .fin _ _ _ => a
  | .fin _ _ _, .inf b => !b
  | .fin n1 m1 e1, .fin n2 m2 e2 =>
    let e := if e1 ≤ e2 then e1 else e2
    decide (onUnit n1 m1 e1 e < onUnit n2 m2 e2 e)

/-- a = b of values that are no NaN. -/
def floatEq : FloatVal → FloatVal → Bool
  | .nan, _ => false
  | _, .nan => false
  | .inf a, .inf b => a == b
  | .inf _, .fin _ _ _ => false
  | .fin _ _ _, .inf _ => false
  | .fin n1 m1 e1, .fin n2 m2 e2 =>
    let e := if e1 ≤ e2 then e1 else e2
    decide (onUnit n1 m1 e1 e = onUnit n2 m2 e2 e)

/-- a orders below b when -0 orders below +0. -/
def floatBelow (a b : FloatVal) : Bool := floatLt a b || (a.isZero && b.isZero && a.isNeg && !b.isNeg)

/-- FMIN and FMAX on bit patterns (R129): no flag; one NaN gives the other operand, two the canonical NaN. -/
def floatMinMax (t : FloatFormat) (wantMax : Bool) (a b : Nat) : Nat :=
  let x := decodeFloat t a
  let y := decodeFloat t b
  if x.isNan && y.isNan then t.nan
  else if x.isNan then b
  else if y.isNan then a
  else if wantMax then (if floatBelow x y then b else a)
  else (if floatBelow y x then b else a)

/-- A comparison by the FCMP codes (R53, R129), with its flags: lt, ge, le and gt raise NV on a NaN. -/
def floatCompare (code : Nat) (x y : FloatVal) : Bool × FloatFlags :=
  let un := x.isNan || y.isNan
  let nv := flagIf un flagNV
  match code with
  | 0 => (floatEq x y, 0)
  | 1 => (!floatEq x y, 0)
  | 2 => (floatLt x y, nv)
  | 3 => (!un && !floatLt x y, nv)
  | 6 => (floatLt x y || floatEq x y, nv)
  | 7 => (floatLt y x, nv)
  | 10 => (un, 0)
  | _ => (!un, 0)

/-! ### Conversions (R83) -/

/-- Round to an integer and clamp to [lo, hi]; a clamp raises SAT and NV, and no NX (assumption 58); a NaN gives 0 with NV. -/
def floatToInt (rm : Rm) (r : Nat) (lo hi : Int) : FloatVal → Int × FloatFlags
  | .nan => (0, flagNV)
  | .inf n => (if n then lo else hi, flagNV ||| flagSAT)
  | .fin n m e =>
    let sh := (-e).toNat
    let k := if 0 ≤ e then m <<< e.toNat else m >>> sh
    let rem := if 0 ≤ e then 0 else m % 2 ^ sh
    let k1 := if takesUpper rm n rem sh false (k % 2 == 1) r then k + 1 else k
    let v : Int := if n then -(k1 : Int) else k1
    if v < lo then (lo, flagNV ||| flagSAT)
    else if hi < v then (hi, flagNV ||| flagSAT)
    else (v, flagIf (rem != 0) flagNX)

/-- An integer as a value. -/
def intVal (v : Int) : FloatVal := .fin (decide (v < 0)) v.natAbs 0

/-- One bit pattern converted between float formats (R83). -/
def convertFloat (src dst : FloatFormat) (rm : Rm) (sat : Bool) (r : Nat) (bits : Nat) : Nat × FloatFlags :=
  roundTo dst rm sat r (decodeFloat src bits).exactly

/-! ### Stochastic rounding (R82) -/

/-- The generator of element i before its first step. -/
def srStart (seed : Word64) (i : Nat) : BitVec 32 :=
  let s := seed.setWidth 32 ^^^ BitVec.ofNat 32 ((i + 1) * 0x9E3779B9)
  if s = 0 then 0x6D2B79F5 else s
/-- One step; the new state is also the draw. -/
def srStep (s : BitVec 32) : BitVec 32 :=
  let a := s ^^^ (s <<< 13)
  let b := a ^^^ (a >>> 17)
  b ^^^ (b <<< 5)
/-- The draw of element i's n-th rounding of an instruction, n from 0. -/
def srDraw (seed : Word64) (i : Nat) : Nat → BitVec 32
  | 0 => srStep (srStart seed i)
  | n + 1 => srStep (srDraw seed i n)

end Sys2Proof.Machine
end

