-- ==== Sys2Proof/Machine/Elementary.lean ====
section
/-! DEFINITION. The transcendentals of spec/07_vector.md R145, rounded once from the exact value. VRCP and VRSQ are exact by integer
division and root. For 2^a, log2 a and tanh a the exact value is irrational except in the cases set apart, and is enclosed between two
multiples of 2^-300; when both ends round alike, that is the rounded exact value, and otherwise the result is a free value
(assumption 11). Fixed-point numbers here are natural numbers of units of 2^-320. -/

namespace Sys2Proof.Machine

/-- Fraction bits of the fixed-point numbers. -/
def fixBits : Nat := 320
/-- floor(ln 2 * 2^320). -/
def fixLn2 : Nat := 1480553391661173448385607439722553250922680800745876974795605978609098082859138712941075737848984
/-- floor((1 / ln 2) * 2^320). -/
def fixLog2e : Nat := 3081577904126213121686167198097690134163479766071396094403848907535455306605342191083616308484524
/-- The allowance on every side of a computed fixed-point number: each was formed by fewer than 400 operations on numbers below 16,
each off by at most one unit. -/
def fixSlack : Nat := 2 ^ 20

def fixMul (a b : Nat) : Nat := (a * b) >>> fixBits

/-- The Taylor sum of e^t for t < 1: term is t^k / k!, acc the sum so far. -/
def expSum (t : Nat) : Nat → Nat → Nat → Nat → Nat
  | 0, _, _, acc => acc
  | fuel + 1, k, term, acc => expSum t fuel (k + 1) (fixMul term t / (k + 1)) (acc + term)
/-- 2^f for a fraction f < 1, as a fixed-point number in [1, 2]. -/
def fixExp2 (f : Nat) : Nat := expSum (fixMul f fixLn2) 80 0 (2 ^ fixBits) 0

/-- The odd-power sum z + z^3/3 + z^5/5 + ... of atanh z: pow is z^(2k+1). -/
def atanhSum (zz : Nat) : Nat → Nat → Nat → Nat → Nat
  | 0, _, _, acc => acc
  | fuel + 1, k, pow, acc => atanhSum zz fuel (k + 1) (fixMul pow zz) (acc + pow / (2 * k + 1))
/-- log2 x for x = m / 2^s in [1, 2). -/
def fixLog2 (m s : Nat) : Nat :=
  let z := ((m - 2 ^ s) <<< fixBits) / (m + 2 ^ s)
  fixMul (2 * atanhSum (fixMul z z) 110 0 z 0) fixLog2e

/-- Round both ends of an enclosure [lo, hi] * 2^e, each known to be no exact value of the format; the free value of the operand
when the ends round apart. -/
def roundEnclosed (t : FloatFormat) (op : Nat) (a : Nat) (neg : Bool) (lo hi : Nat) (e : Int) : Nat × FloatFlags :=
  let x := roundFinite t .rne false 0 neg lo e false
  let y := roundFinite t .rne false 0 neg hi e false
  if x = y then x else ((Config.freeElementary op a).toNat, flagNX)

/-- 1/a (VRCP). -/
def floatRcp (a : Nat) : Nat × FloatFlags :=
  roundTo fp32Format .rne false 0 (exactDiv (.fin false 1 0) (decodeFloat fp32Format a))

/-- 1 / sqrt a (VRSQ). -/
def floatRsq (a : Nat) : Nat × FloatFlags :=
  match decodeFloat fp32Format a with
  | .nan => (fp32Format.nan, 0)
  | .inf true => (fp32Format.nan, flagNV)
  | .inf false => (0, 0)
  | .fin n m e =>
    if m = 0 then roundTo fp32Format .rne false 0 (.inf n true)
    else if n then (fp32Format.nan, flagNV)
    else
      let odd : Nat := if e % 2 = 0 then 0 else 1
      let x := m <<< odd
      let q := isqrt 130 (2 ^ 256 / x)
      roundFinite fp32Format .rne false 0 false q (-(128 + (e - odd) / 2)) (q * q * x == 2 ^ 256)

/-- 2^a (VEXP2): exact for an integer a. -/
def floatExp2 (a : Nat) : Nat × FloatFlags :=
  match decodeFloat fp32Format a with
  | .nan => (fp32Format.nan, 0)
  | .inf true => (0, 0)
  | .inf false => (fp32Format.infinity, 0)
  | .fin n m e =>
    if m = 0 then roundFinite fp32Format .rne false 0 false 1 0 true
    else if 10 ≤ e + Nat.log2 m then
      -- beyond 2^10 in magnitude: far above the largest finite value, or far below half the smallest subnormal
      roundFinite fp32Format .rne false 0 false 1 (if n then -1000 else 1000) true
    else
      -- |a| < 2^10; a in units of 2^-320 is exact, since e >= -149
      let mag := m <<< (e + fixBits).toNat
      let v : Int := if n then -(mag : Int) else mag
      let whole : Int := v.fdiv (2 ^ fixBits)
      let frac := (v.fmod (2 ^ fixBits)).toNat
      if frac = 0 then roundFinite fp32Format .rne false 0 false 1 whole true
      else
        let y := fixExp2 frac
        let lo := if y < 2 ^ fixBits + fixSlack then 2 ^ fixBits else y - fixSlack
        roundEnclosed fp32Format 0 a false lo (y + fixSlack) (whole - fixBits)

/-- log2 a (VLOG2): exact for powers of two. -/
def floatLog2 (a : Nat) : Nat × FloatFlags :=
  match decodeFloat fp32Format a with
  | .nan => (fp32Format.nan, 0)
  | .inf true => (fp32Format.nan, flagNV)
  | .inf false => (fp32Format.infinity, 0)
  | .fin n m e =>
    if m = 0 then roundTo fp32Format .rne false 0 (.inf true true)
    else if n then (fp32Format.nan, flagNV)
    else
      let s := Nat.log2 m
      let k : Int := e + s
      if m = 2 ^ s then
        if k = 0 then (0, 0) else roundFinite fp32Format .rne false 0 (decide (k < 0)) k.natAbs 0 true
      else
        let v : Int := k * 2 ^ fixBits + fixLog2 m s
        roundEnclosed fp32Format 1 a (decide (v < 0)) (v.natAbs - fixSlack) (v.natAbs + fixSlack) (-fixBits)

/-- tanh a (VTANH). Below 2^-40 in magnitude, between a - a^3/3 and a - a^3/3 + 2 a^5/15; above 2^4, between 1 - 2^-40 and 1;
between, (e^2a - 1) / (e^2a + 1). -/
def floatTanh (a : Nat) : Nat × FloatFlags :=
  match decodeFloat fp32Format a with
  | .nan => (fp32Format.nan, 0)
  | .inf n => roundFinite fp32Format .rne false 0 n 1 0 true
  | .fin n m e =>
    if m = 0 then (fp32Format.signed n 0, 0)
    else if 4 ≤ e + Nat.log2 m then roundEnclosed fp32Format 2 a n (2 ^ 100 - 2 ^ 60) (2 ^ 100 - 1) (-100)
    else if e + Nat.log2 m < -40 then
      -- units of 2^(e - 400); e is at least -149 and at most -40
      let cube := (scaleNat (m * m * m) (400 + 2 * e)).1 / 3
      let gap := (scaleNat (m * m * m * m * m) (400 + 4 * e)).1 + 2
      roundEnclosed fp32Format 2 a n (m <<< 400 - cube - 2) (m <<< 400 - cube + gap) (e - 400)
    else
      let mag := m <<< (e + 1 + fixBits).toNat
      let y := fixMul mag fixLog2e
      let whole := y >>> fixBits
      let ex := fixExp2 (y % 2 ^ fixBits) <<< whole
      -- ex is off by at most 2^40 * fixSlack units
      let slack := 2 ^ 40 * fixSlack
      let one := 2 ^ fixBits
      let lo := ((ex - slack - one) <<< fixBits) / (ex + slack + one)
      let hi := ((ex + slack - one) <<< fixBits) / (ex - slack + one) + 1
      roundEnclosed fp32Format 2 a n lo hi (-fixBits)

/-- The five forms of R145 but VSQRT by SUB, on an FP32 operand. -/
def elementaryFp32 (sub : Nat) (a : Nat) : Nat × FloatFlags :=
  match sub with
  | 0 => floatRcp a
  | 1 => floatRsq a
  | 3 => floatExp2 a
  | 4 => floatLog2 a
  | _ => floatTanh a

/-- The same for BF16 and FP16: widened exactly to FP32, formed there, and rounded once more (R145). NX is raised whenever the value
returned differs from the exact value; flags of the FP32 result stand where the second rounding keeps its kind. -/
def elementary (t : FloatFormat) (sub : Nat) (a : Nat) : Nat × FloatFlags :=
  if t = fp32Format then elementaryFp32 sub a
  else
    let w := (convertFloat t fp32Format .rne false 0 a).1
    let y := elementaryFp32 sub w
    let z := convertFloat fp32Format t .rne false 0 y.1
    (z.1, y.2 ||| z.2)

end Sys2Proof.Machine
end

