-- ==== Sys2Proof/Machine/Lanes.lean ====
section
/-! DEFINITION. Elements of v registers (spec/07_vector.md R137, R138) and the block encoding of E2M1X (spec/04_numbers.md R74, R84). -/

namespace Sys2Proof.Machine

/-- The vector commands (OP 0x60 to 0x67). -/
inductive VecOp
  | vadd | vsub | vmul | vfma | vfms | vmin | vmax | vabs | vneg
  | vrcp | vrsq | vsqrt | vexp2 | vlog2 | vtanh
  | viadd | visub | vimul | vand | vor | vxor | vshl | vshr | vshra
  | vcmp | vsel | mop | mpop | vmov | vbcast | vext | vperm | vshuf | vslide | vzip
  | vred | vscan | vdot | vcvt | vqnt | vdq | vlut | vmac | vclamp
  deriving DecidableEq, Repr

/-- Bits [w * i + w - 1 : w * i] of a number. -/
def laneOf (w : Nat) (x : Nat) (i : Nat) : Nat := x / 2 ^ (w * i) % 2 ^ w

/-- The number whose lanes 0 to n - 1 are f 0 to f (n - 1). -/
def packLanes (w : Nat) (f : Nat → Nat) : Nat → Nat
  | 0 => 0
  | n + 1 => packLanes w f n + (f n % 2 ^ w) * 2 ^ (w * n)

/-- The union of the flags of f 0 to f (n - 1). -/
def orFlags (f : Nat → FloatFlags) : Nat → FloatFlags
  | 0 => 0
  | n + 1 => orFlags f n ||| f n

/-- What a vector command reads when it starts (R142): its registers and the captures of its enqueue (R140). -/
structure VecIn where
  vd : VecBits
  va : VecBits
  vb : VecBits
  /-- m[MK]. -/
  msk : LineBits
  /-- m[VD], m[VA] and m[VB], where the fields name m registers. -/
  md : LineBits
  ma : LineBits
  mb : LineBits
  /-- G(GS) at enqueue, a scalar operand or the seed. -/
  scalar : Word64
  luta : Word64
  lutb : Word64
  deriving DecidableEq, Repr

/-- What a vector command writes: a v register, VQNT's second one, an m register, an f result, and VFLAGS bits. -/
structure VecOut where
  vd : Option VecBits := none
  vb : Option VecBits := none
  md : Option LineBits := none
  fd : Option Word64 := none
  flags : FloatFlags := 0
  deriving DecidableEq, Repr

/-- Is element i of e bytes active (R138)? -/
def laneActive (f : FormV) (x : VecIn) (e i : Nat) : Bool := !f.me || x.msk.getLsbD (e * i)

/-- The draw of R82 for element i's n-th rounding; 0 under the other modes, which do not use it. -/
def laneDraw (f : FormV) (x : VecIn) (i n : Nat) : Nat := if f.rm = .sr then (srDraw x.scalar i n).toNat else 0

/-- A destination register written element by element: lanes for which write is true are candidates, of which the inactive ones keep
their value or become zero by MZ; the others keep their value. -/
def writeLanes (f : FormV) (x : VecIn) (old : VecBits) (e n : Nat) (write : Nat → Bool) (g : Nat → Nat × FloatFlags) : VecOut :=
  let w := 8 * e
  let o := old.toNat
  { vd := some (BitVec.ofNat 4096 (packLanes w (fun i =>
      if write i then (if laneActive f x e i then (g i).1 else if f.mz then 0 else laneOf w o i) else laneOf w o i) n))
    flags := orFlags (fun i => if write i && laneActive f x e i then (g i).2 else 0) n }

/-- Every element of the destination written. -/
def mapLanes (f : FormV) (x : VecIn) (g : Nat → Nat × FloatFlags) : VecOut :=
  writeLanes f x x.vd (etBytes f.et) (etCount f.et) (fun _ => true) g

/-- Element i of a register under the instruction's type. -/
def lane (f : FormV) (r : VecBits) (i : Nat) : Nat := laneOf (8 * etBytes f.et) r.toNat i
/-- Element i as a float value. -/
def laneVal (f : FormV) (r : VecBits) (i : Nat) : FloatVal := decodeFloat (formatOf f.et) (lane f r i)
/-- A w-bit pattern read as two's complement. -/
def toSigned (w n : Nat) : Int := if n < 2 ^ (w - 1) then n else (n : Int) - 2 ^ w
/-- An integer as a w-bit pattern. -/
def ofSigned (w : Nat) (v : Int) : Nat := (v.emod (2 ^ w)).toNat
/-- Element i read signed. -/
def laneInt (f : FormV) (r : VecBits) (i : Nat) : Int := toSigned (8 * etBytes f.et) (lane f r i)

/-! ### E2M1X (R74, R84) -/

/-- Twice the magnitude of codes 0 to 7. -/
def e2Halves (c : Nat) : Nat :=
  match c with
  | 0 => 0
  | 1 => 1
  | 2 => 2
  | 3 => 3
  | 4 => 4
  | 5 => 6
  | 6 => 8
  | _ => 12

/-- The value of an element with the block's scale byte and extra-value byte (R74). -/
def e2Value (code scale extra : Nat) : FloatVal :=
  if scale = 255 then .nan
  else if code = 8 then
    match decodeFloat e4m3Format extra with
    | .fin n m e => .fin n m (e + scale - 127)
    | v => v
  else .fin (decide (8 ≤ code)) (e2Halves (code % 8)) ((scale : Int) - 128)

/-- A value in units of 2^-320; every value a block takes is a multiple (FP32 products reach down to 2^-298). -/
def onGrid : FloatVal → Int
  | .fin n m e => let v : Int := (scaleNat m (e + 320)).1; if n then -v else v
  | _ => 0

/-- Step 2 of R84: an infinity becomes the largest FP32 magnitude. -/
def blockClamp : FloatVal → FloatVal
  | .inf n => .fin n (2 ^ 24 - 1) 104
  | v => v

/-- The first value of greatest magnitude of a list, at least as great as best. -/
def blockGreatest (best : FloatVal) : List FloatVal → FloatVal
  | [] => best
  | v :: vs => blockGreatest (if (onGrid best).natAbs < (onGrid v).natAbs then v else best) vs

/-- The greatest candidate not above x and the least not below, with their codes. -/
def candBelow (x : Int) : List (Int × Nat) → Option (Int × Nat)
  | [] => none
  | c :: cs => match candBelow x cs with
    | none => if c.1 ≤ x then some c else none
    | some b => if c.1 ≤ x ∧ b.1 < c.1 then some c else some b
def candAbove (x : Int) : List (Int × Nat) → Option (Int × Nat)
  | [] => none
  | c :: cs => match candAbove x cs with
    | none => if x ≤ c.1 then some c else none
    | some b => if x ≤ c.1 ∧ c.1 < b.1 then some c else some b

/-- The code of one value among the candidates (R84 step 6); r is the draw of R82. -/
def blockCode (rm : Rm) (r : Nat) (cands : List (Int × Nat)) (x : Int) : Nat × FloatFlags :=
  match candBelow x cands, candAbove x cands with
  | some lo, some hi =>
    if lo.1 = hi.1 then (lo.2, 0)
    else
      let near := if 0 < x then lo else hi
      let far := if 0 < x then hi else lo
      let pick := match rm with
        | .rne =>
          let dl := x - lo.1
          let dh := hi.1 - x
          if dl < dh then lo
          else if dh < dl then hi
          else if lo.2 % 2 = 1 then hi
          else if hi.2 % 2 = 1 then lo
          else if lo.2 = 8 then hi else lo
        | .rtz => near
        | .rdn => lo
        | .rup => hi
        | .sr => if r < ((x - near.1).natAbs <<< 32) / (far.1 - near.1).natAbs then far else near
      (pick.2, flagNX)
  | some lo, none => (lo.2, flagNX ||| flagSAT)
  | none, some hi => (hi.2, flagNX ||| flagSAT)
  | none, none => (0, 0)

/-- A coded block: scale byte, extra-value byte, codes in order, flags. -/
structure Block where
  scale : Nat
  extra : Nat
  codes : List Nat
  flags : FloatFlags
  deriving DecidableEq, Repr

/-- The candidate set of a block of scale byte s and extra value byte b (R84 step 6). -/
def blockCandidates (s b : Nat) : List (Int × Nat) :=
  let fixed := [0, 1, 2, 3, 4, 5, 6, 7, 9, 10, 11, 12, 13, 14, 15].map fun c => (onGrid (e2Value c s b), c)
  let x := onGrid (e2Value 8 s b)
  if fixed.any fun c => c.1 == x then fixed else fixed ++ [(x, 8)]

/-- The block encoding of R84. draw j is the draw of element j. -/
def blockEncode (rm : Rm) (sat : Bool) (draw : Nat → Nat) (vals : List FloatVal) : Block :=
  if vals.any FloatVal.isNan || (!sat && vals.any FloatVal.isInf) then
    { scale := 255, extra := 0, codes := vals.map fun _ => 0, flags := flagNV }
  else
    let clamped := vals.map blockClamp
    let f0 := flagIf (vals.any FloatVal.isInf) flagSAT
    let w := blockGreatest (.fin false 0 0) clamped
    match w with
    | .fin n m e =>
      if m = 0 then { scale := 127, extra := 0, codes := vals.map fun _ => 0, flags := f0 }
      else
        let want : Int := e + Nat.log2 m + 125
        let s : Nat := if want < 0 then 0 else if 254 < want then 254 else want.toNat
        let x := (roundFinite e4m3Format .rne true 0 n m (e + 127 - s) true).1
        let cands := blockCandidates s x
        let coded := clamped.zipIdx.map fun p => blockCode rm (draw p.2) cands (onGrid p.1)
        { scale := s, extra := x, codes := coded.map Prod.fst, flags := coded.foldl (fun a c => a ||| c.2) f0 }
    | _ => { scale := 255, extra := 0, codes := vals.map fun _ => 0, flags := flagNV }

end Sys2Proof.Machine
end

