-- ==== Sys2Proof/Machine/LaneOps.lean ====
section
/-! DEFINITION. What each vector command computes from the registers it reads (spec/07_vector.md R144-R159): one function per family,
over the elements of Lanes. -/

namespace Sys2Proof.Machine

/-! ### Float arithmetic and transcendentals (R144, R145) -/

/-- One rounding of an exact element result under the instruction's mode. -/
def laneRound (f : FormV) (x : VecIn) (i : Nat) (v : ExactVal) : Nat × FloatFlags :=
  roundTo (formatOf f.et) f.rm false (laneDraw f x i 0) v

def computeVadd (f : FormV) (x : VecIn) : VecOut :=
  mapLanes f x fun i => laneRound f x i (exactAdd f.rm (laneVal f x.va i) (laneVal f x.vb i))
def computeVsub (f : FormV) (x : VecIn) : VecOut :=
  mapLanes f x fun i => laneRound f x i (exactAdd f.rm (laneVal f x.va i) (laneVal f x.vb i).negate)
def computeVmul (f : FormV) (x : VecIn) : VecOut :=
  mapLanes f x fun i => laneRound f x i (exactMul (laneVal f x.va i) (laneVal f x.vb i))
def computeVfma (f : FormV) (x : VecIn) : VecOut :=
  mapLanes f x fun i => laneRound f x i (exactFma f.rm (laneVal f x.va i) (laneVal f x.vb i) (laneVal f x.vd i))
def computeVfms (f : FormV) (x : VecIn) : VecOut :=
  mapLanes f x fun i => laneRound f x i (exactFma f.rm (laneVal f x.va i) (laneVal f x.vb i) (laneVal f x.vd i).negate)
def computeVminmax (wantMax : Bool) (f : FormV) (x : VecIn) : VecOut :=
  mapLanes f x fun i => (floatMinMax (formatOf f.et) wantMax (lane f x.va i) (lane f x.vb i), 0)
/-- VABS and VNEG: the sign bit cleared or inverted; a NaN gives the canonical NaN. -/
def computeVsign (flip : Bool) (f : FormV) (x : VecIn) : VecOut :=
  let t := formatOf f.et
  mapLanes f x fun i =>
    let v := laneVal f x.va i
    (if v.isNan then t.nan else t.signed (flip && !v.isNeg) (lane f x.va i % 2 ^ (t.ebits + t.mbits)), 0)
def computeVsqrt (f : FormV) (x : VecIn) : VecOut := mapLanes f x fun i => laneRound f x i (exactSqrt (laneVal f x.va i))
/-- VRCP, VRSQ, VEXP2, VLOG2, VTANH by SUB (R145). -/
def computeElementary (sub : Nat) (f : FormV) (x : VecIn) : VecOut :=
  mapLanes f x fun i => elementary (formatOf f.et) sub (lane f x.va i)

/-! ### Integer arithmetic and logic (R146) -/

/-- VIADD, VISUB and VIMUL: the exact result of op on signed or unsigned readings, wrapped, or clamped with SAT. -/
def computeVarith (op : Int → Int → Int) (f : FormV) (x : VecIn) : VecOut :=
  let w := 8 * etBytes f.et
  let uns := f.imm == 1
  mapLanes f x fun i =>
    let a : Int := if uns then lane f x.va i else laneInt f x.va i
    let b : Int := if uns then lane f x.vb i else laneInt f x.vb i
    let v := op a b
    let lo : Int := if uns then 0 else -(2 ^ (w - 1))
    let hi : Int := if uns then 2 ^ w - 1 else 2 ^ (w - 1) - 1
    if f.sat then (if v < lo then (ofSigned w lo, flagSAT) else if hi < v then (ofSigned w hi, flagSAT) else (ofSigned w v, 0))
    else (ofSigned w v, 0)
def computeVlogic (op : Nat → Nat → Nat) (f : FormV) (x : VecIn) : VecOut :=
  mapLanes f x fun i => (op (lane f x.va i) (lane f x.vb i), 0)
/-- The count of a shift: IMM[4:0] mod w, or the element of VB mod w. -/
def shiftCount (f : FormV) (x : VecIn) (i : Nat) : Nat :=
  (if f.imm.getLsbD 5 then lane f x.vb i else (f.imm.extractLsb' 0 5).toNat) % (8 * etBytes f.et)
def computeVshl (f : FormV) (x : VecIn) : VecOut := mapLanes f x fun i => (lane f x.va i * 2 ^ shiftCount f x i, 0)
def computeVshr (f : FormV) (x : VecIn) : VecOut := mapLanes f x fun i => (lane f x.va i / 2 ^ shiftCount f x i, 0)
def computeVshra (f : FormV) (x : VecIn) : VecOut :=
  mapLanes f x fun i => (ofSigned (8 * etBytes f.et) ((laneInt f x.va i).fdiv (2 ^ shiftCount f x i)), 0)

/-! ### Compare, select and masks (R147, R148) -/

/-- An integer comparison by the CMP codes (R53), on w-bit patterns. -/
def intCompare (code w a b : Nat) : Bool :=
  let sa := toSigned w a
  let sb := toSigned w b
  match code with
  | 0 => a == b
  | 1 => a != b
  | 2 => decide (sa < sb)
  | 3 => decide (sb ≤ sa)
  | 4 => decide (a < b)
  | 5 => decide (b ≤ a)
  | 6 => decide (sa ≤ sb)
  | 7 => decide (sb < sa)
  | 8 => decide (a ≤ b)
  | _ => decide (b < a)

/-- VCMP: every mask bit of an element receives its result (R147). -/
def computeVcmp (f : FormV) (x : VecIn) : VecOut :=
  let e := etBytes f.et
  let n := etCount f.et
  let cc := (f.imm.extractLsb' 0 4).toNat
  let res := fun i : Nat =>
    if etFloat f.et then floatCompare cc (laneVal f x.va i) (laneVal f x.vb i)
    else (intCompare cc (8 * e) (lane f x.va i) (lane f x.vb i), (0 : FloatFlags))
  let ones := 2 ^ e - 1
  { md := some (BitVec.ofNat 512 (packLanes e (fun i =>
      if laneActive f x e i then (if (res i).1 then ones else 0) else if f.mz then 0 else laneOf e x.md.toNat i) n))
    flags := orFlags (fun i => if laneActive f x e i then (res i).2 else 0) n }
/-- VSEL: the mask selects (R148). -/
def computeVsel (f : FormV) (x : VecIn) : VecOut :=
  let e := etBytes f.et
  { vd := some (BitVec.ofNat 4096 (packLanes (8 * e) (fun i =>
      if x.msk.getLsbD (e * i) then lane f x.va i else lane f x.vb i) (etCount f.et))) }
/-- KOP and MOP operations (R53). -/
def boolOp (code : Nat) (a b : Bool) : Bool :=
  match code with
  | 0 => a && b
  | 1 => a || b
  | 2 => a ^^ b
  | 3 => a && !b
  | 4 => a || !b
  | _ => !(a ^^ b)
def computeMop (f : FormV) (x : VecIn) : VecOut :=
  let r : LineBits := match f.imm.toNat with
    | 0 => x.ma &&& x.mb
    | 1 => x.ma ||| x.mb
    | 2 => x.ma ^^^ x.mb
    | 3 => x.ma &&& ~~~x.mb
    | 4 => x.ma ||| ~~~x.mb
    | _ => ~~~(x.ma ^^^ x.mb)
  { md := some r }
/-- How many of f 0 to f (n - 1) hold. -/
def countLanes (p : Nat → Bool) : Nat → Nat
  | 0 => 0
  | n + 1 => countLanes p n + (if p n then 1 else 0)
/-- The least i < n with p i, or n. -/
def firstLane (p : Nat → Bool) : Nat → Nat → Nat
  | 0, i => i
  | fuel + 1, i => if p i then i else firstLane p fuel (i + 1)
def computeMpop (f : FormV) (x : VecIn) : VecOut :=
  let e := etBytes f.et
  let p := fun i : Nat => x.ma.getLsbD (e * i)
  { fd := some (BitVec.ofNat 64 (if f.imm == 0 then countLanes p (etCount f.et) else firstLane p (etCount f.et) 0)) }

/-! ### Moving and rearranging (R149, R150) -/

def computeVmov (f : FormV) (x : VecIn) : VecOut := mapLanes f x fun i => (lane f x.va i, 0)
def computeVbcast (f : FormV) (x : VecIn) : VecOut :=
  let v := if f.imm == 0 then x.scalar.toNat % 2 ^ (8 * etBytes f.et) else lane f x.va (x.scalar.toNat % etCount f.et)
  mapLanes f x fun _ => (v, 0)
def computeVext (f : FormV) (x : VecIn) : VecOut :=
  { fd := some (BitVec.ofNat 64 (lane f x.va (x.scalar.toNat % etCount f.et))) }
def computeVperm (f : FormV) (x : VecIn) : VecOut :=
  mapLanes f x fun i =>
    (if etBytes f.et = 1 then lane f x.va (i / 256 * 256 + lane f x.vb i) else lane f x.va (lane f x.vb i % etCount f.et), 0)
def computeVshuf (f : FormV) (x : VecIn) : VecOut := mapLanes f x fun i => (lane f x.va (i ^^^ f.imm.toNat), 0)
def computeVslide (f : FormV) (x : VecIn) : VecOut :=
  let n := etCount f.et
  mapLanes f x fun i =>
    let j := i + f.imm.toNat
    (if j < n then lane f x.va j else lane f x.vb (j - n), 0)
def computeVzip (f : FormV) (x : VecIn) : VecOut :=
  let n := etCount f.et
  let both := fun j : Nat => if j < n then lane f x.va j else lane f x.vb (j - n)
  mapLanes f x fun i =>
    (match f.imm.toNat with
      | 0 => if i % 2 = 0 then lane f x.va (i / 2) else lane f x.vb (i / 2)
      | 1 => if i % 2 = 0 then lane f x.va (n / 2 + i / 2) else lane f x.vb (n / 2 + i / 2)
      | 2 => both (2 * i)
      | _ => both (2 * i + 1), 0)

/-! ### Reductions (R151-R153) -/

/-- Identity of a reduction (R59), as 32 bits. -/
def reduceIdentity (isFloat uns : Bool) (op : Nat) : Nat :=
  match op with
  | 0 => if isFloat then 0x80000000 else 0
  | 1 => if isFloat then 0xFF800000 else if uns then 0 else 0x80000000
  | _ => if isFloat then 0x7F800000 else if uns then 0xFFFFFFFF else 0x7FFFFFFF
/-- Op of a reduction (R59), on 32-bit patterns. -/
def reduceOp (isFloat uns : Bool) (op : Nat) (a b : Nat) : Nat × FloatFlags :=
  if isFloat then
    if op = 0 then roundTo fp32Format .rne false 0 (exactAdd .rne (decodeFloat fp32Format a) (decodeFloat fp32Format b))
    else (floatMinMax fp32Format (op == 1) a b, 0)
  else if op = 0 then ((a + b) % 2 ^ 32, 0)
  else
    let less := if uns then decide (a < b) else decide (toSigned 32 a < toSigned 32 b)
    (if less == (op == 1) then b else a, 0)
/-- Widen (R59): an element as 32 bits. -/
def widenLane (f : FormV) (r : VecBits) (i : Nat) : Nat :=
  if etFloat f.et then (convertFloat (formatOf f.et) fp32Format .rne false 0 (lane f r i)).1 else ofSigned 32 (laneInt f r i)

/-- One level of the tree: neighbours combined. -/
def reducePairs (op : Nat → Nat → Nat × FloatFlags) : List Nat → List Nat × FloatFlags
  | a :: b :: rest =>
    let r := reducePairs op rest
    let v := op a b
    (v.1 :: r.1, v.2 ||| r.2)
  | l => (l, 0)
/-- The tree of R151 over a list of 2^levels values. -/
def reduceTree (op : Nat → Nat → Nat × FloatFlags) : Nat → List Nat → FloatFlags → Nat × FloatFlags
  | 0, l, fl => (l.headD 0, fl)
  | levels + 1, l, fl =>
    let r := reducePairs op l
    reduceTree op levels r.1 (fl ||| r.2)

/-- The tree sum of a list as an f result: FP32 bits zero-extended, integers sign-extended (R151). -/
def reduceResult (isFloat uns : Bool) (op : Nat) (l : List Nat) (fl : FloatFlags) : VecOut :=
  let r := reduceTree (reduceOp isFloat uns op) (Nat.log2 l.length) l fl
  { fd := some (if isFloat then BitVec.ofNat 64 r.1 else BitVec.ofInt 64 (toSigned 32 r.1)), flags := r.2 }

def computeVred (f : FormV) (x : VecIn) : VecOut :=
  let op := (f.imm.extractLsb' 0 2).toNat
  let uns := f.imm.getLsbD 2
  let fl := etFloat f.et
  reduceResult fl uns op ((List.range (etCount f.et)).map fun i =>
    if laneActive f x (etBytes f.et) i then widenLane f x.va i else reduceIdentity fl uns op) 0

/-- The running total of VSCAN through elements i, i + 1, ...: for each, its result and flags. -/
def scanFrom (f : FormV) (x : VecIn) (step : Nat → Nat → Nat × FloatFlags) : Nat → Nat → Nat → List (Nat × FloatFlags)
  | 0, _, _ => []
  | fuel + 1, i, t =>
    if laneActive f x (etBytes f.et) i then
      let y := step t (widenLane f x.va i)
      let out := if etFloat f.et then convertFloat fp32Format (formatOf f.et) .rne false 0 y.1 else (y.1, 0)
      (out.1, y.2 ||| out.2) :: scanFrom f x step fuel (i + 1) y.1
    else (0, 0) :: scanFrom f x step fuel (i + 1) t
def computeVscan (f : FormV) (x : VecIn) : VecOut :=
  let op := (f.imm.extractLsb' 0 2).toNat
  let uns := f.imm.getLsbD 2
  let fl := etFloat f.et
  let out := scanFrom f x (reduceOp fl uns op) (etCount f.et) 0 (reduceIdentity fl uns op)
  mapLanes f x fun i => out.getD i (0, 0)

def computeVdot (f : FormV) (x : VecIn) : VecOut :=
  let fl := etFloat f.et
  let prods := (List.range (etCount f.et)).map fun i =>
    if laneActive f x (etBytes f.et) i then
      if fl then roundTo fp32Format .rne false 0 (exactMul (laneVal f x.va i) (laneVal f x.vb i))
      else (ofSigned 32 (laneInt f x.va i * laneInt f x.vb i), 0)
    else (reduceIdentity fl false 0, 0)
  reduceResult fl false 0 (prods.map Prod.fst) (prods.foldl (fun a p => a ||| p.2) 0)

/-! ### Conversions (R83, R154-R157) -/

/-- Is the type one of the five float formats? -/
def etAnyFloat (e : Et) : Bool := etFloat e || etNarrow e

/-- One element converted (R83). -/
def convertLane (src dst : Et) (rm : Rm) (sat : Bool) (r : Nat) (bits : Nat) : Nat × FloatFlags :=
  if etAnyFloat src then
    if etAnyFloat dst then convertFloat (formatOf src) (formatOf dst) rm sat r bits
    else
      let w := 8 * etBytes dst
      let y := floatToInt rm r (-(2 ^ (w - 1))) (2 ^ (w - 1) - 1) (decodeFloat (formatOf src) bits)
      (ofSigned w y.1, y.2)
  else
    let v := toSigned (8 * etBytes src) bits
    if etAnyFloat dst then roundTo (formatOf dst) rm false r (intVal v).exactly
    else
      let w := 8 * etBytes dst
      if sat && decide (v < -(2 ^ (w - 1))) then (2 ^ (w - 1), flagSAT)
      else if sat && decide (2 ^ (w - 1) - 1 < v) then (2 ^ (w - 1) - 1, flagSAT)
      else (ofSigned w v, 0)

def computeVcvt (f : FormV) (x : VecIn) : VecOut :=
  let e1 := etBytes f.et
  let e2 := etBytes f.et2
  let p := f.imm.toNat
  if e2 < e1 then
    let n := etCount f.et
    writeLanes f x x.vd e2 (etCount f.et2) (fun j => j / n == p) fun j =>
      convertLane f.et f.et2 f.rm f.sat (laneDraw f x (j % n) 0) (lane f x.va (j % n))
  else
    let n := etCount f.et2
    writeLanes f x x.vd e2 n (fun _ => true) fun i =>
      convertLane f.et f.et2 f.rm f.sat (laneDraw f x i 0) (lane f x.va (p * n + i))

/-- A register with bytes from a given one on replaced. -/
def spliceBytes (r : VecBits) (start : Nat) (bytes : List Nat) : VecBits :=
  let old := r.toNat
  BitVec.ofNat 4096 (packLanes 8 (fun i => if start ≤ i ∧ i < start + bytes.length then bytes.getD (i - start) 0 else laneOf 8 old i) 512)
/-- Codes packed two to a byte (R75). -/
def packCodes : List Nat → List Nat
  | a :: b :: rest => (a + 16 * b) :: packCodes rest
  | [a] => [a]
  | [] => []

/-- VQNT (R155): VA's 128 elements into codes in VD and scales and extra values in VB. -/
def computeVqnt (f : FormV) (x : VecIn) : VecOut :=
  let len := 16 * 2 ^ (f.imm.extractLsb' 0 2).toNat
  let p := (f.imm.extractLsb' 2 3).toNat
  let nb := 128 / len
  let blocks := (List.range nb).map fun b =>
    blockEncode f.rm f.sat (fun j => laneDraw f x (b * len + j) 0)
      ((List.range len).map fun j => decodeFloat fp32Format (laneOf 32 x.va.toNat (b * len + j)))
  { vd := some (spliceBytes x.vd (64 * p) (packCodes (blocks.flatMap Block.codes)))
    vb := some (spliceBytes (spliceBytes x.vb (p * nb) (blocks.map Block.scale)) (256 + p * nb) (blocks.map Block.extra))
    flags := blocks.foldl (fun a b => a ||| b.flags) 0 }

/-- VDQ (R156). -/
def computeVdq (f : FormV) (x : VecIn) : VecOut :=
  let len := 16 * 2 ^ (f.imm.extractLsb' 0 2).toNat
  let p := (f.imm.extractLsb' 2 3).toNat
  let nb := 128 / len
  writeLanes f x x.vd 4 128 (fun _ => true) fun i =>
    let code := laneOf 4 x.va.toNat (128 * p + i)
    let s := laneOf 8 x.vb.toNat (p * nb + i / len)
    let b := laneOf 8 x.vb.toNat (256 + p * nb + i / len)
    roundTo fp32Format f.rm false (laneDraw f x i 0) (e2Value code s b).exactly

/-- The INT8 entry of a LUT4 code (R77), as a byte. -/
def lutEntry (luta lutb : Word64) (code : Nat) : Nat :=
  if code < 8 then laneOf 8 luta.toNat code else laneOf 8 lutb.toNat (code - 8)
def computeVlut (f : FormV) (x : VecIn) : VecOut :=
  writeLanes f x x.vd 1 512 (fun _ => true) fun i => (lutEntry x.luta x.lutb (laneOf 4 x.va.toNat (512 * f.imm.toNat + i)), 0)

/-! ### Accumulation and clamping (R158, R159) -/

def computeVmac (f : FormV) (x : VecIn) : VecOut :=
  let p := f.imm.toNat
  writeLanes f x x.vd 4 128 (fun _ => true) fun i =>
    if etFloat f.et then
      roundTo fp32Format f.rm false (laneDraw f x i 0)
        (exactFma f.rm (laneVal f x.va (128 * p + i)) (laneVal f x.vb (128 * p + i)) (decodeFloat fp32Format (laneOf 32 x.vd.toNat i)))
    else
      let v := toSigned 32 (laneOf 32 x.vd.toNat i) + laneInt f x.va (128 * p + i) * laneInt f x.vb (128 * p + i)
      if f.sat && decide (v < -(2 ^ 31)) then (2 ^ 31, flagSAT)
      else if f.sat && decide (2 ^ 31 - 1 < v) then (2 ^ 31 - 1, flagSAT)
      else (ofSigned 32 v, 0)

/-- VCLAMP (R159). A lane's value changes when its bits do: -0 replaced by a bound of +0, or +0 by -0, raises SAT (assumption 85). -/
def computeVclamp (f : FormV) (x : VecIn) : VecOut :=
  let w := 8 * etBytes f.et
  let lo := laneOf w x.scalar.toNat 0
  let hi := laneOf w x.scalar.toNat 1
  mapLanes f x fun i =>
    let a := lane f x.va i
    if etFloat f.et then
      let t := formatOf f.et
      if (decodeFloat t a).isNan then (t.nan, 0)
      else
        let y := floatMinMax t false (floatMinMax t true a lo) hi
        (y, flagIf (y != a) flagSAT)
    else
      let s := toSigned w a
      let m := if s < toSigned w lo then toSigned w lo else s
      let y := if toSigned w hi < m then toSigned w hi else m
      (ofSigned w y, flagIf (y != s) flagSAT)

/-- What each command computes. -/
def computeVector (op : VecOp) (f : FormV) (x : VecIn) : VecOut :=
  match op with
  | .vadd => computeVadd f x
  | .vsub => computeVsub f x
  | .vmul => computeVmul f x
  | .vfma => computeVfma f x
  | .vfms => computeVfms f x
  | .vmin => computeVminmax false f x
  | .vmax => computeVminmax true f x
  | .vabs => computeVsign false f x
  | .vneg => computeVsign true f x
  | .vrcp => computeElementary 0 f x
  | .vrsq => computeElementary 1 f x
  | .vsqrt => computeVsqrt f x
  | .vexp2 => computeElementary 3 f x
  | .vlog2 => computeElementary 4 f x
  | .vtanh => computeElementary 5 f x
  | .viadd => computeVarith (· + ·) f x
  | .visub => computeVarith (· - ·) f x
  | .vimul => computeVarith (· * ·) f x
  | .vand => computeVlogic (· &&& ·) f x
  | .vor => computeVlogic (· ||| ·) f x
  | .vxor => computeVlogic (· ^^^ ·) f x
  | .vshl => computeVshl f x
  | .vshr => computeVshr f x
  | .vshra => computeVshra f x
  | .vcmp => computeVcmp f x
  | .vsel => computeVsel f x
  | .mop => computeMop f x
  | .mpop => computeMpop f x
  | .vmov => computeVmov f x
  | .vbcast => computeVbcast f x
  | .vext => computeVext f x
  | .vperm => computeVperm f x
  | .vshuf => computeVshuf f x
  | .vslide => computeVslide f x
  | .vzip => computeVzip f x
  | .vred => computeVred f x
  | .vscan => computeVscan f x
  | .vdot => computeVdot f x
  | .vcvt => computeVcvt f x
  | .vqnt => computeVqnt f x
  | .vdq => computeVdq f x
  | .vlut => computeVlut f x
  | .vmac => computeVmac f x
  | .vclamp => computeVclamp f x

end Sys2Proof.Machine
end

