-- ==== Sys2Proof/Decode.lean ====
section
/-! DEFINITION. Decoding of one 96-bit slot (spec/02_encoding.md R40-R57) and, after it, the encoder from the same tables.
Decoding is total and rejects by name: every rejection is ILLEGAL_OP when a strand executes the slot (R57). -/

namespace Sys2Proof

/-- Why a slot value is not an instruction (R57). -/
inductive Illegal
  /-- OP or SUB unassigned. -/
  | noOpcode
  /-- GUARD 0b1000. -/
  | never
  /-- A reserved field that is not zero. -/
  | reservedField
  /-- A reserved code of an enumerated field. -/
  | reservedCode
  /-- A field the instruction does not use that is not zero, or a value its entry does not permit. -/
  | unusedField
  deriving DecidableEq, Repr

/-- w bits of a payload from bit n up. -/
abbrev fieldOf (p : BitVec 78) (n w : Nat) : BitVec w := p.extractLsb' n w

/-! ### Code fields (R44, R46, R47, R49, R50, R53, R54) -/

def codeOk {α : Type} (o : Option α) : Except Illegal α :=
  match o with
  | some a => .ok a
  | none => .error .reservedCode

def Width.ofCode : BitVec 2 → Width
  | 0 => .w64
  | 1 => .w32
  | 2 => .w16
  | _ => .w8
def Width.code : Width → BitVec 2
  | .w64 => 0
  | .w32 => 1
  | .w16 => 2
  | .w8 => 3
def Rm.ofCode (c : BitVec 3) : Option Rm :=
  match c.toNat with
  | 0 => some .rne
  | 1 => some .rtz
  | 2 => some .rdn
  | 3 => some .rup
  | 4 => some .sr
  | _ => none
def Rm.code : Rm → BitVec 3
  | .rne => 0
  | .rtz => 1
  | .rdn => 2
  | .rup => 3
  | .sr => 4
def Et.ofCode (c : BitVec 4) : Option Et :=
  match c.toNat with
  | 0 => some .fp32
  | 1 => some .bf16
  | 2 => some .fp16
  | 3 => some .e4m3
  | 4 => some .e5m2
  | 5 => some .e2m1x
  | 6 => some .int8
  | 7 => some .int32
  | 8 => some .lut4
  | _ => none
def Et.code : Et → BitVec 4
  | .fp32 => 0
  | .bf16 => 1
  | .fp16 => 2
  | .e4m3 => 3
  | .e5m2 => 4
  | .e2m1x => 5
  | .int8 => 6
  | .int32 => 7
  | .lut4 => 8
def Sz.ofCode (c : BitVec 3) : Option Sz :=
  match c.toNat with
  | 0 => some .b
  | 1 => some .h
  | 2 => some .w
  | 3 => some .d
  | 4 => some .q
  | _ => none
def Sz.code : Sz → BitVec 3
  | .b => 0
  | .h => 1
  | .w => 2
  | .d => 3
  | .q => 4
def Ord.ofCode : BitVec 2 → Ord
  | 0 => .plain
  | 1 => .acq
  | 2 => .rel
  | _ => .ar
def Ord.code : Ord → BitVec 2
  | .plain => 0
  | .acq => 1
  | .rel => 2
  | .ar => 3
def Scp.ofCode (c : BitVec 3) : Option Scp :=
  match c.toNat with
  | 0 => some .core
  | 1 => some .clu
  | 2 => some .die
  | 3 => some .mod
  | 4 => some .pod
  | _ => none
def Scp.code : Scp → BitVec 3
  | .core => 0
  | .clu => 1
  | .die => 2
  | .mod => 3
  | .pod => 4
def Aop.ofCode (c : BitVec 4) : Option Aop :=
  match c.toNat with
  | 0 => some .add
  | 1 => some .and
  | 2 => some .or
  | 3 => some .xor
  | 4 => some .min
  | 5 => some .max
  | 6 => some .umin
  | 7 => some .umax
  | 8 => some .xchg
  | 9 => some .fadd
  | _ => none
def Aop.code : Aop → BitVec 4
  | .add => 0
  | .and => 1
  | .or => 2
  | .xor => 3
  | .min => 4
  | .max => 5
  | .umin => 6
  | .umax => 7
  | .xchg => 8
  | .fadd => 9
def Space.ofCode (c : BitVec 2) : Option Space :=
  match c.toNat with
  | 0 => some .glob
  | 1 => some .ls
  | 2 => some .vault
  | _ => none
def Space.code : Space → BitVec 2
  | .glob => 0
  | .ls => 1
  | .vault => 2
def Rop.ofCode (c : BitVec 4) : Option Rop :=
  match c.toNat with
  | 0 => some .add
  | 1 => some .max
  | 2 => some .min
  | _ => none
def Rop.code : Rop → BitVec 4
  | .add => 0
  | .max => 1
  | .min => 2
def Src.ofCode (c : BitVec 2) : Option Src :=
  match c.toNat with
  | 0 => some .one
  | 1 => some .two
  | 2 => some .ls
  | _ => none
def Src.code : Src → BitVec 2
  | .one => 0
  | .two => 1
  | .ls => 2
/-- CS of LOOP (R51): 00 or 01. -/
def csOfCode (c : BitVec 2) : Option Bool :=
  match c.toNat with
  | 0 => some false
  | 1 => some true
  | _ => none

/-! ### Payload formats, read -/

/-- Format A (R44). -/
def unpackA (g : Guard) (p : BitVec 78) : Except Illegal FormA :=
  if fieldOf p 32 10 ≠ 0 then .error .reservedField else
  match Rm.ofCode (fieldOf p 46 3) with
  | some rm => .ok (FormA.mk g (fieldOf p 72 6) (fieldOf p 66 6) (fieldOf p 60 6) (fieldOf p 57 3) (fieldOf p 54 3) (fieldOf p 51 3)
      (Width.ofCode (fieldOf p 49 2)) rm (fieldOf p 42 4) (fieldOf p 0 32))
  | none => .error .reservedCode

/-- Format I (R45). -/
def unpackI (g : Guard) (p : BitVec 78) : Except Illegal FormI :=
  if fieldOf p 48 24 ≠ 0 then .error .reservedField else .ok (FormI.mk g (fieldOf p 72 6) (fieldOf p 0 48))

/-- Format M (R46). -/
def unpackM (g : Guard) (p : BitVec 78) : Except Illegal FormM :=
  if fieldOf p 40 4 ≠ 0 then .error .reservedField else
  match Sz.ofCode (fieldOf p 57 3), Scp.ofCode (fieldOf p 52 3), Aop.ofCode (fieldOf p 48 4) with
  | some sz, some scp, some aop => .ok (FormM.mk g (fieldOf p 72 6) (fieldOf p 66 6) (fieldOf p 60 6) sz (Ord.ofCode (fieldOf p 55 2)) scp aop
      (fieldOf p 45 3) (p.getLsbD 44) (fieldOf p 0 40))
  | _, _, _ => .error .reservedCode

/-- Format V (R47). -/
def unpackV (g : Guard) (p : BitVec 78) : Except Illegal FormV :=
  if p.getLsbD 42 || fieldOf p 32 2 != 0 then .error .reservedField else
  match Et.ofCode (fieldOf p 51 4), Et.ofCode (fieldOf p 47 4), Rm.ofCode (fieldOf p 44 3) with
  | some et, some et2, some rm => .ok (FormV.mk g (fieldOf p 72 6) (fieldOf p 66 6) (fieldOf p 60 6) (fieldOf p 57 3) (p.getLsbD 56)
      (p.getLsbD 55) et et2 rm (p.getLsbD 43) (fieldOf p 40 2) (fieldOf p 34 6) (fieldOf p 0 32))
  | _, _, _ => .error .reservedCode

/-- Format X (R48). -/
def unpackX (g : Guard) (p : BitVec 78) : Except Illegal FormX :=
  if fieldOf p 0 12 ≠ 0 then .error .reservedField else
  match Et.ofCode (fieldOf p 16 4), Rm.ofCode (fieldOf p 13 3) with
  | some et, some rm => .ok (FormX.mk g (fieldOf p 76 2) (fieldOf p 72 4) (fieldOf p 68 4) (fieldOf p 62 6) (fieldOf p 56 6) (fieldOf p 45 11)
      (fieldOf p 32 13) (fieldOf p 26 6) (fieldOf p 24 2) (fieldOf p 20 4) et rm (p.getLsbD 12))
  | _, _ => .error .reservedCode

/-- Format C (R49). -/
def unpackC (g : Guard) (p : BitVec 78) : Except Illegal FormC :=
  match Space.ofCode (fieldOf p 40 2), Space.ofCode (fieldOf p 38 2), Rop.ofCode (fieldOf p 28 4), Et.ofCode (fieldOf p 24 4) with
  | some ss, some dsp, some rop, some et => .ok (FormC.mk g (fieldOf p 72 6) (fieldOf p 66 6) (fieldOf p 60 6) (fieldOf p 54 6) (fieldOf p 50 4)
      (fieldOf p 42 8) ss dsp (fieldOf p 32 6) rop et (fieldOf p 0 24))
  | _, _, _, _ => .error .reservedCode

/-- Format Y (R50). -/
def unpackY (g : Guard) (p : BitVec 78) : Except Illegal FormY :=
  if fieldOf p 32 5 ≠ 0 then .error .reservedField else
  match Src.ofCode (fieldOf p 37 2) with
  | some src => .ok (FormY.mk g (fieldOf p 72 6) (fieldOf p 66 6) (fieldOf p 60 6) (fieldOf p 54 6) (fieldOf p 46 8) (p.getLsbD 45)
      (fieldOf p 39 6) src (fieldOf p 0 32))
  | none => .error .reservedCode

/-- Format B (R51). -/
def unpackB (g : Guard) (p : BitVec 78) : Except Illegal FormB :=
  match csOfCode (fieldOf p 48 2) with
  | some cs => .ok (FormB.mk g (fieldOf p 72 6) (fieldOf p 66 6) (fieldOf p 50 16) cs (fieldOf p 40 8) (fieldOf p 0 40))
  | none => .error .reservedCode

/-- Format S (R52). -/
def unpackS (g : Guard) (p : BitVec 78) : Except Illegal FormS :=
  if fieldOf p 32 16 ≠ 0 then .error .reservedField else
  .ok (FormS.mk g (fieldOf p 72 6) (fieldOf p 60 12) (fieldOf p 54 6) (fieldOf p 48 6) (fieldOf p 0 32))

/-! ### Payload formats, written -/

def bit1 (b : Bool) : BitVec 1 := BitVec.ofBool b

def packA (f : FormA) : BitVec 78 :=
  BitVec.setWidth 78 (f.gd ++ f.ga ++ f.gb ++ f.kd ++ f.ka ++ f.kb ++ f.w.code ++ f.rm.code ++ f.cc ++ (0 : BitVec 10) ++ f.imm)
def packI (f : FormI) : BitVec 78 :=
  BitVec.setWidth 78 (f.gd ++ (0 : BitVec 24) ++ f.imm)
def packM (f : FormM) : BitVec 78 :=
  BitVec.setWidth 78 (f.gt ++ f.gb ++ f.gx ++ f.sz.code ++ f.ord.code ++ f.scp.code ++ f.aop.code ++ f.msk ++ bit1 f.me ++ (0 : BitVec 4) ++ f.off)
def packV (f : FormV) : BitVec 78 :=
  BitVec.setWidth 78 (f.vd ++ f.va ++ f.vb ++ f.msk ++ bit1 f.mz ++ bit1 f.me ++ f.et.code ++ f.et2.code ++ f.rm.code ++ bit1 f.sat ++ (0 : BitVec 1) ++ f.fd
    ++ f.gs ++ (0 : BitVec 2) ++ f.imm)
def packX (f : FormX) : BitVec 78 :=
  BitVec.setWidth 78 (f.ca ++ f.da ++ f.db ++ f.gl ++ f.gw ++ f.loff ++ f.woff ++ f.gc ++ f.fd ++ f.dc ++ f.et.code ++ f.rm.code ++ bit1 f.sat
    ++ (0 : BitVec 12))
def packC (f : FormC) : BitVec 78 :=
  BitVec.setWidth 78 (f.gs ++ f.gd ++ f.gn ++ f.gk ++ f.ds ++ f.mc ++ f.ss.code ++ f.dsp.code ++ f.gp ++ f.rop.code ++ f.et.code ++ f.len)
def packY (f : FormY) : BitVec 78 :=
  BitVec.setWidth 78 (f.gh ++ f.gv1 ++ f.gv2 ++ f.gst ++ f.ls ++ bit1 f.f ++ f.gl ++ f.src.code ++ (0 : BitVec 5) ++ f.imm)
def packB (f : FormB) : BitVec 78 :=
  BitVec.setWidth 78 (f.ga ++ f.glk ++ f.cnt ++ (if f.cs then (1 : BitVec 2) else 0) ++ f.ls ++ f.off)
def packS (f : FormS) : BitVec 78 :=
  BitVec.setWidth 78 (f.gd ++ f.sel ++ f.ga ++ f.gb ++ (0 : BitVec 16) ++ f.imm)

/-! ### The opcode map -/

/-- The row of the opcode map (R55): which instruction OP and SUB name, from the fields of its format. -/
def instrOf (op sub : Nat) (g : Guard) (p : BitVec 78) : Except Illegal Instr :=
  match op, sub with
  | 0x00, 0x00 => if p == 0 then .ok (.nop (FormN.mk g)) else .error .reservedField
  | 0x01, 0x00 => (unpackB g p).map .br
  | 0x01, 0x01 => (unpackB g p).map .bri
  | 0x01, 0x02 => (unpackB g p).map .call
  | 0x01, 0x03 => (unpackB g p).map .calli
  | 0x01, 0x04 => (unpackB g p).map .ret
  | 0x01, 0x05 => (unpackB g p).map .loop
  | 0x01, 0x06 => (unpackB g p).map .lexit
  | 0x01, 0x07 => (unpackB g p).map .exit
  | 0x01, 0x08 => (unpackB g p).map .trap
  | 0x01, 0x09 => (unpackB g p).map .brk
  | 0x01, 0x0A => (unpackB g p).map .prePoint
  | 0x01, 0x0B => (unpackB g p).map .yield
  | 0x10, 0x00 => (unpackA g p).map .add
  | 0x10, 0x01 => (unpackA g p).map .sub
  | 0x10, 0x02 => (unpackA g p).map .mul
  | 0x10, 0x03 => (unpackA g p).map .mulh
  | 0x10, 0x04 => (unpackA g p).map .mulhs
  | 0x10, 0x05 => (unpackA g p).map .div
  | 0x10, 0x06 => (unpackA g p).map .divs
  | 0x10, 0x07 => (unpackA g p).map .rem
  | 0x10, 0x08 => (unpackA g p).map .rems
  | 0x10, 0x09 => (unpackA g p).map .madd
  | 0x10, 0x0A => (unpackA g p).map .and
  | 0x10, 0x0B => (unpackA g p).map .or
  | 0x10, 0x0C => (unpackA g p).map .xor
  | 0x10, 0x0D => (unpackA g p).map .andn
  | 0x10, 0x0E => (unpackA g p).map .orn
  | 0x10, 0x0F => (unpackA g p).map .shl
  | 0x10, 0x10 => (unpackA g p).map .shr
  | 0x10, 0x11 => (unpackA g p).map .shra
  | 0x10, 0x12 => (unpackA g p).map .ror
  | 0x10, 0x13 => (unpackA g p).map .min
  | 0x10, 0x14 => (unpackA g p).map .max
  | 0x10, 0x15 => (unpackA g p).map .mins
  | 0x10, 0x16 => (unpackA g p).map .maxs
  | 0x10, 0x17 => (unpackA g p).map .clz
  | 0x10, 0x18 => (unpackA g p).map .ctz
  | 0x10, 0x19 => (unpackA g p).map .popc
  | 0x10, 0x1A => (unpackA g p).map .brev
  | 0x10, 0x1B => (unpackA g p).map .bswap
  | 0x10, 0x1C => (unpackA g p).map .bfx
  | 0x10, 0x1D => (unpackA g p).map .bfi
  | 0x10, 0x1E => (unpackA g p).map .cmp
  | 0x10, 0x1F => (unpackA g p).map .kop
  | 0x10, 0x20 => (unpackA g p).map .sel
  | 0x10, 0x21 => (unpackA g p).map .lea
  | 0x11, 0x00 => (unpackA g p).map .addi
  | 0x11, 0x01 => (unpackA g p).map .subImm
  | 0x11, 0x02 => (unpackA g p).map .mulImm
  | 0x11, 0x03 => (unpackA g p).map .mulhImm
  | 0x11, 0x04 => (unpackA g p).map .mulhsImm
  | 0x11, 0x05 => (unpackA g p).map .divImm
  | 0x11, 0x06 => (unpackA g p).map .divsImm
  | 0x11, 0x07 => (unpackA g p).map .remImm
  | 0x11, 0x08 => (unpackA g p).map .remsImm
  | 0x11, 0x09 => (unpackA g p).map .maddImm
  | 0x11, 0x0A => (unpackA g p).map .andImm
  | 0x11, 0x0B => (unpackA g p).map .orImm
  | 0x11, 0x0C => (unpackA g p).map .xorImm
  | 0x11, 0x0D => (unpackA g p).map .andnImm
  | 0x11, 0x0E => (unpackA g p).map .ornImm
  | 0x11, 0x0F => (unpackA g p).map .shlImm
  | 0x11, 0x10 => (unpackA g p).map .shrImm
  | 0x11, 0x11 => (unpackA g p).map .shraImm
  | 0x11, 0x12 => (unpackA g p).map .rorImm
  | 0x11, 0x13 => (unpackA g p).map .minImm
  | 0x11, 0x14 => (unpackA g p).map .maxImm
  | 0x11, 0x15 => (unpackA g p).map .minsImm
  | 0x11, 0x16 => (unpackA g p).map .maxsImm
  | 0x11, 0x1C => (unpackA g p).map .bfxImm
  | 0x11, 0x1D => (unpackA g p).map .bfiImm
  | 0x11, 0x1E => (unpackA g p).map .cmpi
  | 0x11, 0x21 => (unpackA g p).map .leaPc
  | 0x12, 0x00 => (unpackI g p).map .movi
  | 0x12, 0x01 => (unpackI g p).map .movh
  | 0x30, 0x00 => (unpackA g p).map .fadd
  | 0x30, 0x01 => (unpackA g p).map .fsub
  | 0x30, 0x02 => (unpackA g p).map .fmul
  | 0x30, 0x03 => (unpackA g p).map .ffma
  | 0x30, 0x04 => (unpackA g p).map .fdiv
  | 0x30, 0x05 => (unpackA g p).map .fsqrt
  | 0x30, 0x06 => (unpackA g p).map .fmin
  | 0x30, 0x07 => (unpackA g p).map .fmax
  | 0x30, 0x08 => (unpackA g p).map .fcmp
  | 0x30, 0x09 => (unpackA g p).map .fcvt
  | 0x30, 0x0A => (unpackA g p).map .fclass
  | 0x30, 0x0B => (unpackA g p).map .fsgn
  | 0x38, 0x00 => (unpackA g p).map .fget
  | 0x38, 0x01 => (unpackA g p).map .fpeek
  | 0x40, 0x00 => (unpackM g p).map .ld
  | 0x40, 0x01 => (unpackM g p).map .lds
  | 0x40, 0x02 => (unpackM g p).map .st
  | 0x40, 0x03 => (unpackM g p).map .atom
  | 0x40, 0x04 => (unpackM g p).map .cas
  | 0x40, 0x05 => (unpackM g p).map .pref
  | 0x40, 0x06 => (unpackM g p).map .vldg
  | 0x40, 0x07 => (unpackM g p).map .vstg
  | 0x40, 0x08 => (unpackM g p).map .seal
  | 0x40, 0x09 => (unpackM g p).map .unseal
  | 0x41, 0x00 => (unpackM g p).map .ldl
  | 0x41, 0x01 => (unpackM g p).map .stl
  | 0x41, 0x02 => (unpackM g p).map .ldn
  | 0x41, 0x03 => (unpackM g p).map .stn
  | 0x41, 0x04 => (unpackM g p).map .vld
  | 0x41, 0x05 => (unpackM g p).map .vst
  | 0x4C, 0x00 => (unpackM g p).map .fence
  | 0x4C, 0x01 => (unpackM g p).map .fenceXp
  | 0x4C, 0x02 => (unpackM g p).map .wack
  | 0x4C, 0x03 => (unpackM g p).map .seq
  | 0x50, 0x00 => (unpackY g p).map .cellInit
  | 0x50, 0x01 => (unpackY g p).map .cellKill
  | 0x50, 0x02 => (unpackY g p).map .cellQry
  | 0x51, 0x00 => (unpackY g p).map .ctrAdd
  | 0x51, 0x01 => (unpackY g p).map .ctrRd
  | 0x51, 0x02 => (unpackY g p).map .ctrWge
  | 0x52, 0x00 => (unpackY g p).map .barArr
  | 0x52, 0x01 => (unpackY g p).map .barWt
  | 0x52, 0x02 => (unpackY g p).map .barArw
  | 0x52, 0x03 => (unpackY g p).map .barDrop
  | 0x52, 0x04 => (unpackY g p).map .barAdj
  | 0x53, 0x00 => (unpackY g p).map .lckTake
  | 0x53, 0x01 => (unpackY g p).map .lckTry
  | 0x53, 0x02 => (unpackY g p).map .lckGive
  | 0x54, 0x00 => (unpackY g p).map .cndWait
  | 0x54, 0x01 => (unpackY g p).map .cndSig
  | 0x54, 0x02 => (unpackY g p).map .cndAll
  | 0x55, 0x00 => (unpackY g p).map .qPut
  | 0x55, 0x01 => (unpackY g p).map .qTake
  | 0x55, 0x02 => (unpackY g p).map .qTryput
  | 0x55, 0x03 => (unpackY g p).map .qTrytake
  | 0x55, 0x05 => (unpackY g p).map .qClose
  | 0x60, 0x00 => (unpackV g p).map .vadd
  | 0x60, 0x01 => (unpackV g p).map .vsub
  | 0x60, 0x02 => (unpackV g p).map .vmul
  | 0x60, 0x03 => (unpackV g p).map .vfma
  | 0x60, 0x04 => (unpackV g p).map .vfms
  | 0x60, 0x05 => (unpackV g p).map .vmin
  | 0x60, 0x06 => (unpackV g p).map .vmax
  | 0x60, 0x07 => (unpackV g p).map .vabs
  | 0x60, 0x08 => (unpackV g p).map .vneg
  | 0x61, 0x00 => (unpackV g p).map .vrcp
  | 0x61, 0x01 => (unpackV g p).map .vrsq
  | 0x61, 0x02 => (unpackV g p).map .vsqrt
  | 0x61, 0x03 => (unpackV g p).map .vexp2
  | 0x61, 0x04 => (unpackV g p).map .vlog2
  | 0x61, 0x05 => (unpackV g p).map .vtanh
  | 0x62, 0x00 => (unpackV g p).map .viadd
  | 0x62, 0x01 => (unpackV g p).map .visub
  | 0x62, 0x02 => (unpackV g p).map .vimul
  | 0x62, 0x03 => (unpackV g p).map .vand
  | 0x62, 0x04 => (unpackV g p).map .vor
  | 0x62, 0x05 => (unpackV g p).map .vxor
  | 0x62, 0x06 => (unpackV g p).map .vshl
  | 0x62, 0x07 => (unpackV g p).map .vshr
  | 0x62, 0x08 => (unpackV g p).map .vshra
  | 0x63, 0x00 => (unpackV g p).map .vcmp
  | 0x63, 0x01 => (unpackV g p).map .vsel
  | 0x63, 0x02 => (unpackV g p).map .mop
  | 0x63, 0x03 => (unpackV g p).map .mpop
  | 0x64, 0x00 => (unpackV g p).map .vmov
  | 0x64, 0x01 => (unpackV g p).map .vbcast
  | 0x64, 0x02 => (unpackV g p).map .vext
  | 0x64, 0x03 => (unpackV g p).map .vperm
  | 0x64, 0x04 => (unpackV g p).map .vshuf
  | 0x64, 0x05 => (unpackV g p).map .vslide
  | 0x64, 0x06 => (unpackV g p).map .vzip
  | 0x65, 0x00 => (unpackV g p).map .vred
  | 0x65, 0x01 => (unpackV g p).map .vscan
  | 0x65, 0x02 => (unpackV g p).map .vdot
  | 0x66, 0x00 => (unpackV g p).map .vcvt
  | 0x66, 0x01 => (unpackV g p).map .vqnt
  | 0x66, 0x02 => (unpackV g p).map .vdq
  | 0x66, 0x03 => (unpackV g p).map .vlut
  | 0x67, 0x00 => (unpackV g p).map .vmac
  | 0x67, 0x01 => (unpackV g p).map .vclamp
  | 0x90, 0x00 => (unpackX g p).map .mma
  | 0x90, 0x01 => (unpackX g p).map .mmaz
  | 0x90, 0x02 => (unpackX g p).map .mzero
  | 0x90, 0x03 => (unpackX g p).map .movc
  | 0x90, 0x04 => (unpackX g p).map .movcv
  | 0x90, 0x05 => (unpackX g p).map .mdesc
  | 0x90, 0x06 => (unpackX g p).map .mgeo
  | 0x90, 0x07 => (unpackX g p).map .lutld
  | 0x90, 0x08 => (unpackX g p).map .mwait
  | 0x90, 0x09 => (unpackX g p).map .mwt
  | 0xA0, 0x00 => (unpackC g p).map .cpy
  | 0xA0, 0x01 => (unpackC g p).map .cpyc
  | 0xA0, 0x02 => (unpackC g p).map .cpym
  | 0xA0, 0x03 => (unpackC g p).map .cpyg
  | 0xA0, 0x04 => (unpackC g p).map .cpys
  | 0xA0, 0x05 => (unpackC g p).map .cpyr
  | 0xA0, 0x06 => (unpackC g p).map .cpyq
  | 0xA0, 0x07 => (unpackC g p).map .cpyk
  | 0xB0, 0x00 => (unpackY g p).map .hypOpen
  | 0xB0, 0x01 => (unpackY g p).map .hypEnter
  | 0xB0, 0x02 => (unpackY g p).map .hypLeave
  | 0xB0, 0x03 => (unpackY g p).map .hypRsv
  | 0xB0, 0x04 => (unpackY g p).map .hypQry
  | 0xB8, 0x00 => (unpackV g p).map .rcpBind
  | 0xB8, 0x01 => (unpackV g p).map .rcpFree
  | 0xB8, 0x02 => (unpackV g p).map .rcpDrop
  | 0xB8, 0x03 => (unpackV g p).map .rcpAnch
  | 0xB8, 0x04 => (unpackV g p).map .rcpQry
  | 0xC0, 0x00 => (unpackS g p).map .srd
  | 0xC0, 0x01 => (unpackS g p).map .swr
  | 0xC0, 0x02 => (unpackS g p).map .geo
  | 0xC0, 0x03 => (unpackS g p).map .clk
  | 0xC0, 0x04 => (unpackS g p).map .id
  | 0xD0, 0x00 => (unpackS g p).map .winRd
  | 0xD0, 0x01 => (unpackS g p).map .winWr
  | 0xD0, 0x02 => (unpackS g p).map .grpFrz
  | 0xD0, 0x03 => (unpackS g p).map .grpThaw
  | 0xD0, 0x04 => (unpackS g p).map .grpKill
  | 0xD0, 0x05 => (unpackS g p).map .tlbInv
  | 0x40, 0x0A => (unpackM g p).map fun f => if f.me then .l1invAll f else .l1inv f
  | 0x55, 0x04 => (unpackY g p).map fun f => if f.src == .ls then .qJoinGovernor f else .qJoin f
  | _, _ => .error .noOpcode

/-- OP and SUB of an instruction (R55). -/
def opSub : Instr → Option (Nat × Nat)
  | .nop _ => some (0x00, 0x00)
  | .br _ => some (0x01, 0x00)
  | .bri _ => some (0x01, 0x01)
  | .call _ => some (0x01, 0x02)
  | .calli _ => some (0x01, 0x03)
  | .ret _ => some (0x01, 0x04)
  | .loop _ => some (0x01, 0x05)
  | .lexit _ => some (0x01, 0x06)
  | .exit _ => some (0x01, 0x07)
  | .trap _ => some (0x01, 0x08)
  | .brk _ => some (0x01, 0x09)
  | .prePoint _ => some (0x01, 0x0A)
  | .yield _ => some (0x01, 0x0B)
  | .add _ => some (0x10, 0x00)
  | .sub _ => some (0x10, 0x01)
  | .mul _ => some (0x10, 0x02)
  | .mulh _ => some (0x10, 0x03)
  | .mulhs _ => some (0x10, 0x04)
  | .div _ => some (0x10, 0x05)
  | .divs _ => some (0x10, 0x06)
  | .rem _ => some (0x10, 0x07)
  | .rems _ => some (0x10, 0x08)
  | .madd _ => some (0x10, 0x09)
  | .and _ => some (0x10, 0x0A)
  | .or _ => some (0x10, 0x0B)
  | .xor _ => some (0x10, 0x0C)
  | .andn _ => some (0x10, 0x0D)
  | .orn _ => some (0x10, 0x0E)
  | .shl _ => some (0x10, 0x0F)
  | .shr _ => some (0x10, 0x10)
  | .shra _ => some (0x10, 0x11)
  | .ror _ => some (0x10, 0x12)
  | .min _ => some (0x10, 0x13)
  | .max _ => some (0x10, 0x14)
  | .mins _ => some (0x10, 0x15)
  | .maxs _ => some (0x10, 0x16)
  | .clz _ => some (0x10, 0x17)
  | .ctz _ => some (0x10, 0x18)
  | .popc _ => some (0x10, 0x19)
  | .brev _ => some (0x10, 0x1A)
  | .bswap _ => some (0x10, 0x1B)
  | .bfx _ => some (0x10, 0x1C)
  | .bfi _ => some (0x10, 0x1D)
  | .cmp _ => some (0x10, 0x1E)
  | .kop _ => some (0x10, 0x1F)
  | .sel _ => some (0x10, 0x20)
  | .lea _ => some (0x10, 0x21)
  | .addi _ => some (0x11, 0x00)
  | .subImm _ => some (0x11, 0x01)
  | .mulImm _ => some (0x11, 0x02)
  | .mulhImm _ => some (0x11, 0x03)
  | .mulhsImm _ => some (0x11, 0x04)
  | .divImm _ => some (0x11, 0x05)
  | .divsImm _ => some (0x11, 0x06)
  | .remImm _ => some (0x11, 0x07)
  | .remsImm _ => some (0x11, 0x08)
  | .maddImm _ => some (0x11, 0x09)
  | .andImm _ => some (0x11, 0x0A)
  | .orImm _ => some (0x11, 0x0B)
  | .xorImm _ => some (0x11, 0x0C)
  | .andnImm _ => some (0x11, 0x0D)
  | .ornImm _ => some (0x11, 0x0E)
  | .shlImm _ => some (0x11, 0x0F)
  | .shrImm _ => some (0x11, 0x10)
  | .shraImm _ => some (0x11, 0x11)
  | .rorImm _ => some (0x11, 0x12)
  | .minImm _ => some (0x11, 0x13)
  | .maxImm _ => some (0x11, 0x14)
  | .minsImm _ => some (0x11, 0x15)
  | .maxsImm _ => some (0x11, 0x16)
  | .bfxImm _ => some (0x11, 0x1C)
  | .bfiImm _ => some (0x11, 0x1D)
  | .cmpi _ => some (0x11, 0x1E)
  | .leaPc _ => some (0x11, 0x21)
  | .movi _ => some (0x12, 0x00)
  | .movh _ => some (0x12, 0x01)
  | .fadd _ => some (0x30, 0x00)
  | .fsub _ => some (0x30, 0x01)
  | .fmul _ => some (0x30, 0x02)
  | .ffma _ => some (0x30, 0x03)
  | .fdiv _ => some (0x30, 0x04)
  | .fsqrt _ => some (0x30, 0x05)
  | .fmin _ => some (0x30, 0x06)
  | .fmax _ => some (0x30, 0x07)
  | .fcmp _ => some (0x30, 0x08)
  | .fcvt _ => some (0x30, 0x09)
  | .fclass _ => some (0x30, 0x0A)
  | .fsgn _ => some (0x30, 0x0B)
  | .fget _ => some (0x38, 0x00)
  | .fpeek _ => some (0x38, 0x01)
  | .ld _ => some (0x40, 0x00)
  | .lds _ => some (0x40, 0x01)
  | .st _ => some (0x40, 0x02)
  | .atom _ => some (0x40, 0x03)
  | .cas _ => some (0x40, 0x04)
  | .pref _ => some (0x40, 0x05)
  | .vldg _ => some (0x40, 0x06)
  | .vstg _ => some (0x40, 0x07)
  | .seal _ => some (0x40, 0x08)
  | .unseal _ => some (0x40, 0x09)
  | .l1inv _ => some (0x40, 0x0A)
  | .ldl _ => some (0x41, 0x00)
  | .stl _ => some (0x41, 0x01)
  | .ldn _ => some (0x41, 0x02)
  | .stn _ => some (0x41, 0x03)
  | .vld _ => some (0x41, 0x04)
  | .vst _ => some (0x41, 0x05)
  | .fence _ => some (0x4C, 0x00)
  | .fenceXp _ => some (0x4C, 0x01)
  | .wack _ => some (0x4C, 0x02)
  | .seq _ => some (0x4C, 0x03)
  | .cellInit _ => some (0x50, 0x00)
  | .cellKill _ => some (0x50, 0x01)
  | .cellQry _ => some (0x50, 0x02)
  | .ctrAdd _ => some (0x51, 0x00)
  | .ctrRd _ => some (0x51, 0x01)
  | .ctrWge _ => some (0x51, 0x02)
  | .barArr _ => some (0x52, 0x00)
  | .barWt _ => some (0x52, 0x01)
  | .barArw _ => some (0x52, 0x02)
  | .barDrop _ => some (0x52, 0x03)
  | .barAdj _ => some (0x52, 0x04)
  | .lckTake _ => some (0x53, 0x00)
  | .lckTry _ => some (0x53, 0x01)
  | .lckGive _ => some (0x53, 0x02)
  | .cndWait _ => some (0x54, 0x00)
  | .cndSig _ => some (0x54, 0x01)
  | .cndAll _ => some (0x54, 0x02)
  | .qPut _ => some (0x55, 0x00)
  | .qTake _ => some (0x55, 0x01)
  | .qTryput _ => some (0x55, 0x02)
  | .qTrytake _ => some (0x55, 0x03)
  | .qJoin _ => some (0x55, 0x04)
  | .qClose _ => some (0x55, 0x05)
  | .vadd _ => some (0x60, 0x00)
  | .vsub _ => some (0x60, 0x01)
  | .vmul _ => some (0x60, 0x02)
  | .vfma _ => some (0x60, 0x03)
  | .vfms _ => some (0x60, 0x04)
  | .vmin _ => some (0x60, 0x05)
  | .vmax _ => some (0x60, 0x06)
  | .vabs _ => some (0x60, 0x07)
  | .vneg _ => some (0x60, 0x08)
  | .vrcp _ => some (0x61, 0x00)
  | .vrsq _ => some (0x61, 0x01)
  | .vsqrt _ => some (0x61, 0x02)
  | .vexp2 _ => some (0x61, 0x03)
  | .vlog2 _ => some (0x61, 0x04)
  | .vtanh _ => some (0x61, 0x05)
  | .viadd _ => some (0x62, 0x00)
  | .visub _ => some (0x62, 0x01)
  | .vimul _ => some (0x62, 0x02)
  | .vand _ => some (0x62, 0x03)
  | .vor _ => some (0x62, 0x04)
  | .vxor _ => some (0x62, 0x05)
  | .vshl _ => some (0x62, 0x06)
  | .vshr _ => some (0x62, 0x07)
  | .vshra _ => some (0x62, 0x08)
  | .vcmp _ => some (0x63, 0x00)
  | .vsel _ => some (0x63, 0x01)
  | .mop _ => some (0x63, 0x02)
  | .mpop _ => some (0x63, 0x03)
  | .vmov _ => some (0x64, 0x00)
  | .vbcast _ => some (0x64, 0x01)
  | .vext _ => some (0x64, 0x02)
  | .vperm _ => some (0x64, 0x03)
  | .vshuf _ => some (0x64, 0x04)
  | .vslide _ => some (0x64, 0x05)
  | .vzip _ => some (0x64, 0x06)
  | .vred _ => some (0x65, 0x00)
  | .vscan _ => some (0x65, 0x01)
  | .vdot _ => some (0x65, 0x02)
  | .vcvt _ => some (0x66, 0x00)
  | .vqnt _ => some (0x66, 0x01)
  | .vdq _ => some (0x66, 0x02)
  | .vlut _ => some (0x66, 0x03)
  | .vmac _ => some (0x67, 0x00)
  | .vclamp _ => some (0x67, 0x01)
  | .mma _ => some (0x90, 0x00)
  | .mmaz _ => some (0x90, 0x01)
  | .mzero _ => some (0x90, 0x02)
  | .movc _ => some (0x90, 0x03)
  | .movcv _ => some (0x90, 0x04)
  | .mdesc _ => some (0x90, 0x05)
  | .mgeo _ => some (0x90, 0x06)
  | .lutld _ => some (0x90, 0x07)
  | .mwait _ => some (0x90, 0x08)
  | .mwt _ => some (0x90, 0x09)
  | .cpy _ => some (0xA0, 0x00)
  | .cpyc _ => some (0xA0, 0x01)
  | .cpym _ => some (0xA0, 0x02)
  | .cpyg _ => some (0xA0, 0x03)
  | .cpys _ => some (0xA0, 0x04)
  | .cpyr _ => some (0xA0, 0x05)
  | .cpyq _ => some (0xA0, 0x06)
  | .cpyk _ => some (0xA0, 0x07)
  | .hypOpen _ => some (0xB0, 0x00)
  | .hypEnter _ => some (0xB0, 0x01)
  | .hypLeave _ => some (0xB0, 0x02)
  | .hypRsv _ => some (0xB0, 0x03)
  | .hypQry _ => some (0xB0, 0x04)
  | .rcpBind _ => some (0xB8, 0x00)
  | .rcpFree _ => some (0xB8, 0x01)
  | .rcpDrop _ => some (0xB8, 0x02)
  | .rcpAnch _ => some (0xB8, 0x03)
  | .rcpQry _ => some (0xB8, 0x04)
  | .srd _ => some (0xC0, 0x00)
  | .swr _ => some (0xC0, 0x01)
  | .geo _ => some (0xC0, 0x02)
  | .clk _ => some (0xC0, 0x03)
  | .id _ => some (0xC0, 0x04)
  | .winRd _ => some (0xD0, 0x00)
  | .winWr _ => some (0xD0, 0x01)
  | .grpFrz _ => some (0xD0, 0x02)
  | .grpThaw _ => some (0xD0, 0x03)
  | .grpKill _ => some (0xD0, 0x04)
  | .tlbInv _ => some (0xD0, 0x05)
  | .l1invAll _ => some (0x40, 0x0A)
  | .qJoinGovernor _ => some (0x55, 0x04)
  | .vectorCommandRun _ => none
  | .tileCommandStart _ => none
  | .tileCommandRetire _ => none
  | .copyJobStart _ => none
  | .copyChunk _ _ => none
  | .copyJobDone _ => none
  | .resolveApply _ _ _ => none
  | .resolveComplete _ _ => none
  | .scrubPassEnd _ => none
  | .tlbInvSiteAck _ _ _ => none
  | .pageWalk _ _ _ => none
  | .homeRead _ => none
  | .homeWrite _ => none
  | .storeAck _ => none
  | .loadReturn _ => none
  | .blockingResponse _ _ => none
  | .writebackDrain _ => none
  | .replicaDrop _ _ => none
  | .unsealComplete _ => none
  | .cellOperation _ => none
  | .hotLineFill _ _ => none
  | .wake _ => none
  | .hqput _ _ _ _ => none
  | .hqsRead _ _ _ => none
  | .launchTake _ _ => none
  | .kernelLoad _ _ => none
  | .groupPlace _ => none
  | .launchEnd _ _ => none
  | .quiescenceSweep _ _ => none
  | .replenishment _ _ => none
  | .overrun _ _ => none
  | .swap _ => none
  | .saveComplete _ => none
  | .graceExpiry _ => none
  | .saveRetry _ => none
  | .faultRecordDelivery _ => none
  | .double _ => none
  | .create _ => none
  | .lock _ => none
  | .start _ => none
  | .stop _ => none
  | .release _ => none
  | .invalidCommand _ _ => none
  | .stopDrainComplete _ => none
  | .scrubComplete _ => none
  | .partError _ _ => none
  | .registerWrite _ _ => none
  | .vbndWrite _ _ => none
  | .lockInterfaceRequest _ => none
  | .startInterfaceRequest _ => none
  | .stopInterfaceRequest _ => none
  | .challenge _ _ => none
  | .getMeasurements _ => none
  | .sharedKeyInstall _ _ => none
  | .timeShareSwitch _ => none
  | .firmwareLoad _ => none
  | .liveUpdate _ => none
  | .sretGo _ => none
  | .retirementDrainComplete _ => none
  | .grant _ _ _ => none
  | .thermalTrip _ => none
  | .thermalClear _ => none
  | .retentionSleep _ => none
  | .sliceWake _ => none
  | .softError _ => none
  | .flitReplay _ _ => none
  | .train _ => none
  | .fencePort _ => none
  | .down _ => none
  | .signalDetected _ => none
  | .lanesTrained _ _ => none
  | .portAuth _ _ _ _ => none
  | .frameReceive _ _ => none
  | .retrainComplete _ _ _ _ => none
  | .keyUpdate _ _ => none
  | .peerLost _ => none
  | .packetForward _ => none
  | .millMergeForward _ => none
  | .cxlMemRead _ _ => none
  | .cxlMemWrite _ _ => none
  | .hostSnoop _ _ => none
  | .atomicProxy _ => none
  | .coldReset => none
  | .warmReset => none
  | .laneError _ => none
  | .hbmMissReturn _ _ => none

/-- The payload of an instruction with its guard (R44-R52). -/
def payload : Instr → Option (Guard × BitVec 78)
  | .nop f => some (f.grd, 0)
  | .br f => some (f.grd, packB f)
  | .bri f => some (f.grd, packB f)
  | .call f => some (f.grd, packB f)
  | .calli f => some (f.grd, packB f)
  | .ret f => some (f.grd, packB f)
  | .loop f => some (f.grd, packB f)
  | .lexit f => some (f.grd, packB f)
  | .exit f => some (f.grd, packB f)
  | .trap f => some (f.grd, packB f)
  | .brk f => some (f.grd, packB f)
  | .prePoint f => some (f.grd, packB f)
  | .yield f => some (f.grd, packB f)
  | .add f => some (f.grd, packA f)
  | .sub f => some (f.grd, packA f)
  | .mul f => some (f.grd, packA f)
  | .mulh f => some (f.grd, packA f)
  | .mulhs f => some (f.grd, packA f)
  | .div f => some (f.grd, packA f)
  | .divs f => some (f.grd, packA f)
  | .rem f => some (f.grd, packA f)
  | .rems f => some (f.grd, packA f)
  | .madd f => some (f.grd, packA f)
  | .and f => some (f.grd, packA f)
  | .or f => some (f.grd, packA f)
  | .xor f => some (f.grd, packA f)
  | .andn f => some (f.grd, packA f)
  | .orn f => some (f.grd, packA f)
  | .shl f => some (f.grd, packA f)
  | .shr f => some (f.grd, packA f)
  | .shra f => some (f.grd, packA f)
  | .ror f => some (f.grd, packA f)
  | .min f => some (f.grd, packA f)
  | .max f => some (f.grd, packA f)
  | .mins f => some (f.grd, packA f)
  | .maxs f => some (f.grd, packA f)
  | .clz f => some (f.grd, packA f)
  | .ctz f => some (f.grd, packA f)
  | .popc f => some (f.grd, packA f)
  | .brev f => some (f.grd, packA f)
  | .bswap f => some (f.grd, packA f)
  | .bfx f => some (f.grd, packA f)
  | .bfi f => some (f.grd, packA f)
  | .cmp f => some (f.grd, packA f)
  | .kop f => some (f.grd, packA f)
  | .sel f => some (f.grd, packA f)
  | .lea f => some (f.grd, packA f)
  | .addi f => some (f.grd, packA f)
  | .subImm f => some (f.grd, packA f)
  | .mulImm f => some (f.grd, packA f)
  | .mulhImm f => some (f.grd, packA f)
  | .mulhsImm f => some (f.grd, packA f)
  | .divImm f => some (f.grd, packA f)
  | .divsImm f => some (f.grd, packA f)
  | .remImm f => some (f.grd, packA f)
  | .remsImm f => some (f.grd, packA f)
  | .maddImm f => some (f.grd, packA f)
  | .andImm f => some (f.grd, packA f)
  | .orImm f => some (f.grd, packA f)
  | .xorImm f => some (f.grd, packA f)
  | .andnImm f => some (f.grd, packA f)
  | .ornImm f => some (f.grd, packA f)
  | .shlImm f => some (f.grd, packA f)
  | .shrImm f => some (f.grd, packA f)
  | .shraImm f => some (f.grd, packA f)
  | .rorImm f => some (f.grd, packA f)
  | .minImm f => some (f.grd, packA f)
  | .maxImm f => some (f.grd, packA f)
  | .minsImm f => some (f.grd, packA f)
  | .maxsImm f => some (f.grd, packA f)
  | .bfxImm f => some (f.grd, packA f)
  | .bfiImm f => some (f.grd, packA f)
  | .cmpi f => some (f.grd, packA f)
  | .leaPc f => some (f.grd, packA f)
  | .movi f => some (f.grd, packI f)
  | .movh f => some (f.grd, packI f)
  | .fadd f => some (f.grd, packA f)
  | .fsub f => some (f.grd, packA f)
  | .fmul f => some (f.grd, packA f)
  | .ffma f => some (f.grd, packA f)
  | .fdiv f => some (f.grd, packA f)
  | .fsqrt f => some (f.grd, packA f)
  | .fmin f => some (f.grd, packA f)
  | .fmax f => some (f.grd, packA f)
  | .fcmp f => some (f.grd, packA f)
  | .fcvt f => some (f.grd, packA f)
  | .fclass f => some (f.grd, packA f)
  | .fsgn f => some (f.grd, packA f)
  | .fget f => some (f.grd, packA f)
  | .fpeek f => some (f.grd, packA f)
  | .ld f => some (f.grd, packM f)
  | .lds f => some (f.grd, packM f)
  | .st f => some (f.grd, packM f)
  | .atom f => some (f.grd, packM f)
  | .cas f => some (f.grd, packM f)
  | .pref f => some (f.grd, packM f)
  | .vldg f => some (f.grd, packM f)
  | .vstg f => some (f.grd, packM f)
  | .seal f => some (f.grd, packM f)
  | .unseal f => some (f.grd, packM f)
  | .l1inv f => some (f.grd, packM f)
  | .ldl f => some (f.grd, packM f)
  | .stl f => some (f.grd, packM f)
  | .ldn f => some (f.grd, packM f)
  | .stn f => some (f.grd, packM f)
  | .vld f => some (f.grd, packM f)
  | .vst f => some (f.grd, packM f)
  | .fence f => some (f.grd, packM f)
  | .fenceXp f => some (f.grd, packM f)
  | .wack f => some (f.grd, packM f)
  | .seq f => some (f.grd, packM f)
  | .cellInit f => some (f.grd, packY f)
  | .cellKill f => some (f.grd, packY f)
  | .cellQry f => some (f.grd, packY f)
  | .ctrAdd f => some (f.grd, packY f)
  | .ctrRd f => some (f.grd, packY f)
  | .ctrWge f => some (f.grd, packY f)
  | .barArr f => some (f.grd, packY f)
  | .barWt f => some (f.grd, packY f)
  | .barArw f => some (f.grd, packY f)
  | .barDrop f => some (f.grd, packY f)
  | .barAdj f => some (f.grd, packY f)
  | .lckTake f => some (f.grd, packY f)
  | .lckTry f => some (f.grd, packY f)
  | .lckGive f => some (f.grd, packY f)
  | .cndWait f => some (f.grd, packY f)
  | .cndSig f => some (f.grd, packY f)
  | .cndAll f => some (f.grd, packY f)
  | .qPut f => some (f.grd, packY f)
  | .qTake f => some (f.grd, packY f)
  | .qTryput f => some (f.grd, packY f)
  | .qTrytake f => some (f.grd, packY f)
  | .qJoin f => some (f.grd, packY f)
  | .qClose f => some (f.grd, packY f)
  | .vadd f => some (f.grd, packV f)
  | .vsub f => some (f.grd, packV f)
  | .vmul f => some (f.grd, packV f)
  | .vfma f => some (f.grd, packV f)
  | .vfms f => some (f.grd, packV f)
  | .vmin f => some (f.grd, packV f)
  | .vmax f => some (f.grd, packV f)
  | .vabs f => some (f.grd, packV f)
  | .vneg f => some (f.grd, packV f)
  | .vrcp f => some (f.grd, packV f)
  | .vrsq f => some (f.grd, packV f)
  | .vsqrt f => some (f.grd, packV f)
  | .vexp2 f => some (f.grd, packV f)
  | .vlog2 f => some (f.grd, packV f)
  | .vtanh f => some (f.grd, packV f)
  | .viadd f => some (f.grd, packV f)
  | .visub f => some (f.grd, packV f)
  | .vimul f => some (f.grd, packV f)
  | .vand f => some (f.grd, packV f)
  | .vor f => some (f.grd, packV f)
  | .vxor f => some (f.grd, packV f)
  | .vshl f => some (f.grd, packV f)
  | .vshr f => some (f.grd, packV f)
  | .vshra f => some (f.grd, packV f)
  | .vcmp f => some (f.grd, packV f)
  | .vsel f => some (f.grd, packV f)
  | .mop f => some (f.grd, packV f)
  | .mpop f => some (f.grd, packV f)
  | .vmov f => some (f.grd, packV f)
  | .vbcast f => some (f.grd, packV f)
  | .vext f => some (f.grd, packV f)
  | .vperm f => some (f.grd, packV f)
  | .vshuf f => some (f.grd, packV f)
  | .vslide f => some (f.grd, packV f)
  | .vzip f => some (f.grd, packV f)
  | .vred f => some (f.grd, packV f)
  | .vscan f => some (f.grd, packV f)
  | .vdot f => some (f.grd, packV f)
  | .vcvt f => some (f.grd, packV f)
  | .vqnt f => some (f.grd, packV f)
  | .vdq f => some (f.grd, packV f)
  | .vlut f => some (f.grd, packV f)
  | .vmac f => some (f.grd, packV f)
  | .vclamp f => some (f.grd, packV f)
  | .mma f => some (f.grd, packX f)
  | .mmaz f => some (f.grd, packX f)
  | .mzero f => some (f.grd, packX f)
  | .movc f => some (f.grd, packX f)
  | .movcv f => some (f.grd, packX f)
  | .mdesc f => some (f.grd, packX f)
  | .mgeo f => some (f.grd, packX f)
  | .lutld f => some (f.grd, packX f)
  | .mwait f => some (f.grd, packX f)
  | .mwt f => some (f.grd, packX f)
  | .cpy f => some (f.grd, packC f)
  | .cpyc f => some (f.grd, packC f)
  | .cpym f => some (f.grd, packC f)
  | .cpyg f => some (f.grd, packC f)
  | .cpys f => some (f.grd, packC f)
  | .cpyr f => some (f.grd, packC f)
  | .cpyq f => some (f.grd, packC f)
  | .cpyk f => some (f.grd, packC f)
  | .hypOpen f => some (f.grd, packY f)
  | .hypEnter f => some (f.grd, packY f)
  | .hypLeave f => some (f.grd, packY f)
  | .hypRsv f => some (f.grd, packY f)
  | .hypQry f => some (f.grd, packY f)
  | .rcpBind f => some (f.grd, packV f)
  | .rcpFree f => some (f.grd, packV f)
  | .rcpDrop f => some (f.grd, packV f)
  | .rcpAnch f => some (f.grd, packV f)
  | .rcpQry f => some (f.grd, packV f)
  | .srd f => some (f.grd, packS f)
  | .swr f => some (f.grd, packS f)
  | .geo f => some (f.grd, packS f)
  | .clk f => some (f.grd, packS f)
  | .id f => some (f.grd, packS f)
  | .winRd f => some (f.grd, packS f)
  | .winWr f => some (f.grd, packS f)
  | .grpFrz f => some (f.grd, packS f)
  | .grpThaw f => some (f.grd, packS f)
  | .grpKill f => some (f.grd, packS f)
  | .tlbInv f => some (f.grd, packS f)
  | .l1invAll f => some (f.grd, packM f)
  | .qJoinGovernor f => some (f.grd, packY f)
  | .vectorCommandRun _ => none
  | .tileCommandStart _ => none
  | .tileCommandRetire _ => none
  | .copyJobStart _ => none
  | .copyChunk _ _ => none
  | .copyJobDone _ => none
  | .resolveApply _ _ _ => none
  | .resolveComplete _ _ => none
  | .scrubPassEnd _ => none
  | .tlbInvSiteAck _ _ _ => none
  | .pageWalk _ _ _ => none
  | .homeRead _ => none
  | .homeWrite _ => none
  | .storeAck _ => none
  | .loadReturn _ => none
  | .blockingResponse _ _ => none
  | .writebackDrain _ => none
  | .replicaDrop _ _ => none
  | .unsealComplete _ => none
  | .cellOperation _ => none
  | .hotLineFill _ _ => none
  | .wake _ => none
  | .hqput _ _ _ _ => none
  | .hqsRead _ _ _ => none
  | .launchTake _ _ => none
  | .kernelLoad _ _ => none
  | .groupPlace _ => none
  | .launchEnd _ _ => none
  | .quiescenceSweep _ _ => none
  | .replenishment _ _ => none
  | .overrun _ _ => none
  | .swap _ => none
  | .saveComplete _ => none
  | .graceExpiry _ => none
  | .saveRetry _ => none
  | .faultRecordDelivery _ => none
  | .double _ => none
  | .create _ => none
  | .lock _ => none
  | .start _ => none
  | .stop _ => none
  | .release _ => none
  | .invalidCommand _ _ => none
  | .stopDrainComplete _ => none
  | .scrubComplete _ => none
  | .partError _ _ => none
  | .registerWrite _ _ => none
  | .vbndWrite _ _ => none
  | .lockInterfaceRequest _ => none
  | .startInterfaceRequest _ => none
  | .stopInterfaceRequest _ => none
  | .challenge _ _ => none
  | .getMeasurements _ => none
  | .sharedKeyInstall _ _ => none
  | .timeShareSwitch _ => none
  | .firmwareLoad _ => none
  | .liveUpdate _ => none
  | .sretGo _ => none
  | .retirementDrainComplete _ => none
  | .grant _ _ _ => none
  | .thermalTrip _ => none
  | .thermalClear _ => none
  | .retentionSleep _ => none
  | .sliceWake _ => none
  | .softError _ => none
  | .flitReplay _ _ => none
  | .train _ => none
  | .fencePort _ => none
  | .down _ => none
  | .signalDetected _ => none
  | .lanesTrained _ _ => none
  | .portAuth _ _ _ _ => none
  | .frameReceive _ _ => none
  | .retrainComplete _ _ _ _ => none
  | .keyUpdate _ _ => none
  | .peerLost _ => none
  | .packetForward _ => none
  | .millMergeForward _ => none
  | .cxlMemRead _ _ => none
  | .cxlMemWrite _ _ => none
  | .hostSnoop _ _ => none
  | .atomicProxy _ => none
  | .coldReset => none
  | .warmReset => none
  | .laneError _ => none
  | .hbmMissReturn _ _ => none

/-- Decode one slot: the header (R40, R41), the opcode map, the format, and the rules of the instruction's entry. -/
def decodeSlot (w : SlotBits) : Except Illegal Instr :=
  let g := Guard.mk (w.getLsbD 81) (w.extractLsb' 78 3)
  if !g.wf then .error .never else
  match instrOf (w.extractLsb' 88 8).toNat (w.extractLsb' 82 6).toNat g (w.extractLsb' 0 78) with
  | .error e => .error e
  | .ok i => if i.wf then .ok i else .error .unusedField

/-- The slot of a well-formed slot instruction. A step of another agent has none. -/
def encode (i : Instr) : Option SlotBits :=
  match opSub i, payload i with
  | some (op, sub), some (g, p) =>
    some (BitVec.setWidth 96 (BitVec.ofNat 8 op ++ BitVec.ofNat 6 sub ++ bit1 g.inv ++ g.k ++ p))
  | _, _ => none

/-- The instruction read from the slot whose 96 bits are w. The opcode table gives no row any bits, so nbits bounds nothing. -/
def decodeTableWord (_nbits w : Nat) : Option Instr :=
  match decodeSlot (BitVec.ofNat 96 w) with
  | .ok i => some i
  | .error _ => none

end Sys2Proof
end

