-- ==== Sys2Proof/Machine/State.lean ====
section
/-! DEFINITION. The state of one module: strands, cores, units, slices, memory, pages, cells, parts, groups, launches, hypotheses,
ports, and what is in flight between them. Plain data throughout. INVENTORY.md lists every field with its rule and its reset value. -/

namespace Sys2Proof.Machine

/-! ### A strand (spec/05_strand.md) -/

/-- States of a strand (R96). -/
inductive StrandStatus | run | parked | frozen | swapped | ready | exited | exitedOrphan
  deriving DecidableEq, Repr

/-- A full/empty register (R106): its value, whether a result has arrived since the last FGET, and its pending producers in enqueue
order, each with the stamp of its command and, once formed, its result. -/
structure FullEmpty where
  value     : Word64
  arrived   : Bool
  producers : List (Nat × Option Word64)
  deriving DecidableEq, Repr

/-- One entry of the loop stack (R108): start and end instruction indices and the count. -/
structure LoopEntry where
  start : Nat
  final : Nat
  count : Nat
  deriving DecidableEq, Repr

/-- States of a recipe binding (R403); REPLAYING is never seen between steps. -/
inductive BindState | resident | dropped | stale
  deriving DecidableEq, Repr

/-- A recipe binding (R403, R410). -/
structure Binding where
  recipe  : Nat
  capn    : Nat
  caps    : List Word64
  luta    : Word64
  lutb    : Word64
  /-- Virtual address of the recorded page and its seal generation. -/
  page    : Option (Word64 × BitVec 32)
  nested  : Option Nat
  /-- The command of its RCP.BIND, which names it among the bindings of its strand. -/
  bid     : Nat
  st      : BindState
  /-- Stamp of the latest read, for the pool's choice (R101). -/
  readAt  : Nat
  /-- The page whose new generation made it STALE: its own, or that of the nested binding whose run failed (R409). -/
  failed  : Option Word64 := none
  deriving DecidableEq, Repr

/-- Residency of a v register (R98, R99, R403): what is known of it at issue, in program order, and whether it has an entry of the pool, which the
vector unit takes and frees as it runs the commands concerned. -/
structure Residency where
  held     : Bool
  anchored : Bool
  binding  : Option Binding
  entry    : Bool := false
  deriving DecidableEq, Repr

/-! ### Pages and requests (spec/09_line.md, spec/13_page.md) -/

/-- States of a page (R270). -/
inductive PageStatus | mapped | sealed | unsealing | poisoned
  deriving DecidableEq, Repr

/-- Placements (R264). -/
inductive Placement | hbmCached | hbmUncached | vault | hostCached | hostUncached
  deriving DecidableEq, Repr

/-- A leaf translation (R264): the page of a virtual address. -/
structure Leaf where
  /-- Virtual base and log2 of the size in bytes. -/
  vbase    : Nat
  bits     : Nat
  /-- Module and module physical base. -/
  mid      : Nat
  frame    : Nat
  hsh      : Bool
  wa       : Bool
  evp      : Nat
  hyp      : Bool
  repl     : Bool
  sealable : Bool
  sync     : Bool
  plc      : Placement
  x        : Bool
  w        : Bool
  st       : PageStatus
  sgen     : BitVec 32
  /-- Module physical address of the leaf entry. -/
  entry    : Nat
  deriving DecidableEq, Repr

/-- A cached leaf translation of one cluster (R267). -/
structure TlbEntry where
  cluster : ClusterLoc
  cix     : Nat
  leaf    : Leaf
  deriving DecidableEq, Repr

/-- A cached pointer entry of one die's walkers (R267): the lowest virtual address bit its level indexes, the virtual address above that bit,
and the table it points to. -/
structure PointerEntry where
  site  : Nat
  cix   : Nat
  lo    : Nat
  vpart : Nat
  next  : Nat
  deriving DecidableEq, Repr

/-- A walk under way on a die (R267): the walker's site, who missed, and what the walk has read: the leaf, or the fault that ends it. Other misses to
the page join it. -/
structure Walk where
  site    : Nat
  cluster : ClusterLoc
  cix     : Nat
  /-- The virtual address over 2^16. -/
  page    : Nat
  found   : FaultCode ⊕ Leaf
  deriving DecidableEq, Repr

/-- An access after translation: where it goes and what its page is. -/
structure Target where
  va   : Word64
  mid  : Nat
  pa   : Nat
  leaf : Leaf
  deriving DecidableEq, Repr

/-- A party (R209); a device is a unit that posts records and releases. A party of another module has its name there. -/
inductive Party
  | strand (who : StrandId)
  | job (n : Nat)
  | host
  | remote (mid inc : Nat) (who : RemoteParty)
  | device
  deriving DecidableEq, Repr

/-! ### What happens before what (spec/10_consistency.md R210, R213, R218) -/

/-- How far each party's accesses happen before a point: those with a number below the one listed. -/
abbrev View := List (Party × Nat)

/-- Where a party stands, for the scopes of R210: its module and its core; a copy job's is its engine's cluster, with no core. -/
structure Spot where
  mid  : Nat
  core : CoreLoc
  job  : Bool
  deriving DecidableEq, Repr

/-- A release (R211): the party, where it stands (the host nowhere), its scope, and what happens before it. -/
structure Rel where
  party : Party
  spot  : Option Spot
  scp   : Scp
  view  : View
  deriving DecidableEq, Repr

/-- What a request does at its home. -/
inductive RequestKind
  /-- Reads size bytes. -/
  | read (size : Nat)
  /-- Writes the bytes of data. -/
  | write (size : Nat) (data : BitVec 128)
  /-- A posted ATOM (R200). -/
  | atom (aop : Aop) (size : Nat) (x : BitVec 128)
  /-- A compare and swap, for a party that is no strand (R209, R430). -/
  | cas (size : Nat) (old new : BitVec 128)
  /-- A reduction of one element (R242). -/
  | reduce (rop : Rop) (et : Et) (data : BitVec 128)
  deriving DecidableEq, Repr

/-- Where a request's answer goes. -/
inductive Reply
  | none
  /-- G registers of a load: first register, signed, and the second one of a .q form. -/
  | regs (gt : BitVec 6) (size : Nat) (signed : Bool)
  /-- Chunk j of a running VLDG, by the command's stamp. -/
  | chunk (stamp j : Nat)
  /-- A chunk that a replay reads from another module's page (R408), kept until it is used. -/
  | replay
  /-- Another module's answer whether a frame of it may be used (R266), kept until the access goes on. -/
  | frame
  /-- What an instruction asked for that has gone on, or ended, without it: dropped when it comes. -/
  | unused
  /-- Chunk n of a copy job's source on another module. -/
  | copy (n : Nat)
  deriving DecidableEq, Repr

/-- A request in flight between a party and a home (R185, R189). -/
structure Request where
  id     : Nat
  party  : Party
  /-- Where the party stands, and its sequence tag or job identifier, as records tell them (R197). -/
  loc    : BitVec 32
  sig    : BitVec 16
  cix    : Nat
  target : Target
  kind   : RequestKind
  reply  : Reply
  /-- The issuer's HCUR, whose chain selects versions (R382). -/
  hyp    : BitVec 20
  /-- Sequence tag of a posted operation, or the number of another module's packet. -/
  tag    : Option (BitVec 16)
  /-- PC of the instruction. -/
  pc     : BitVec 56
  /-- Its place in the program order of its party (R218). -/
  number : Nat
  /-- What happens before it, and the releases it carries as a write (R213); of a read that has been performed, those of what it read. -/
  view   : View
  rels   : List Rel
  /-- The load may allocate in the L1 (R186); withdrawn by a later store to the line. -/
  fill   : Bool
  /-- Registers that a load's return leaves: the second slot of its pair has written them (R37). -/
  skip   : List (BitVec 6)
  /-- The home has performed it, as the access of this number. -/
  done   : Bool
  seen   : Nat
  /-- Its bytes proved uncorrectable, or it was refused (R189, R424): the fault's code and whether the error was uncorrectable. -/
  bad    : Option (FaultCode × Bool)
  /-- What a read returned, and the whole line for the L1. -/
  value  : BitVec 128
  line   : BitVec 1024
  deriving DecidableEq, Repr

/-- What a wake carries: a status with a take's item, or the poison that makes the waiter fault (R282, R291, R313). -/
inductive WakeResult
  | status (st : Status) (item : LineBits)
  | poisoned
  deriving DecidableEq, Repr

/-- A blocking access that waits for another module, the host, or a page (R189): the instruction's PC, what was sent, and its answer. -/
structure Blocked where
  pc     : BitVec 56
  /-- The module asked, when it is another one. -/
  asked  : Option Nat
  answer : Option Answer
  /-- What it was translated to, and whether it writes there; the generation that a SEAL or UNSEAL has found (R270). -/
  target : Option Target
  writes : Bool
  sgen   : Option (BitVec 32)
  /-- When it began to wait, for the arrival order of R270. -/
  number : Nat := 0
  /-- The releases that came with the answer (R213). -/
  rels   : List Rel := []
  /-- A wake that has come behind the answer that the wait is parked, before the strand has taken that in (R281). -/
  woken  : Option (WakeResult × List Rel) := none
  deriving DecidableEq, Repr

/-! ### Commands of the dispatch queues (R103) -/

/-- A range of a space that a command reads or writes, in bytes. -/
structure Range where
  base  : Nat
  len   : Nat
  write : Bool
  deriving DecidableEq, Repr

/-- What a vector command does. -/
inductive VecAction
  | compute (op : VecOp) (f : FormV)
  | load (f : FormM) (addr : Nat)
  | store (f : FormM) (addr : Nat)
  | gather (f : FormM) (chunks : List (Nat × Target))
  | scatter (f : FormM) (chunks : List (Nat × Target)) (tag : BitVec 16)
  /-- The place of an instruction that names a recipe-bound source: it holds its strand until the unit comes to it (R141). -/
  | held (granted : Bool)
  /-- The bind evaluation of an RCP.BIND (R405, R408). -/
  | bind (v : Nat) (b : Binding)
  /-- A register released reads zero from here on (R406). -/
  | zero (v : Nat)
  /-- RCP.DROP of the binding with a name (R406). -/
  | drop (v bid : Nat)
  /-- RCP.ANCH, which has had its effect at issue, but for the entry of the pool. -/
  | anchor (v : Nat)
  /-- RCP.QRY: the f register, the word but for the state and the page, and the binding it tells of (R407). -/
  | query (fd : Nat) (word : Word64) (v : Nat) (bid : Option Nat)
  deriving DecidableEq, Repr

/-- A queued vector command with its captures (R140). -/
structure VecCommand where
  stamp   : Nat
  action  : VecAction
  scalar  : Word64
  luta    : Word64
  lutb    : Word64
  hyp     : BitVec 20
  pc      : BitVec 56
  ranges  : List Range
  /-- Bound sources as its instruction read them (R141). -/
  got     : List (Nat × VecBits)
  /-- What happens before its accesses, and the releases its stores carry. -/
  view    : View
  rels    : List Rel
  /-- A VLDG that has sent its requests: the chunks still out. -/
  waiting : Option (List Nat)
  deriving DecidableEq, Repr

/-- Tile commands (R165). -/
inductive TileOp | mma | mmaz | mzero | movc | movcv
  deriving DecidableEq, Repr

/-- A queued tile command with its captures (R167): descriptors of A and B or of the result, addresses, table, footprints. -/
structure TileCommand where
  stamp   : Nat
  op      : TileOp
  form    : FormX
  descA   : LineBits
  descB   : LineBits
  la      : Nat
  /-- The vault operand: its virtual address, and each 64 KiB page index it touches with its translation. -/
  va      : Nat
  vault   : List (Nat × Leaf)
  luta    : Word64
  lutb    : Word64
  ranges  : List Range
  vranges : List Range
  /-- RUNNING: the operand bytes read at the start; a result's bytes are read from the accumulator. -/
  running : Bool
  bytesA  : List (Nat × Byte)
  bytesB  : List (Nat × Byte)
  /-- GRP.KILL or orphaning struck while it ran: its writes are discarded (R168). -/
  void    : Bool
  deriving DecidableEq, Repr

/-! ### Parks (spec/14_cell.md R279-R282) -/

/-- What a wait entry waits for (R291, R295, R297, R302, R309). -/
inductive WaitKind
  | counterGe (threshold : Word64)
  | lockTurn (ticket : BitVec 32)
  | condTurn
  | barrierPhase (phase : BitVec 32)
  | queuePut (item : LineBits)
  | queueTake
  deriving DecidableEq, Repr

/-- A wait entry of an escapement (R279): the cell, the waiter's module, incarnation, strand and location, the operation, the arrival
number, and how many 32-byte entries it takes (R312). -/
structure Wait where
  pa      : Nat
  number  : Nat
  mid     : Nat
  inc     : Nat
  who     : StrandId
  loc     : BitVec 32
  hyp     : BitVec 20
  ls      : BitVec 8
  /-- The waiter is a strand of a dynamic family of another module (R331). -/
  dynamic : Bool
  kind    : WaitKind
  entries : Nat
  /-- It lies in the part's spill region, not in the escapement (R279). -/
  spilled : Bool
  /-- Releases of the condition it was moved from (R213, R297). -/
  rels    : List Rel
  deriving DecidableEq, Repr

/-- A wake on its way to a strand of this module (R282). -/
structure Wake where
  id   : Nat
  who  : StrandId
  res  : WakeResult
  /-- Releases on the cell before it, for its acquire (R213, R214). -/
  rels : List Rel
  deriving DecidableEq, Repr

/-- A strand's park: where the wait stands, the destinations of what it brings, its live set, and when it parked. -/
structure Park where
  mid     : Nat
  /-- The cell's address there. -/
  pa      : Nat
  handle  : Word64
  gst     : BitVec 6
  /-- It is a put; a take's destination. -/
  puts    : Bool
  take    : Option (Src × BitVec 6 × BitVec 6)
  /-- Local-store address and length of a take with SRC = ls. -/
  la      : Nat
  len     : Nat
  ls      : BitVec 8
  since   : Nat
  /-- The result of a wake that came while the strand was not PARKED (R282, R313), and the releases it brought. -/
  result  : Option WakeResult
  rels    : List Rel
  deriving DecidableEq, Repr

/-! ### Cells (spec/14_cell.md) -/

/-- Type tags of granules (R274). -/
inductive CellTag | free | counter | barrier | lock | queue | cond | qslot
  deriving DecidableEq, Repr

/-- A granule of a SYNC page (R274, R276): its tag and generation, and for a typed one the fields of its header and the three 64-bit
words of its body. A granule not listed is FREE with generation 0. -/
structure Granule where
  pa   : Nat
  tag  : CellTag
  gen  : BitVec 16
  abn  : Bool
  psn  : Bool
  dead : Bool
  ogen : BitVec 8
  own  : BitVec 12
  /-- The strand that holds a lock, by name: HOLDER gives only where it stood at the grant (R276, R295). -/
  held : Option StrandId
  b1   : Word64
  b2   : Word64
  b3   : Word64
  /-- The mutating operations performed on the cell, the latest of each party, as releases (R213). -/
  rels : List Rel
  deriving DecidableEq, Repr

/-- Who made a post (R234, R325, R332, R335, R387), or the remote party whose operation is on its way to the escapement. -/
inductive PostSource
  | job (jid : BitVec 16) (loc : BitVec 32) (lid sidx : Nat)
  | launch (lid : Nat)
  | resolve
  | governor (granule lqi : Nat)
  | record
  | remote (p : Packet)
  deriving DecidableEq, Repr

/-- A cell operation of a party that is no strand of this module, on its way to its escapement (R277). -/
structure Post where
  id     : Nat
  cix    : Nat
  source : PostSource
  handle : Word64
  hyp    : BitVec 20
  op     : CellOp
  /-- Who makes it, and what happens before it (R218). -/
  party  : Party
  view   : View
  /-- Sent to another module, whose answer it waits for: the module, and the packet's number (R234, R277). -/
  sent   : Option (Nat × BitVec 16)
  deriving DecidableEq, Repr

/-! ### Copy jobs (spec/11_copy.md) -/

/-- The copy instructions that enqueue a job. -/
inductive CopyOp | cpy | cpyc | cpym | cpyg | cpys | cpyr
  deriving DecidableEq, Repr

/-- States of a job (R232). -/
inductive JobStatus | queued | running | done | faulted (code : FaultCode) | ended
  deriving DecidableEq, Repr

/-- A copy job with its captures (R229). Chunks not yet performed are ranges (first, count) of chunk numbers. -/
structure Job where
  n        : Nat
  who      : StrandId
  place    : CoreLoc
  jid      : BitVec 16
  op       : CopyOp
  form     : FormC
  desc     : LineBits
  /-- Captured operand registers: source, destination, length, phase or index list, counter. -/
  src      : Word64
  dst      : Word64
  len      : Nat
  gp       : Word64
  handle   : Word64
  hyp      : BitVec 20
  st       : JobStatus
  /-- The engine's acceptance: the job it runs with, itself or one combined with it, and the CLK of that one's acceptance (R239). -/
  accepted : Option (Nat × Nat)
  pending  : List (Nat × Nat)
  /-- What it still holds in its core's footprint scoreboard and in its cluster's vault scoreboard (R230, R231). -/
  ranges   : List Range
  vranges  : List Range
  /-- It has a footprint in its core's local store (R236). -/
  inStore  : Bool
  /-- The pages it has touched, as it translated them then, and whether for writing (R233). -/
  pages    : List (Bool × Leaf)
  /-- CPYK has stopped it: once its writes are performed it ends, adding 1 or poisoning (R232, R244). -/
  ending   : Option Bool
  /-- What happens before its accesses (R215). -/
  view     : View
  deriving DecidableEq, Repr

/-! ### Faults taken -/

/-- A freezing fault (R352): its code, ADDR and INFO. -/
structure FaultInfo where
  code : FaultCode
  addr : Word64
  info : Word64
  deriving DecidableEq, Repr

/-- How the last instruction of the issuing strand ended. -/
inductive Completion
  /-- At the next instruction; a loop return may follow (R109). -/
  | seq
  /-- By a transfer to a PC (R32). -/
  | transfer (pc : BitVec 56)
  /-- A LOOP that skipped its body: the next instruction index. -/
  | skip (index : Nat)
  /-- Stalled: the issue group takes no effect yet (R37). -/
  | stall
  /-- A fault that leaves no effect (R10). -/
  | faulted (f : FaultInfo)
  /-- TRAP and BRK: complete, then faulted (R118). -/
  | trapped (f : FaultInfo)
  /-- The strand left RUN with its PC as the instruction set it. -/
  | stopped
  deriving DecidableEq, Repr

/-- A live set (R67): masks of g, v, c, f and four local-store ranges (offset and length in bytes). -/
structure LiveSet where
  g  : BitVec 64
  v  : BitVec 48
  c  : BitVec 4
  f  : BitVec 4
  ls : List (Nat × Nat)
  deriving DecidableEq, Repr

/-- Where a strand under a pending pre-emption stopped (R347). -/
inductive StopPoint
  | point (ls : BitVec 8)
  | wait (ls : BitVec 8)
  | boundary
  deriving DecidableEq, Repr

/-- A continuation record (R349): its KIND and live-set index, its effective live set, its place in the save region, and the local-store
bytes it keeps. The register values stand in the strand; what the live set does not name is undefined at the restore (R90). -/
structure Saved where
  kind    : Nat
  ls      : BitVec 8
  live    : LiveSet
  addr    : Nat
  len     : Nat
  store   : List Host.Cell
  /-- The strand stopped at a wait that has not issued (R347). -/
  atWait  : Bool
  deriving DecidableEq, Repr

/-- What the elements of an accumulator hold (R87): zero bits, FP32 or INT32. -/
inductive AccKind | clear | float | integer
  deriving DecidableEq, Repr

/-- A strand (R89-R110). -/
structure Strand where
  id      : StrandId
  place   : CoreLoc
  status  : StrandStatus
  pc      : BitVec 56
  /-- Control arrived at pc by a transfer (R31 step 4). -/
  byTransfer : Bool
  g       : Vector Word64 64
  k       : BitVec 8
  v       : Vector VecBits 48
  vres    : Vector Residency 48
  m       : Vector LineBits 8
  c       : Vector TileBits 4
  ckind   : Vector AccKind 4
  f       : Vector FullEmpty 4
  d       : Vector LineBits 16
  loops   : List LoopEntry
  pls     : BitVec 8
  fmn     : Bool
  orp     : Bool
  fu      : Bool
  rsm     : Bool
  ap      : Bool
  dz      : Bool
  vflags  : FloatFlags
  scnt    : Nat
  gx      : BitVec 16
  gy      : BitVec 16
  gz      : BitVec 16
  nx      : BitVec 16
  ny      : BitVec 16
  nz      : BitVec 16
  /-- HCUR: GEN at [19:12], ID at [11:0] (R95). -/
  hcur    : BitVec 20
  bud     : Nat
  seqTag  : BitVec 16
  /-- Unacknowledged tags, oldest first (R190), and the tags of discarded stores with their virtual address and whether an
  uncorrectable error discarded them (R189, R423). -/
  unacked : List (BitVec 16)
  lost    : List (BitVec 16 × Word64 × Bool)
  /-- Registers whose load proved uncorrectable, with the load's PC and virtual address (R189, R355). -/
  spoiled : List (BitVec 6 × BitVec 56 × Word64)
  /-- The same for the v registers of VLDG. -/
  spoiledV : List (Nat × BitVec 56 × Word64)
  jseq    : BitVec 16
  luta    : Word64
  lutb    : Word64
  weight  : Nat
  /-- Kernel table entry and entry index (R327). -/
  kid     : Nat
  ent     : Nat
  /-- The core's recipe table, as it was loaded at the strand's placement (R401). -/
  recipes : List (List SlotBits)
  vq      : List VecCommand
  tq      : List TileCommand
  blocked : Option Blocked
  /-- The answered access of the other slot of a pair, both of whose slots wait for other modules (R37). -/
  answered : Option Blocked
  /-- The code line of a blocked instruction, or one of another module (R25): its module, address and seal generation, and its bytes once they
  have come. -/
  line    : Option (Nat × Nat × BitVec 32 × Option LineBits)
  park    : Option Park
  /-- The strand stopped at a pre-emption point and waits to be saved (R347). -/
  stop    : Option StopPoint
  saved   : Option Saved
  /-- Bindings that a register has lost at issue, each with its register and the stamp of the command that replaces it: until the unit runs that
  command, the binding has its entry of the pool, and an RCP.QRY before it tells of it (R403, R407). -/
  past    : List (Nat × Nat × Binding)
  /-- v registers that the record of the latest restore did not name: their values are undefined until they are rewritten (R90, R410). -/
  hollow  : List Nat
  /-- What happens before its next access; what happens before a copy job it enqueues (R215); the scopes of its release fences; the releases
  that its plain loads and cell reads have read from, for a later fence (R213); those of its cell reads, which the fence also orders before copy jobs
(R218). -/
  view    : View
  jobView : View
  fences  : List Scp
  heard   : List Rel
  heardCell : List Rel
  /-- Cells of other modules whose lock it holds (R295): module, address there, handle. -/
  afar    : List (Nat × Nat × Word64)
  deriving DecidableEq, Repr

/-! ### Cores and units -/

/-- A line of an L1 (R186, R385): its address, its hypothesis tag, whether its page was sealed, its bytes. -/
structure L1Line where
  /-- The module whose line it is, and the line. -/
  mid     : Nat
  line    : Nat
  hyp     : BitVec 20
  isSealed : Bool
  /-- Its page has HYP. -/
  ofHyp   : Bool
  entry   : Nat
  /-- Virtual base of its page and log2 of the page's size, for TLB.INV (R269). -/
  vbase   : Nat
  bits    : Nat
  /-- The page's seal generation, and the number of the access that read the line. -/
  sgen    : BitVec 32
  seen    : Nat
  data    : BitVec 1024
  deriving DecidableEq, Repr

/-- A core: its local store and its L1, newest line first. -/
structure Core where
  loc   : CoreLoc
  store : List Host.Cell
  l1    : List L1Line
  deriving DecidableEq, Repr

/-! ### Parts, kernels, launches, groups -/

/-- One entry of an image (R66): its instruction index from the start of the code section and its local store in bytes. -/
structure KernelEntry where
  index : Nat
  store : Nat
  /-- Its name, the 16 bytes from offset 16. -/
  name  : BitVec 128
  deriving DecidableEq, Repr

/-- The fields of an image header (R66): offset and length in bytes of each section and table, and DIGEST. -/
structure ImageHeader where
  code    : Nat × Nat
  ro      : Nat × Nat
  ent     : Nat × Nat
  live    : Nat × Nat
  rcp     : Nat × Nat
  digest  : BitVec 256
  deriving DecidableEq, Repr

/-- States of a kernel table entry (R330); ABSENT entries are not listed. -/
inductive KernelStatus | loading | loaded | retiring
  deriving DecidableEq, Repr

/-- A kernel table entry (R328): the image's address, the copies of its tables, the recorded generations, ACTV. -/
structure Kernel where
  kid     : Nat
  kimg    : Word64
  st      : KernelStatus
  /-- A copy has been taken (an entry reloading with ACTV > 0 keeps its earlier one). -/
  copied  : Bool
  header  : ImageHeader
  entries : List KernelEntry
  lives   : List LiveSet
  recipes : List (List SlotBits)
  sgens   : List (Nat × BitVec 32)
  actv    : Nat
  deriving DecidableEq, Repr

/-- A record of a fault or an event (R353). -/
structure Record where
  code : FaultCode
  sub  : Byte
  frz  : Bool
  pair : Bool
  ext  : Bool
  held : Bool
  sidx : Nat
  lid  : BitVec 32
  pc   : Word64
  rpc  : Word64
  addr : Word64
  info : Word64
  ghnd : Word64
  loc  : BitVec 32
  hyp  : BitVec 20
  clk  : Word64
  deriving DecidableEq, Repr

/-- A record on its way to the foreman's fault queue of a part (R354, R357): the strand whose tags it waits for. -/
structure Delivery where
  id     : Nat
  cix    : Nat
  after  : Option (StrandId × List (BitVec 16))
  record : Record
  deriving DecidableEq, Repr

/-- States of a group (R343); RETIRED groups are not listed. -/
inductive GroupStatus | unplaced | resident | frozen | saving | swapped | ready
  deriving DecidableEq, Repr

/-- A group (R342-R350). -/
structure Group where
  id      : GroupId
  st      : GroupStatus
  /-- GRP.FRZ holds it from placement (R363). -/
  held    : Bool
  /-- A pre-emption is pending since this CLK (R119, R347). -/
  preempt : Option Nat
  /-- CLK of its latest freeze: grace does not run while it is FROZEN (R344). -/
  frozenAt : Nat
  /-- It was pre-empted for an overrun: not placed before the next replenishment (R323, R344). -/
  overrun : Bool
  /-- Its reservation in the save region: offset and length in bytes, and the bytes already taken by records (R346). -/
  reserve : Option (Nat × Nat × Nat)
  /-- SAVEFULL has been sent (R347). -/
  fullSent : Bool
  /-- The strands that ran when it froze: each may still fault in the very cycle of the freeze (R354). -/
  running : List Nat := []
  deriving DecidableEq, Repr

/-! ### Launch queues, launches, governors, families (spec/16_queue.md, spec/17_kernel.md) -/

/-- A launch queue and its scheduler registers (R318-R321). -/
structure LaunchQueue where
  lqi      : Nat
  /-- Which CELL.INIT made it: a later queue of the same index is another one (R318). -/
  born     : Nat
  /-- Its handle and the module physical address of its header. -/
  handle   : Word64
  pa       : Nat
  period   : Word64
  budget   : Word64
  deadline : Word64
  remain   : Word64
  /-- OVERRUN has been sent in this period (R323). -/
  overrun  : Bool
  /-- For each record in the slots, the family head of the strand that put it (0 for a family of another module) and the governed queue whose governor put
it, with that queue's generation (R325, R331, R336). -/
  origins  : List (Option Nat × Option Nat × BitVec 16)
  deriving DecidableEq, Repr

/-- What the host's window shows of a launch queue index (R319): HQS.LAST, HQS.ACC and HQR.REF. -/
structure HostWindow where
  lqi  : Nat
  last : Byte
  acc  : BitVec 32
  ref  : BitVec 32
  deriving DecidableEq, Repr

/-- States of a launch (R333); REFUSED and ENDED launches are not listed. -/
inductive LaunchStatus | checking | placing | running
  deriving DecidableEq, Repr

/-- A launch (R326, R333): its record's fields and how far its groups have come. -/
structure Launch where
  lid      : Nat
  /-- The queue it was taken from: its index and which one of that index (R318). -/
  lqi      : Nat
  born     : Nat
  st       : LaunchStatus
  kimg     : Word64
  kid      : Nat
  ent      : Nat
  dyn      : Bool
  flq      : Option Nat
  scnt     : Nat
  nx       : Nat
  ny       : Nat
  nz       : Nat
  hyp      : BitVec 20
  ctrh     : Word64
  args     : List Word64
  /-- The head of its family (R336). -/
  family   : Option Nat
  /-- The governed queue that started it, and its generation (R325). -/
  governed : Option Nat
  govGen   : BitVec 16
  /-- What happens before its strands start, by the take of its record (R213, R318), and what the copy jobs of its strands that have ended had done
  (R335). -/
  view     : View
  jobsView : View
  /-- Groups below next have been dealt, but for the held ones; dropped groups were killed before placement. -/
  next     : Nat
  heldBack : List Nat
  dropped  : List Nat
  deriving DecidableEq, Repr

/-- A bound governor's template (R324). -/
structure Governor where
  granule  : Nat
  template : LineBits
  deriving DecidableEq, Repr

/-- A dynamic family (R336): counts SENT and RECV at each core, RECV at the scheduler, and the last sweep's sums when it agreed. -/
structure Family where
  head    : Nat
  counts  : List (CoreLoc × Nat × Nat)
  recv    : Nat
  /-- CLK of the last sweep, and its sums when it agreed. -/
  sweptAt : Option Nat
  agreed  : Option (Nat × Nat)
  deriving DecidableEq, Repr

/-! ### Hypotheses (spec/22_hypothesis.md) -/

/-- States of a hypothesis (R380); FREE entries that were never open are not listed. -/
inductive HypStatus | free | opened | confirmed | refuted
  deriving DecidableEq, Repr

/-- A table entry (R378). Swept: a pass begun after its resolve completed has ended on these slices (R380). -/
structure HypEntry where
  id       : Nat
  gen      : BitVec 8
  st       : HypStatus
  parent   : Nat
  depth    : Nat
  cause    : Nat
  resolved : Bool
  swept    : List ClusterLoc
  /-- It was confirmed into an entry that was then REFUTED and is FREE again: it has no effective hypothesis any more. -/
  lost     : Bool
  /-- The other modules that have not said yet that they have swept their slices and use it no more, each with the number of the packet that asks. -/
  away     : List (Nat × BitVec 16) := []
  deriving DecidableEq, Repr

/-- What the table's module asks of this one about hypotheses whose resolve is complete (R380): the slices swept since, and the packet that asks. -/
structure Sweep where
  tags  : List (BitVec 20)
  swept : List ClusterLoc
  asker : Packet
  deriving DecidableEq, Repr

/-- A resolve on its way to the sites (R387): the verdict, the tags it concerns, the effective hypothesis of a confirm, the counter to
post, and the sites that have applied it. -/
structure Resolve where
  rid     : Nat
  hyp     : BitVec 20
  confirm : Bool
  tags    : List (BitVec 20)
  target  : BitVec 20
  /-- The OPEN children it re-parented: a home that has not applied it still takes them as children of the confirmed one. -/
  kids    : List Nat
  handle  : Option Word64
  sites   : List Nat
  /-- Modules of other parts of the context that have not acknowledged it, each with the number of its packet, and the packet that brought it here
  from the table's module. -/
  mods    : List (Nat × BitVec 16)
  asker   : Option Packet
  /-- What happens before its completion post (R391). -/
  view    : View
  deriving DecidableEq, Repr

/-- A version of a line (R382), at the home slice of its line (R383). -/
structure Version where
  cix      : Nat
  line     : Nat
  tag      : BitVec 20
  data     : BitVec 1024
  mask     : BitVec 128
  resident : Bool
  used     : Nat
  deriving DecidableEq, Repr

/-! ### The debug block of a site (R196) -/

structure HomeDebug where
  site    : Nat
  wbase   : Vector Word64 4
  wctl    : Vector Word64 4
  mixtrap : Bool
  deriving DecidableEq, Repr

/-- States of a part (R247). -/
inductive PartStatus | free | configuring | locked | run | quiescing | scrubbing | error
  deriving DecidableEq, Repr

/-- A part: its registers (R246) and its tables. -/
structure Part where
  cix     : Nat
  st      : PartStatus
  cause   : Byte
  cid     : Word64
  csite   : Word64
  cflg    : Word64
  cfmn    : Word64
  cfki    : Word64
  cptr    : Word64
  chbm    : Vector Word64 8
  csavb   : Word64
  csavl   : Word64
  cwlb    : Word64
  cwll    : Word64
  cvsb    : Word64
  cvsl    : Word64
  cswt    : Word64
  ctsq    : Word64
  ckey    : Word64
  cgrace  : Word64
  cdpol   : Word64
  cdrec   : LineBits
  chtm    : Word64
  mill    : Vector Word64 16
  swapt   : Word64
  /-- The shared key slot is filled (R257). -/
  sslot   : Bool
  fqh     : Word64
  lost    : BitVec 32
  buffer  : List Record
  /-- A fault of the foreman not yet dealt with (R360). -/
  double  : Option Record
  /-- The foreman has completed a take since its last restart (R361). -/
  taken   : Bool
  lidNext : Nat
  kernels : List Kernel
  queues  : List LaunchQueue
  /-- Host windows that are not all zero. -/
  windows : List HostWindow
  launches : List Launch
  governors : List Governor
  families : List Family
  hyps    : List HypEntry
  resolves : List Resolve
  sweeps  : List Sweep
  debug   : List HomeDebug
  /-- Logical cores in ascending number (R338). -/
  logical : List CoreLoc
  /-- Sites of the part that have been retired or are draining (R438). -/
  draining : Option Nat
  gone    : List Nat
  /-- The part is the current one of its ring, since a CLK; a part outside a ring always is (R252). -/
  current : Bool
  since   : Nat
  /-- Measurements 3 to 7 (R259), the nonce of the last CHALLENGE, and the keys of its slots (R257). -/
  measures : List (Nat × BitVec 256)
  nonce   : BitVec 256
  privateKey : BitVec 512
  sharedKey : BitVec 512
  deriving DecidableEq, Repr

/-! ### Slices, clusters, sites (spec/09_line.md R187, R192; spec/26_platform.md) -/

/-- A line held in a slice (R192). -/
structure SliceLine where
  line  : Nat
  dirty : Bool
  evp   : Nat
  used  : Nat
  deriving DecidableEq, Repr

/-- A slice: its resident lines, miss entries and what waits for one, write-back entries, replicas, hot-line array (newest first), sleep, and the CLK of its
last request (R187, R192, R278, R434). -/
structure Slice where
  loc      : ClusterLoc
  lines    : List SliceLine
  misses   : List (Nat × Nat × Bool)
  /-- Requests that found every miss entry busy, in arrival order. -/
  queue    : List Nat
  backs    : List Nat
  replicas : List L1Line
  hot      : List Nat
  asleep   : Bool
  lastUse  : Nat
  deriving DecidableEq, Repr

/-- The turns of a cluster's units: the core its vector units and its copy engine served last, and the tile arbiter's place and credit
(R104, R170). -/
structure Turns where
  loc    : ClusterLoc
  vec0   : Nat
  vec1   : Nat
  copy   : Nat
  place  : Nat
  credit : Nat
  deriving DecidableEq, Repr

/-- An entry of the scrivener (R435). -/
structure Scrivened where
  clk  : Word64
  kind : Nat
  code : Byte
  cix  : Nat
  port : Nat
  seqNo : BitVec 32
  loc  : BitVec 32
  addr : Word64
  info : BitVec 32
  deriving DecidableEq, Repr

/-- A site's registers (R433, R436, R438) and its scrivener, newest entry first. -/
structure Site where
  n       : Nat
  grant   : Nat
  duty    : Nat
  tripped : Bool
  trips   : Nat
  stat    : Nat
  next    : BitVec 32
  events  : List Scrivened
  deriving DecidableEq, Repr

/-! ### Links (spec/25_link.md) -/

/-- States of a port (R419, R420). -/
inductive PortStatus | down | training | auth | up | retraining | fenced
  deriving DecidableEq, Repr

/-- A Ranfen port (R419-R421, R425): its registers, key phase, flits received under the key, when it retrained, and the packets of
verified frames that await forwarding, with the last sequence number accepted. -/
structure Port where
  n        : Nat
  st       : PortStatus
  rtr      : Nat
  pinc     : Nat
  pmid     : Nat
  phase    : Bool
  flits    : Nat
  /-- Key phase of the frames it sends. -/
  sending  : Bool
  retrains : List Nat
  waiting  : List Packet
  accepted : Option (BitVec 16)
  /-- The number of the packet that has come in part (R425). -/
  begun    : Option (BitVec 16) := none
  /-- The CLK at which it began to send under its key (R421). -/
  keyed    : Nat := 0
  /-- A live update has still to retrain it (R437). -/
  due      : Bool := false
  /-- In AUTH, the session has not told PMID and PINC yet. -/
  asking   : Bool := false
  deriving DecidableEq, Repr

/-- What this module knows of a peer (R420, R422, R423): the recorded incarnation, whether it is lost, and since when no port of it
offers a path. -/
structure Peer where
  mid      : Nat
  inc      : Nat
  lost     : Bool
  pathless : Option Nat
  deriving DecidableEq, Repr

/-- A die-to-die boundary (R416): replays failed in succession, and whether it is out of service. -/
structure Boundary where
  n      : Nat
  failed : Nat
  out    : Bool
  deriving DecidableEq, Repr

/-- CXL.cache states of a half of a device line (R429); halves in I are not listed. -/
inductive HalfStatus | exclusive | modified | shared
  deriving DecidableEq, Repr

/-- A contribution that a switch holds (R427). -/
structure Contribution where
  line   : Nat
  cix    : Nat
  packet : Packet
  deriving DecidableEq, Repr

/-- A TLB.INV under way (R269): the sites of this module that have acknowledged it, the other modules that have not, and
the packet that asked for it when its foreman is on another module. -/
structure Invalidation where
  n     : Nat
  cix   : Nat
  base  : Nat
  len   : Nat
  acked : List Nat
  mods  : List Nat
  asker : Option Packet
  deriving DecidableEq, Repr

/-- An access that a home has performed, for the races of R195 and R219: its bytes, whether it writes and whether as an ATOM or CAS, its
party and number (R218), its tag on a HYP page (R382), when and as which access it was performed, and the releases it carries (R213). -/
structure Recent where
  pa     : Nat
  size   : Nat
  write  : Bool
  atomic : Bool
  party  : Party
  number : Nat
  tag    : BitVec 20
  loc    : BitVec 32
  at_    : Nat
  seen   : Nat
  rels   : List Rel
  /-- The leaf entry through which a strand of this module wrote, for what R271 leaves undefined. -/
  entry  : Option Nat
  /-- The bytes that a write replaced: what a copy job may still read where nothing orders the write before the job (R215). -/
  old    : Nat := 0
  deriving DecidableEq, Repr

/-- The strand as it stood before a pair that issues (R37), and the stamps that are the pair's own: those from since on. -/
structure PairView where
  before : Strand
  since  : Nat
  deriving DecidableEq, Repr

/-- What leaves the module: requests, responses and wakes to other modules, and answers to the host. -/
inductive Outgoing
  | request (mid : Nat) (who : Party) (p : Packet)
  | response (mid : Nat) (seqNo : BitVec 16) (answer : Answer)
  | wake (mid : Nat) (who : StrandId) (res : WakeResult)
  | hostData (addr : Nat) (bytes : List Byte)
  | hostError (addr : Nat)
  /-- A read of the control registers, made on the PCIe function (R6, R428), and a request on it that is refused: Unsupported Request (R424). -/
  | registerData (addr : Nat) (bytes : List Byte)
  | unsupported (addr : Nat)
  /-- Measurements, and the signature over their transcript (R259, R260). -/
  | attest (cix : Nat) (nonce : BitVec 256) (digests : List (Nat × BitVec 256)) (signature : BitVec 62848)
  deriving DecidableEq, Repr

/-- The firmware (R261): its image's digest and security version, and whether it verified at load. -/
structure Firmware where
  digest   : BitVec 256
  secVer   : BitVec 32
  verified : Bool
  deriving DecidableEq, Repr

/-! ### Moves -/

/-- What the agenda names as the next move: the strand that issues, another agent's step, or the passing of cycles. -/
inductive Move
  | issue (who : StrandId)
  | act (i : Instr)
  | tick (n : Nat)
  deriving DecidableEq, Repr

/-! ### The whole -/

/-- Why a step stops. -/
inductive Fault
  /-- A slot instruction was executed with no strand in RUN to execute it: raised by every strand instruction when the issuing strand is not
  in RUN. Safe: the hardware issues nothing there. -/
  | noStrand
  deriving DecidableEq, Repr

/-- Why an instruction has no meaning. -/
inductive Refusal
  /-- Raised by an arm of exec that has no meaning yet. Safe. -/
  | notModelled (mnemonic : String)
  deriving DecidableEq, Repr

/-- The state of one module. -/
structure State where
  /-- The strand that issues (the model's own field, assumption 7). -/
  cur      : Strand
  others   : List Strand
  cores    : List Core
  /-- Module physical memory: HBM, vaults, host memory. -/
  mem      : List Host.Cell
  /-- Lines of HBM that an access has written, each with whether under the shared key of its part (R257). -/
  keys     : List (Nat × Bool)
  /-- Lines with an uncorrectable error (R188). -/
  badLines : List Nat
  /-- Leaf entries whose word 1 software wrote while V was set (R264). -/
  scribbled : List Nat
  net      : List Request
  recent   : List Recent
  /-- What happens before the next access of the host, and of each party of another module as this module has seen it. -/
  views    : List (Party × View)
  tlb      : List TlbEntry
  ptrs     : List PointerEntry
  /-- Walks under way on the dies' walkers. -/
  walks    : List Walk
  /-- Frames of other modules that their homes have found usable (R266): the part, the module, base, and log2 of the size. -/
  frames   : List (Nat × Nat × Nat × Nat)
  /-- The releases that went to other modules: the module, the packet's number, and what they carry (R213). -/
  sentRels : List (Nat × BitVec 16 × List Rel)
  /-- What strands that stopped have given up at homes on other modules that have not acknowledged it: the strand, the module, the packet's number
  (R282, R363). -/
  givenUp  : List (StrandId × Nat × BitVec 16)
  /-- The number of the access after which each leaf entry has been SEALED, for what R271 leaves undefined. -/
  sealedAt : List (Nat × Nat)
  invs     : List Invalidation
  cells    : List Granule
  waits    : List Wait
  wakes    : List Wake
  posts    : List Post
  jobs     : List Job
  versions : List Version
  parts    : List Part
  groups   : List Group
  records  : List Delivery
  slices   : List Slice
  turns    : List Turns
  sites    : List Site
  /-- HMAP: the mask of each module cluster (R23), 640 masks. -/
  hmap     : List Byte
  /-- VBND.WIN of the clusters where it is not 4 (R182). -/
  vbnd     : List (ClusterLoc × Nat)
  ports    : List Port
  peers    : List Peer
  bounds   : List Boundary
  bridge   : List (Nat × HalfStatus)
  mill     : List Contribution
  out      : List Outgoing
  mid      : Nat
  inc      : Nat
  lostt    : Nat
  firmware : Firmware
  clk      : Word64
  /-- The agenda of moves (assumption 1), the strand as it was before a pair that issues (R37, R355), how the last instruction ended,
  and the counter that names free values and stamps (assumptions 7 and 9). -/
  agenda   : List Move
  opnd     : Option PairView
  last     : Completion
  fresh    : Nat
  deriving DecidableEq, Repr

/-! ### The machine right after a module cold reset (R7) -/

/-- A strand at its start, with the state of R89 and no launch's values. -/
def Strand.blank (id : StrandId) (place : CoreLoc) : Strand :=
  { id := id, place := place, status := .run, pc := 0, byTransfer := false
    g := Vector.replicate 64 0, k := 1, v := Vector.replicate 48 0
    vres := Vector.replicate 48 { held := false, anchored := false, binding := none }
    m := Vector.replicate 8 0, c := Vector.replicate 4 0, ckind := Vector.replicate 4 .clear
    f := Vector.replicate 4 { value := 0, arrived := false, producers := [] }, d := Vector.replicate 16 0
    loops := [], pls := 0, fmn := false, orp := false, fu := false, rsm := false, ap := false, dz := false, vflags := 0
    scnt := 1, gx := 0, gy := 0, gz := 0, nx := 1, ny := 1, nz := 1, hcur := 0, bud := 36
    seqTag := 0, unacked := [], lost := [], spoiled := [], spoiledV := [], jseq := 0, luta := 0, lutb := 0, weight := 8
    kid := 0, ent := 0, recipes := [], vq := [], tq := [], blocked := none, answered := none, line := none, park := none, stop := none, saved := none
    past := [], hollow := [], view := [], jobView := [], fences := [], heard := [], heardCell := [], afar := [] }

/-- No strand runs after reset: the issuing place holds an ended one. -/
def noStrandYet : Strand :=
  { Strand.blank { grp := { cix := 0, lid := 0, lgi := 0 }, sidx := 0 } { site := 0, cluster := 0, core := 0 } with
    status := .exited, bud := 0 }

/-- Every part is FREE, every port DOWN, nothing is placed and nothing is in flight; HMAP has no fused core (assumption 5), MID is 0, INC
is 1 and the firmware loaded at reset verified (assumption 6). -/
def State.reset : State :=
  { cur := noStrandYet, others := [], cores := [], mem := [], keys := [], badLines := [], scribbled := [], net := [], recent := [], views := [], tlb := [], ptrs := [], walks := [], frames := [], sentRels := [], givenUp := [], sealedAt := []
    invs := [], cells := [], waits := [], wakes := [], posts := [], jobs := [], versions := [], parts := [], groups := []
    records := [], slices := [], turns := [], sites := [], hmap := List.replicate 640 0xFF, vbnd := [], ports := [], peers := []
    bounds := [], bridge := [], mill := [], out := [], mid := 0, inc := 1, lostt := 100000
    firmware := { digest := 0, secVer := 0, verified := true }
    clk := 0, agenda := [], opnd := none, last := .seq, fresh := 0 }

end Sys2Proof.Machine
end

