-- ==== Sys2Proof/Machine/Ops.lean ====
section
/-! DEFINITION. Named operations over the state: bytes of memory and local stores, strands, registers, how an instruction ends, and
taking a fault (spec/19_fault.md R352-R355). -/

namespace Sys2Proof.Machine

/-! ### Bytes (one canonical form: addresses strictly rising, no entry equal to 0; assumptions 2 and 3) -/

/-- What an address that is not listed reads as. -/
def emptyByte : Byte := 0

/-- One byte. -/
def readByte : List Host.Cell → Nat → Byte
  | [], _ => emptyByte
  | (a, b) :: rest, x => if x = a then b else if x < a then emptyByte else readByte rest x

/-- One byte written; writing what an unlisted address reads as removes the entry. -/
def writeByte : List Host.Cell → Nat → Byte → List Host.Cell
  | [], x, y => if y = emptyByte then [] else [(x, y)]
  | (a, b) :: rest, x, y =>
    if x < a then (if y = emptyByte then (a, b) :: rest else (x, y) :: (a, b) :: rest)
    else if x = a then (if y = emptyByte then rest else (x, y) :: rest)
    else (a, b) :: writeByte rest x y

/-- n bytes from an address up, little-endian (R1). -/
def readNat (m : List Host.Cell) (x : Nat) : Nat → Nat
  | 0 => 0
  | n + 1 => (readByte m x).toNat + 256 * readNat m (x + 1) n

/-- n bytes of a number from an address up, little-endian. -/
def writeNat (m : List Host.Cell) (x : Nat) (v : Nat) : Nat → List Host.Cell
  | 0 => m
  | n + 1 => writeNat (writeByte m x (BitVec.ofNat 8 v)) (x + 1) (v / 256) n

/-- Bytes at the addresses listed. -/
def writeBytes (m : List Host.Cell) : List (Nat × Byte) → List Host.Cell
  | [] => m
  | (x, y) :: rest => writeBytes (writeByte m x y) rest

/-- A w-bit value of n bytes. -/
def readBits (w : Nat) (m : List Host.Cell) (x n : Nat) : BitVec w := BitVec.ofNat w (readNat m x n)

/-- The canonical form. -/
def wfFrom : Nat → List Host.Cell → Bool
  | _, [] => true
  | lo, (a, b) :: rest => decide (lo ≤ a) && b != emptyByte && wfFrom (a + 1) rest
def Memory.wf (m : List Host.Cell) : Bool := wfFrom 0 m

/-! ### Strands, cores, parts, groups by name -/

/-- The first entry of a list that a test accepts, replaced; the list unchanged when there is none. -/
def replaceFirst {α : Type} (p : α → Bool) (x : α) : List α → List α
  | [] => []
  | a :: rest => if p a then x :: rest else a :: replaceFirst p x rest

/-- Every strand of the machine, the issuing one first. -/
def State.strands (s : State) : List Strand := s.cur :: s.others
def State.strand? (s : State) (id : StrandId) : Option Strand := s.strands.find? fun t => t.id = id
/-- A strand put back under its name. -/
def State.setStrand (s : State) (t : Strand) : State :=
  if s.cur.id = t.id then { s with cur := t }
  else { s with others := replaceFirst (fun u => decide (u.id = t.id)) t s.others }
/-- A strand made the issuing one, and the issuing one put in its place. -/
def State.focus (s : State) (id : StrandId) : State :=
  if s.cur.id = id then s else
  match s.others.find? fun t => t.id = id with
  | none => s
  | some t => { s with cur := t, others := replaceFirst (fun u => decide (u.id = id)) s.cur s.others }
/-- An effect on a strand that need not be the issuing one. -/
def State.onStrand (s : State) (id : StrandId) (k : State → State) : State :=
  if (s.strand? id).isSome then (k (s.focus id)).focus s.cur.id else s
def State.mapStrands (s : State) (f : Strand → Strand) : State := { s with cur := f s.cur, others := s.others.map f }

/-- A core; one that is not listed has an empty local store and L1. -/
def State.core (s : State) (loc : CoreLoc) : Core := (s.cores.find? fun c => c.loc = loc).getD { loc := loc, store := [], l1 := [] }
def State.setCore (s : State) (c : Core) : State :=
  { s with cores := if s.cores.any (fun d => d.loc = c.loc) then replaceFirst (fun d => decide (d.loc = c.loc)) c s.cores else c :: s.cores }
/-- The issuing strand's core. -/
def State.curCore (s : State) : Core := s.core s.cur.place

def State.part? (s : State) (cix : Nat) : Option Part := s.parts.find? fun p => p.cix == cix
def State.setPart (s : State) (p : Part) : State := { s with parts := replaceFirst (fun q => q.cix == p.cix) p s.parts }
/-- A part changed, if there is one. -/
def State.updPart (s : State) (cix : Nat) (f : Part → Part) : State :=
  { s with parts := s.parts.map fun p => if p.cix = cix then f p else p }
/-- The issuing strand's part index. -/
def State.cix (s : State) : Nat := s.cur.id.grp.cix
def State.group? (s : State) (id : GroupId) : Option Group := s.groups.find? fun g => g.id = id
def State.updGroup (s : State) (id : GroupId) (f : Group → Group) : State :=
  { s with groups := s.groups.map fun g => if g.id = id then f g else g }

/-- A fresh stamp. -/
def State.bump (s : State) : State := { s with fresh := s.fresh + 1 }

def coreCluster (l : CoreLoc) : ClusterLoc := { site := l.site, cluster := l.cluster }
/-- Cores 0-3 form half 0 (R18). -/
def coreHalf (l : CoreLoc) : HalfLoc := { site := l.site, cluster := l.cluster, half := l.core / 4 }

/-- The kernel of a strand, and its entry (R327, R328). -/
def State.kernelOf (s : State) (t : Strand) : Option Kernel :=
  (s.part? t.id.grp.cix).bind fun p => p.kernels.find? fun k => k.kid == t.kid
/-- LIVE_CNT of the issuing strand's image; 0 when it has none. -/
def State.liveCount (s : State) : Nat := ((s.kernelOf s.cur).map fun k => k.lives.length).getD 0
/-- The local store that a strand's entry requires, in bytes (R66, R180). -/
def State.storeLimit (s : State) (t : Strand) : Nat :=
  (((s.kernelOf t).bind fun k => k.entries[t.ent]?).map KernelEntry.store).getD 0

/-! ### The program counter (R38) -/

def pcIndex (pc : BitVec 56) : Nat := (pc.toNat / 64) * 5 + pc.toNat % 8
def pcOf (i : Nat) : BitVec 56 := BitVec.ofNat 56 (i / 5 * 64 + i % 5)
/-- The number of instruction indices (R39). -/
def pcCount : Nat := 5 * 2 ^ 50
/-- The instruction after one. The spec says nothing of what follows the last index of the 56-bit space: here index 0 does, for the fall
through, a return PC and a skipped LOOP (assumption 59, DESIGN CHOICE). -/
def pcNext (pc : BitVec 56) : BitVec 56 := pcOf (pcIndex pc + 1)
/-- A g register as a computed target (R38): bits [63:56] and [5:3] zero, slot at most 4. -/
def pcOfReg (x : Word64) : Option (BitVec 56) :=
  if x.extractLsb' 56 8 = 0 ∧ x.extractLsb' 3 3 = 0 ∧ x.toNat % 8 ≤ 4 then some (x.setWidth 56) else none

/-! ### After an issue group (R109) -/

/-- The loop stack after an issue group of the indices lo to hi that took no transfer: where to go next, and the stack. -/
def loopReturn (lo hi next : Nat) : List LoopEntry → Nat × List LoopEntry
  | [] => (next, [])
  | e :: rest =>
    if lo ≤ e.final ∧ e.final ≤ hi then
      if 1 < e.count then (e.start, { e with count := e.count - 1 } :: rest) else loopReturn lo hi next rest
    else (next, e :: rest)
/-- The strand past an instruction that issued alone and is complete, as R109 has it: its loops, and where it resumes. -/
def Strand.passed (t : Strand) : Strand :=
  let r := loopReturn (pcIndex t.pc) (pcIndex t.pc) (pcIndex t.pc + 1) t.loops
  { t with pc := pcOf r.1, loops := r.2 }

/-! ### How an instruction ends -/

/-- The instruction is complete; the next one follows. -/
def State.done (s : State) : State := { s with last := .seq }
/-- The issue group takes no effect yet (R37). -/
def State.stall (s : State) : State := { s with last := .stall }

/-! ### Taking a fault (R354, R355) -/

/-- Where a core stands, as LOC and ID give it (R353, R136). -/
def locWord (mid : Nat) (l : CoreLoc) : BitVec 32 := BitVec.ofNat 32 (mid * 2 ^ 24 + l.site * 2 ^ 16 + l.cluster * 2 ^ 8 + l.core)
/-- The handle of a group (R363); 0 for the foreman, which has none. -/
def groupHandle (g : GroupId) : Word64 := if g.lid = 0 then 0 else BitVec.ofNat 64 (g.lid % 2 ^ 16 * 2 ^ 48 + g.lgi)

/-- Codes of records (R352). -/
def faultCodeNat : FaultCode → Nat
  | .illegalOp => 0x01
  | .cfi => 0x02
  | .parity => 0x03
  | .align => 0x04
  | .pageNotMapped => 0x05
  | .pagePerm => 0x06
  | .sealed => 0x07
  | .type => 0x08
  | .staleHandle => 0x09
  | .peerGone => 0x0A
  | .waitfull => 0x0B
  | .regBudget => 0x0C
  | .rcpFault => 0x0D
  | .rcpStale => 0x0E
  | .rcpAnchor => 0x0F
  | .hypSync => 0x10
  | .hypPage => 0x11
  | .jobFault => 0x12
  | .loop => 0x13
  | .desc => 0x14
  | .matrixOperand => 0x15
  | .brk => 0x16
  | .swTrap => 0x17
  | .mixed => 0x18
  | .overrun => 0x19
  | .double => 0x1A
  | .watch => 0x40
  | .job => 0x41
  | .refused => 0x42
  | .postFail => 0x43
  | .saveFull => 0x44
  | .notice => 0x45

/-- The record of a fault of the issuing strand: at is the PC of the instruction, resume the PC a thaw resumes at (R353). -/
def faultRecord (s : State) (pair : Bool) (at_ resume : BitVec 56) (f : FaultInfo) : Record :=
  { code := f.code, sub := 0, frz := true, pair := pair, ext := false, held := false
    sidx := s.cur.id.sidx, lid := BitVec.ofNat 32 s.cur.id.grp.lid
    pc := at_.setWidth 64, rpc := resume.setWidth 64, addr := f.addr, info := f.info
    ghnd := groupHandle s.cur.id.grp, loc := locWord s.mid s.cur.place, hyp := s.cur.hcur, clk := s.clk }

/-- Every RUN strand of a group freezes at its next instruction boundary, one that waits for an answer once its instruction has ended (R354 step 2);
PARKED strands keep their parks and freeze too (R96). -/
def freezeStrand (grp : GroupId) (t : Strand) : Strand :=
  if t.id.grp = grp ∧ ((t.status = .run ∧ t.blocked = none) ∨ t.status = .parked) then { t with status := .frozen, byTransfer := false } else t
def freezeGroup (s : State) (grp : GroupId) : State :=
  let ran := (s.strands.filter fun t => decide (t.id.grp = grp) && t.status == .run && t.stop.isNone && t.blocked.isNone).map fun t => t.id.sidx
  (s.mapStrands (freezeStrand grp)).updGroup grp fun g => if g.st = .frozen then g else { g with st := .frozen, frozenAt := s.clk.toNat, running := ran }

/-! ### Sites and the scrivener (R433, R435) -/

def blankSite (n : Nat) : Site :=
  { n := n, grant := 0, duty := 64, tripped := false, trips := 0, stat := 0, next := 0, events := [] }
def State.site (s : State) (n : Nat) : Site := (s.sites.find? fun x => x.n == n).getD (blankSite n)
def State.setSite (s : State) (x : Site) : State :=
  { s with sites := if s.sites.any (fun y => y.n == x.n) then replaceFirst (fun y => y.n == x.n) x s.sites else x :: s.sites }
/-- An event is written at a site: the last 4,096 are kept. -/
def State.scrivener (s : State) (site kind : Nat) (code : Byte) (cix port : Nat) (loc : BitVec 32) (addr : Word64) (info : BitVec 32) : State :=
  let x := s.site site
  s.setSite { x with next := x.next + 1
                     events := ({ clk := s.clk, kind := kind, code := code, cix := cix, port := port, seqNo := x.next, loc := loc, addr := addr
                                  info := info } :: x.events).take 4096 }

def siteOfLoc (loc : BitVec 32) : Nat := loc.toNat / 65536 % 32
/-- The scrivener takes a record as its event arises: KIND 1, or 5 for an overrun. -/
def State.noteRecord (s : State) (cix : Nat) (r : Record) : State :=
  if r.code = .overrun then s.scrivener (siteOfLoc r.loc) 5 0 cix 0 r.loc r.addr (r.info.setWidth 32)
  else s.scrivener (siteOfLoc r.loc) 1 (BitVec.ofNat 8 (faultCodeNat r.code)) cix 0 r.loc r.addr (r.info.setWidth 32)

/-! ### Records and faults (R352-R355) -/

/-- A record sent toward the foreman of a part, after the tags of a strand (R354 step 4). -/
def sendRecord (s : State) (cix : Nat) (after : Option (StrandId × List (BitVec 16))) (r : Record) : State :=
  { s.noteRecord cix r with records := s.records ++ [{ id := s.fresh, cix := cix, after := after, record := r }], fresh := s.fresh + 1 }

/-- PAGE_PERM at the first reader of an uncorrectable load (R189, R352): the load's PC and address. -/
def spoiledFault (e : BitVec 6 × BitVec 56 × Word64) : FaultInfo :=
  { code := .pagePerm, addr := e.2.2, info := BitVec.ofNat 64 (0x300 + e.2.1.toNat / 64 * 2 ^ 14 + e.2.1.toNat % 8 * 2 ^ 11) }
/-- What a PAGE_PERM of a discarded store or of a spoiled load leaves behind: the tag is told once (R189), and the registers the load should
have filled are undefined until rewritten (R355). -/
def Strand.told (t : Strand) (fresh : Nat) (f : FaultInfo) : Strand :=
  if f.code ≠ .pagePerm then t
  else if f.info.getLsbD 9 then
    let gs := (t.spoiled.filter fun e => decide (spoiledFault e = f)).map Prod.fst
    let vs := (t.spoiledV.filter fun e => decide (spoiledFault (0, e.2) = f)).map Prod.fst
    { t with
      spoiled := t.spoiled.filter fun e => decide (spoiledFault e ≠ f), spoiledV := t.spoiledV.filter fun e => decide (spoiledFault (0, e.2) ≠ f)
      g := gs.foldl (fun g (r : BitVec 6) => g.set r.toNat (Config.freeBits 64 (fresh * 64 + r.toNat)) r.isLt) t.g
      v := vs.foldl (fun v n => v.setIfInBounds n (Config.freeBits 4096 (fresh * 64 + n))) t.v }
  else { t with lost := t.lost.filter fun e => e.1 != f.info.extractLsb' 16 16 }

/-- A freezing fault of the issuing strand is taken: the strand and its group freeze, the resume PC is kept, and the record goes to the
foreman; a fault of the foreman is a DOUBLE (R360). -/
def takeFault (s : State) (pair : Bool) (at_ resume : BitVec 56) (f : FaultInfo) : State :=
  let r := faultRecord s pair at_ resume f
  let stopped := { s with cur := { s.cur.told s.fresh f with status := .frozen, pc := resume, byTransfer := false, blocked := none, answered := none }
                          fresh := s.fresh + 1 }
  if s.cur.fmn then (stopped.updPart s.cix fun p => { p with double := some r })
  else sendRecord (freezeGroup stopped s.cur.id.grp) s.cix (some (s.cur.id, s.cur.unacked)) r

/-- The instruction faults: it has no effect but the fault (R10). In a pair, PAIR is set and the strand resumes at the first slot
(R355). -/
def State.raise (s : State) (f : FaultInfo) : State :=
  { takeFault s s.opnd.isSome s.cur.pc ((s.opnd.map fun o => o.before.pc).getD s.cur.pc) f with last := .faulted f }
/-- A fault whose ADDR and INFO are 0. -/
def State.raiseCode (s : State) (c : FaultCode) : State := s.raise { code := c, addr := 0, info := 0 }
/-- TRAP and BRK: the instruction is complete, then the strand stops at the next one (R118): RPC is PcOf(Index(PC) + 1) wherever they stand (R355), and
no loop returns (assumption 60, DEDUCED). -/
def State.raiseAfter (s : State) (f : FaultInfo) : State := { takeFault s false s.cur.pc (pcNext s.cur.pc) f with last := .trapped f }

end Sys2Proof.Machine
end

