-- ==== Sys2Proof/Machine/Operands.lean ====
section
/-! DEFINITION. Operand forms: registers as an instruction reads and writes them (spec/02_encoding.md R37, R41, R59), addresses (R179,
R198, R202) and the frame every strand instruction stands in. -/

namespace Sys2Proof.Machine

/-! ### g and k registers -/

/-- The strand as its operands are read: in a pair, as it was before the group (R37). -/
def State.src (s : State) : Strand := (s.opnd.map PairView.before).getD s.cur
/-- Stamps of what the strand asked for before the issue group: a hazard of the group's own first slot does not stall its second (R37). -/
def State.isEarlier (s : State) (stamp : Nat) : Bool := (s.opnd.map fun o => decide (stamp < o.since)).getD true
/-- G(n): g0 reads 0. -/
def State.rdG (s : State) (n : BitVec 6) : Word64 := if n = 0 then 0 else s.src.g.get n.toFin
/-- G(n) := x; an assignment to g0 is discarded. -/
def State.wrG (s : State) (n : BitVec 6) (x : Word64) : State :=
  if n = 0 then s else { s with cur := { s.cur with g := s.cur.g.set n.toNat x n.isLt, spoiled := s.cur.spoiled.filter fun p => p.1 != n } }
/-- K(n): k0 reads 1. -/
def State.rdK (s : State) (n : BitVec 3) : Bool :=
  if n = 0 then true else s.src.k.getLsbD n.toNat
/-- A k register with one bit set to b. -/
def setBit8 (k : BitVec 8) (n : Nat) (b : Bool) : BitVec 8 := if b then k ||| BitVec.twoPow 8 n else k &&& ~~~BitVec.twoPow 8 n
/-- K(n) := b; an assignment to k0 is discarded. -/
def State.wrK (s : State) (n : BitVec 3) (b : Bool) : State :=
  if n = 0 then s else { s with cur := { s.cur with k := setBit8 s.cur.k n.toNat b } }
/-- The register after n. -/
def nextReg (n : BitVec 6) : BitVec 6 := n + 1

/-- Does the slot execute (R41)? -/
def guardHolds (grd : Guard) (s : State) : Bool := s.rdK grd.k ^^ grd.inv

/-- The frame of a strand instruction: it executes when the issuing strand is in RUN; with a false guard it has no effect (R41). -/
def issue (grd : Guard) (s : State) (body : State → State) : Host.Outcome State Fault Refusal :=
  if s.cur.status = .run then .next (if guardHolds grd s then body s else s.done) else .fault .noStrand

/-- The same for an instruction with a live set, which is checked whatever the guard (R41, R67). -/
def issueWait (grd : Guard) (ls : BitVec 8) (s : State) (body : State → State) : Host.Outcome State Fault Refusal :=
  if s.cur.status = .run then
    .next (if s.liveCount ≤ ls.toNat then s.raiseCode .illegalOp else if guardHolds grd s then body s else s.done)
  else .fault .noStrand

/-- The same for an instruction of the foreman alone, refused to any other core whatever the guard (R57). -/
def issueForeman (grd : Guard) (s : State) (body : State → State) : Host.Outcome State Fault Refusal :=
  if s.cur.status = .run then
    .next (if s.cur.fmn = false then s.raiseCode .illegalOp else if guardHolds grd s then body s else s.done)
  else .fault .noStrand

/-- Write a g register and be done. -/
def State.putG (s : State) (n : BitVec 6) (x : Word64) : State := (s.wrG n x).done
/-- Write a k register and be done. -/
def State.putK (s : State) (n : BitVec 3) (b : Bool) : State := (s.wrK n b).done

/-! ### Operation widths (R121) -/

def widthBits : Width → Nat
  | .w64 => 64
  | .w32 => 32
  | .w16 => 16
  | .w8 => 8
/-- The low bits of a register at a width, as a number. -/
def lowBits (w : Nat) (x : Word64) : Nat := x.toNat % 2 ^ w
/-- A 32-bit immediate, sign-extended (R43). -/
def immWord (i : BitVec 32) : Word64 := i.signExtend 64

/-! ### v, m, c, f, d registers -/

def Strand.v' (t : Strand) (n : Nat) : VecBits := (t.v[n]?).getD 0
def Strand.vr (t : Strand) (n : Nat) : Residency := (t.vres[n]?).getD { held := false, anchored := false, binding := none }
def Strand.setV (t : Strand) (n : Nat) (x : VecBits) : Strand := { t with v := t.v.setIfInBounds n x }
def Strand.setVr (t : Strand) (n : Nat) (r : Residency) : Strand := { t with vres := t.vres.setIfInBounds n r }
def Strand.m' (t : Strand) (n : Nat) : LineBits := (t.m[n]?).getD 0
def Strand.setM (t : Strand) (n : Nat) (x : LineBits) : Strand := { t with m := t.m.setIfInBounds n x }
def Strand.c' (t : Strand) (n : Nat) : TileBits := (t.c[n]?).getD 0
def Strand.setC (t : Strand) (n : Nat) (x : TileBits) : Strand := { t with c := t.c.setIfInBounds n x }
def Strand.d' (t : Strand) (n : Nat) : LineBits := (t.d[n]?).getD 0
def Strand.setD (t : Strand) (n : Nat) (x : LineBits) : Strand := { t with d := t.d.setIfInBounds n x }
def emptyF : FullEmpty := { value := 0, arrived := false, producers := [] }
def Strand.f' (t : Strand) (n : Nat) : FullEmpty := (t.f[n]?).getD emptyF
def Strand.setF (t : Strand) (n : Nat) (x : FullEmpty) : Strand := { t with f := t.f.setIfInBounds n x }

/-- Results at the head of the producers are applied in enqueue order (R106). -/
def applyResults : FullEmpty → List (Nat × Option Word64) → FullEmpty
  | r, (_, some x) :: rest => applyResults { r with value := x, arrived := true, producers := rest } rest
  | r, ps => { r with producers := ps }
/-- FULL: no producer pending and a result has arrived since the last FGET (R106). -/
def FullEmpty.full (r : FullEmpty) : Bool := r.producers.isEmpty && r.arrived
/-- A command names fN as its destination: one more producer (R106). -/
def Strand.addProducer (t : Strand) (n stamp : Nat) : Strand :=
  t.setF n { t.f' n with producers := (t.f' n).producers ++ [(stamp, none)] }
/-- The result of the command with a stamp. -/
def Strand.deliver (t : Strand) (n stamp : Nat) (x : Word64) : Strand :=
  let r := t.f' n
  t.setF n (applyResults r (r.producers.map fun p => if p.1 = stamp then (p.1, some x) else p))
/-- A discarded command's count is withdrawn (R168). -/
def Strand.withdraw (t : Strand) (n stamp : Nat) : Strand :=
  let r := t.f' n
  t.setF n (applyResults r (r.producers.filter fun p => p.1 != stamp))
/-- A 16th pending producer stalls (R106). -/
def Strand.fBusy (t : Strand) (n : Nat) : Bool := decide (15 ≤ (t.f' n).producers.length)

/-! ### Held registers and budgets (R99-R102) -/

def countWhere {α : Type} (p : α → Bool) : List α → Nat
  | [] => 0
  | a :: rest => countWhere p rest + (if p a then 1 else 0)
/-- HELD: held registers of a strand. -/
def Strand.heldCount (t : Strand) : Nat := countWhere Residency.held t.vres.toList
def Residency.isResident (r : Residency) : Bool :=
  match r.binding with
  | some b => b.st == .resident
  | none => false
/-- RES: recipe-bound registers now resident. -/
def Strand.resCount (t : Strand) : Nat := countWhere Residency.isResident t.vres.toList
/-- The strand holds its core (R181); one of a time-shared part that is saved does not. -/
def Strand.onCore (t : Strand) : Bool := t.saved.isNone && (t.status == .run || t.status == .parked || t.status == .frozen)
/-- The strands that stand on the cores of a half. -/
def State.inHalf (s : State) (h : HalfLoc) : List Strand := s.strands.filter fun t => t.onCore && decide (coreHalf t.place = h)
/-- The sum of the BUD fields of a half. -/
def State.budSum (s : State) (h : HalfLoc) : Nat := (s.inHalf h).foldl (fun n t => n + t.bud) 0
/-- Pool entries of a half in use (R98). -/
def State.poolUsed (s : State) (h : HalfLoc) : Nat := (s.inHalf h).foldl (fun n t => n + countWhere Residency.entry t.vres.toList) 0

/-! ### System registers as words (R92-R95) -/

def bitWord (b : Bool) (n : Nat) : Word64 := if b then BitVec.twoPow 64 n else 0
def Strand.ssw (t : Strand) : Word64 :=
  BitVec.ofNat 64 (t.pls.toNat * 2 ^ 24 + t.loops.length * 2 ^ 17) ||| bitWord t.fmn 16 ||| bitWord t.orp 4 ||| bitWord t.fu 3 ||| bitWord t.rsm 2
    ||| bitWord t.ap 1 ||| bitWord t.dz 0
def Strand.ggr0 (t : Strand) : Word64 :=
  BitVec.ofNat 64 (t.scnt * 2 ^ 54 + t.id.sidx * 2 ^ 48 + t.gz.toNat * 2 ^ 32 + t.gy.toNat * 2 ^ 16 + t.gx.toNat)
def Strand.ggr1 (t : Strand) : Word64 := BitVec.ofNat 64 (t.nz.toNat * 2 ^ 32 + t.ny.toNat * 2 ^ 16 + t.nx.toNat)
def Strand.rbud (t : Strand) : Word64 := BitVec.ofNat 64 (t.resCount * 2 ^ 16 + t.heldCount * 2 ^ 8 + t.bud)

/-- The linear group and strand indices of GEO 8 and 9, and the group count of GEO 10 (R134). -/
def Strand.groupIndex (t : Strand) : Nat := t.gx.toNat + t.nx.toNat * (t.gy.toNat + t.ny.toNat * t.gz.toNat)
def Strand.strandIndex (t : Strand) : Nat := t.groupIndex * t.scnt + t.id.sidx
def Strand.groupCount (t : Strand) : Nat := t.nx.toNat * t.ny.toNat * t.nz.toNat

/-! ### Addresses -/

/-- The virtual address of a global access (R179). -/
def State.globalVa (s : State) (f : FormM) : Word64 := s.rdG f.gb + f.off.signExtend 64
/-- Access size in bytes (R53). -/
def szBytes : Sz → Nat
  | .b => 1
  | .h => 2
  | .w => 4
  | .d => 8
  | .q => 16

end Sys2Proof.Machine
end

