-- ==== Sys2Proof/Machine/Flags.lean ====
section
/-! DEFINITION. Sticky flags (spec/05_strand.md R92, R93; spec/04_numbers.md R81) and the conditions of CMP, KOP and FCMP (R53). -/

namespace Sys2Proof.Machine

/-- VFLAGS bits raised by a scalar FP32 instruction, in program order (R93). -/
def State.raiseFlags (s : State) (f : FloatFlags) : State := { s with cur := { s.cur with vflags := s.cur.vflags ||| f } }
/-- SSW.DZ, sticky (R123). -/
def State.setDz (s : State) : State := { s with cur := { s.cur with dz := true } }
/-- SSW.FU, sticky (R107). -/
def State.setFu (s : State) : State := { s with cur := { s.cur with fu := true } }

/-- CMP at a width (R125). -/
def cmpHolds (cc : BitVec 4) (w : Width) (a b : Word64) : Bool := intCompare cc.toNat (widthBits w) (lowBits (widthBits w) a) (lowBits (widthBits w) b)
/-- FCMP on the low 32 bits (R129). -/
def fcmpHolds (cc : BitVec 4) (a b : Word64) : Bool × FloatFlags :=
  floatCompare cc.toNat (decodeFloat fp32Format (lowBits 32 a)) (decodeFloat fp32Format (lowBits 32 b))

end Sys2Proof.Machine
end

