-- ==== Sys2Proof/Machine/Chain.lean ====
section
/-! DEFINITION. The module's address map (spec/01_device.md R24), the sites, homes and slices of a part (spec/09_line.md R184), and the
hypothesis table as homes read it (spec/22_hypothesis.md R378-R389). -/

namespace Sys2Proof.Machine

/-! ### Fields of a part's registers (spec/12_context.md R246) -/

def fieldNat (x : Word64) (lo n : Nat) : Nat := x.toNat / 2 ^ lo % 2 ^ n

/-- The sites a part owns, ascending; a retired site is gone (R438). -/
def Part.sites (p : Part) : List Nat := (List.range 32).filter fun i => p.csite.getLsbD i && !p.gone.contains i
def Part.ts (p : Part) : Bool := p.cflg.getLsbD 0
def Part.shk (p : Part) : Bool := p.cflg.getLsbD 1
def Part.zf (p : Part) : Bool := p.cflg.getLsbD 2
/-- The HBM ranges in use: base and length in bytes. -/
def Part.ranges (p : Part) : List (Nat × Nat) :=
  (p.chbm.toList.filter fun r => decide (fieldNat r 48 10 ≠ 0)).map fun r => (fieldNat r 30 18 * 2 ^ 30, fieldNat r 48 10 * 2 ^ 30)
def Part.inRanges (p : Part) (pa len : Nat) : Bool := p.ranges.any fun r => decide (r.1 ≤ pa) && decide (pa + len ≤ r.1 + r.2)
/-- A region register pair: base and length in bytes. -/
def regionOf (base len : Word64) : Nat × Nat := (fieldNat base 16 32 * 65536, fieldNat len 0 32 * 65536)
/-- The grace time, at least 1,100 (R348). -/
def Part.grace (p : Part) : Nat := Nat.max 1100 (fieldNat p.cgrace 0 32)
/-- Requests of other parts are served in RUN and QUIESCING (R250). -/
def Part.serves (p : Part) : Bool := p.st == .run || p.st == .quiescing
/-- The module that holds the hypothesis table. -/
def Part.tableModule (p : Part) : Nat := fieldNat p.chtm 0 8

/-- Is a core enabled (R23)? -/
def State.hmapOf (s : State) (l : ClusterLoc) : Byte := (s.hmap[l.site * 20 + l.cluster]?).getD 0
def State.coreEnabled (s : State) (l : CoreLoc) : Bool := decide (l.core < 8) && (s.hmapOf (coreCluster l)).getLsbD l.core
/-- The foreman's core (R256). -/
def State.foremanCore (s : State) (p : Part) : CoreLoc :=
  if p.cfmn.getLsbD 21 then { site := fieldNat p.cfmn 16 5, cluster := fieldNat p.cfmn 8 8, core := fieldNat p.cfmn 0 8 }
  else
    let site := (p.sites.head?).getD 0
    { site := site, cluster := 0, core := ((List.range 8).find? fun c => s.coreEnabled { site := site, cluster := 0, core := c }).getD 0 }

/-! ### The address map (R24-R26) -/

def hbmEnd : Nat := 0xC000000000
def vaultBase : Nat := 0x10000000000
def hostBase : Nat := 0x800000000000
def isHbm (pa : Nat) : Bool := decide (pa < hbmEnd)
def isHost (pa : Nat) : Bool := decide (hostBase ≤ pa)
/-- The vault and the offset in it of a vault address. -/
def vaultOf (pa : Nat) : Option (ClusterLoc × Nat) :=
  if vaultBase ≤ pa ∧ pa < vaultBase + 0x200000000 ∧ (pa - vaultBase) % 0x10000000 < 20 * 0x800000 then
    some ({ site := (pa - vaultBase) / 0x10000000, cluster := (pa - vaultBase) % 0x10000000 / 0x800000 }, (pa - vaultBase) % 0x800000)
  else none
def vaultPa (l : ClusterLoc) : Nat := vaultBase + l.site * 0x10000000 + l.cluster * 0x800000
/-- VBND.WIN of a cluster in MiB (R182). -/
def State.winOf (s : State) (l : ClusterLoc) : Nat := ((s.vbnd.find? fun e => e.1 = l).map Prod.snd).getD 4

/-! ### Homes (R184) -/

def lineOf (pa : Nat) : Nat := pa / 128 * 128
/-- Home(pa) among the slices of a list of sites. -/
def homeSlice (sites : List Nat) (pa : Nat) : ClusterLoc :=
  match vaultOf pa with
  | some (l, _) => l
  | none =>
    if isHost pa then { site := 0, cluster := 0 } else
    let x := pa / 128
    let h := (x ^^^ (x >>> 13) ^^^ (x >>> 26) ^^^ (x >>> 39)) % 2 ^ 13
    let i := h % (20 * sites.length)
    { site := (sites[i / 20]?).getD 0, cluster := i % 20 }
def Part.home (p : Part) (pa : Nat) : ClusterLoc := homeSlice p.sites pa

/-! ### Hypotheses (R378-R380, R387-R389) -/

def hypId (t : BitVec 20) : Nat := t.toNat % 4096
def hypGen (t : BitVec 20) : BitVec 8 := t.extractLsb' 12 8
def mkTag (gen : BitVec 8) (id : Nat) : BitVec 20 := BitVec.ofNat 20 (gen.toNat * 4096 + id)
/-- A hypothesis handle's tag; handles with [63:20] nonzero match nothing (R379). -/
def handleTag (h : Word64) : Option (BitVec 20) := if h.toNat < 2 ^ 20 then some (h.setWidth 20) else none

def Part.hyp? (p : Part) (id : Nat) : Option HypEntry := p.hyps.find? fun e => e.id == id
def Part.genOf (p : Part) (id : Nat) : BitVec 8 := ((p.hyp? id).map HypEntry.gen).getD 0
def Part.tagOf (p : Part) (id : Nat) : BitVec 20 := if id = 0 then 0 else mkTag (p.genOf id) id

/-- The effective hypothesis of an ID (R380): a CONFIRMED one is its parent's. -/
def Part.effectiveFrom (p : Part) : Nat → Nat → Nat
  | 0, id => id
  | n + 1, id =>
    if id = 0 then 0 else
    match p.hyp? id with
    | some e => if e.st = .confirmed ∧ e.lost = false then p.effectiveFrom n e.parent else id
    | none => id
def Part.effective (p : Part) (id : Nat) : Nat := p.effectiveFrom 4096 id
/-- Parent(h) of the table; Parent(0) = 0. -/
def Part.parentOf (p : Part) (id : Nat) : Nat := if id = 0 then 0 else ((p.hyp? id).map HypEntry.parent).getD 0
/-- ChainOf(h) of the table, ending at 0 (R59). -/
def Part.chainFrom (p : Part) : Nat → Nat → List Nat
  | 0, _ => [0]
  | n + 1, id => if id = 0 then [0] else id :: p.chainFrom n (p.parentOf id)
def Part.chain (p : Part) (id : Nat) : List Nat := p.chainFrom 4096 id

/-- The resolves that a site has not applied yet. -/
def Part.unapplied (p : Part) (site : Nat) : List Resolve := p.resolves.filter fun r => !r.sites.contains site
/-- How a home of a site performs an access tagged t: not at all (a refuted or outdated tag, R389), or under a tag (R388). With the table on another
module, a generation that is not known here yet is a version like any other (R377). -/
def Part.siteTagFrom (p : Part) (here : Bool) (site : Nat) : Nat → BitVec 20 → Option (BitVec 20)
  | 0, t => some t
  | n + 1, t =>
    if hypId t = 0 then some 0 else
    if (p.unapplied site).any (fun r => r.tags.contains t) then some t else
    match p.hyp? (hypId t) with
    | none => if here then none else some t
    | some e =>
      if e.gen ≠ hypGen t then (if !here && decide ((hypGen t - e.gen).toNat < 128) then some t else none) else
      match e.st with
      | .free => none
      | .opened => some t
      | .confirmed => if e.lost then none else p.siteTagFrom here site n (p.tagOf e.parent)
      | .refuted => none
def State.siteTag (s : State) (p : Part) (site : Nat) (t : BitVec 20) : Option (BitVec 20) :=
  p.siteTagFrom (p.tableModule == s.mid) site 4096 t
/-- The parent as a home of a site takes it: re-parenting counts once the confirm is applied. -/
def Part.siteParent (p : Part) (site id : Nat) : Nat :=
  match (p.unapplied site).find? fun r => r.kids.contains id with
  | some r => hypId r.hyp
  | none => p.parentOf id
/-- The tags along the chain of a tag at a home of a site, the root left out (R382). -/
def Part.siteChainFrom (p : Part) (site : Nat) : Nat → BitVec 20 → List (BitVec 20)
  | 0, _ => []
  | n + 1, t => if hypId t = 0 then [] else t :: p.siteChainFrom site n (p.tagOf (p.siteParent site (hypId t)))
def Part.siteChain (p : Part) (site : Nat) (t : BitVec 20) : List (BitVec 20) := p.siteChainFrom site 4096 t

/-- Is a hypothesis REFUTED, or was the one it had been confirmed into? -/
def Part.isRefuted (p : Part) (id : Nat) : Bool := ((p.hyp? id).map fun e => e.st == .refuted || (e.st == .confirmed && e.lost)).getD false
def Part.isOpen (p : Part) (t : BitVec 20) : Bool := ((p.hyp? (hypId t)).map fun e => e.st == .opened && e.gen == hypGen t).getD false

/-- Size of the table in bytes and the highest ID (R378). -/
def State.tableBytes (s : State) (p : Part) : Nat :=
  if p.tableModule = s.mid then Nat.min 131072 (fieldNat p.cvsl 0 32 * 65536) else 0
def State.topId (s : State) (p : Part) : Nat := Nat.min 4095 (s.tableBytes p / 32 - 1)

/-- The OPEN descendants of an ID: those whose chain holds it. -/
def Part.openBelow (p : Part) (id : Nat) : List Nat :=
  (p.hyps.filter fun e => e.st == .opened && e.id != id && (p.chain e.id).contains id).map HypEntry.id

def Part.mapHyp (p : Part) (ids : List Nat) (f : HypEntry → HypEntry) : Part :=
  { p with hyps := p.hyps.map fun e => if ids.contains e.id then f e else e }

/-- Confirm of R380: the children move to the parent, each one level up. -/
def Part.confirm (p : Part) (id rid : Nat) (post : Option Word64) (view : View) : Part :=
  let parent := p.parentOf id
  let kids := (p.hyps.filter fun e => e.st == .opened && e.parent == id).map HypEntry.id
  let tag := p.tagOf id
  let p1 := (p.mapHyp (p.openBelow id) fun e => { e with depth := e.depth - 1 }).mapHyp kids fun e => { e with parent := parent }
  let p2 := p1.mapHyp [id] fun e => { e with st := .confirmed, resolved := false, swept := [] }
  { p2 with resolves := p2.resolves ++ [{ rid := rid, hyp := tag, confirm := true, tags := [tag], target := p.tagOf parent, kids := kids
                                          handle := post, sites := [], mods := [], asker := none, view := view }] }
/-- Refute of R380 with a cause: the whole OPEN subtree. -/
def Part.refute (p : Part) (id cause rid : Nat) (post : Option Word64) (view : View) : Part :=
  let below := p.openBelow id
  let tags := (id :: below).map p.tagOf
  let p1 := (p.mapHyp below fun e => { e with st := .refuted, cause := 3, resolved := false, swept := [] }).mapHyp [id] fun e =>
    { e with st := .refuted, cause := cause, resolved := false, swept := [] }
  { p1 with resolves := p1.resolves ++ [{ rid := rid, hyp := p.tagOf id, confirm := false, tags := tags, target := 0, kids := []
                                          handle := post, sites := [], mods := [], asker := none, view := view }] }
/-- What is left of the way up from an ID once some entries are FREE: past the CONFIRMED ones, and no way past a REFUTED one. -/
def Part.wayUp (p : Part) (freed : List Nat) : Nat → Nat → Option Nat
  | 0, id => some id
  | n + 1, id =>
    if freed.contains id then
      match p.hyp? id with
      | some x => if x.st = .confirmed ∧ x.lost = false then p.wayUp freed n x.parent else none
      | none => some id
    else some id
/-- A CONFIRMED entry keeps its effective hypothesis when the entry it was confirmed into becomes FREE (R380, R400). -/
def Part.relink (p : Part) (freed : List Nat) (e : HypEntry) : HypEntry :=
  if e.st = .confirmed ∧ freed.contains e.parent then
    match p.wayUp freed 4096 e.parent with
    | some up => { e with parent := up }
    | none => { e with lost := true }
  else e
/-- The depth of a hypothesis; the root is at depth 0. -/
def Part.depthOf (p : Part) (id : Nat) : Nat := if id = 0 then 0 else ((p.hyp? id).map HypEntry.depth).getD 0
/-- An entry of the table as another module has it from the table's home. -/
def Part.putHyp (p : Part) (e : HypEntry) : Part :=
  { p with hyps := if p.hyps.any (fun x => x.id == e.id) then replaceFirst (fun x => x.id == e.id) e p.hyps else p.hyps ++ [e] }
/-- Is a tag one of which an entry of this module knows: the same generation, or an older one than the entry's? -/
def Part.knows (p : Part) (tag : BitVec 20) : Bool := match p.hyp? (hypId tag) with
  | some e => decide (128 ≤ (hypGen tag - e.gen).toNat) || e.gen == hypGen tag
  | none => false
/-- A hypothesis that the table's home has opened, as another module learns of it. The ID was FREE: what had been confirmed into it keeps its effective
hypothesis. -/
def Part.learnOpened (p : Part) (tag parent : BitVec 20) : Part :=
  if hypId tag = 0 ∨ p.knows tag then p else
  ({ p with hyps := p.hyps.map (p.relink [hypId tag]) } : Part).putHyp
    { id := hypId tag, gen := hypGen tag, st := .opened, parent := hypId parent, depth := p.depthOf (hypId parent) + 1, cause := 0
      resolved := false, swept := [], lost := false }
/-- What a packet tells of the chain of its hypothesis, from the root down. -/
def Part.learnTree (p : Part) (tree : List (BitVec 20 × BitVec 20)) : Part := tree.reverse.foldl (fun (p : Part) x => p.learnOpened x.1 x.2) p
/-- The OPEN hypotheses along the chain of a tag, each with its parent. -/
def Part.treeOf (p : Part) (tag : BitVec 20) : List (BitVec 20 × BitVec 20) :=
  if tag = 0 then [] else
  ((p.chain (hypId tag)).filter fun id => p.isOpen (p.tagOf id)).map fun id => (p.tagOf id, p.tagOf (p.parentOf id))
/-- CHILD: OPEN children (R378). -/
def Part.childCount (p : Part) (id : Nat) : Nat := countWhere (fun e => e.st == .opened && e.parent == id) p.hyps

end Sys2Proof.Machine
end

