-- ==== Sys2Proof/Machine/Page.lean ====
section
/-! DEFINITION. Page tables and translation (spec/13_page.md R262-R267). -/

namespace Sys2Proof.Machine

/-- Kinds of access (R352's order). -/
inductive Kind | read | write | execute | cell
  deriving DecidableEq, Repr
def Kind.code : Kind → Nat
  | .read => 0
  | .write => 1
  | .execute => 2
  | .cell => 3

/-- A failed check: a code with ADDR and INFO. -/
def faultAt (c : FaultCode) (va : Word64) (info : Nat) : FaultInfo := { code := c, addr := va, info := BitVec.ofNat 64 info }

def bitsOf (x lo n : Nat) : Nat := x / 2 ^ lo % 2 ^ n
def bitOf (x i : Nat) : Bool := x.testBit i

/-- Placements by code (R264). -/
def placementOf : Nat → Option Placement
  | 0 => some .hbmCached
  | 1 => some .hbmUncached
  | 2 => some .vault
  | 4 => some .hostCached
  | 5 => some .hostUncached
  | _ => none
def statusOf : Nat → PageStatus
  | 0 => .mapped
  | 1 => .sealed
  | 2 => .unsealing
  | _ => .poisoned
def PageStatus.code : PageStatus → Nat
  | .mapped => 0
  | .sealed => 1
  | .unsealing => 2
  | .poisoned => 3
def Placement.isHbm : Placement → Bool
  | .hbmCached => true
  | .hbmUncached => true
  | _ => false
def Placement.isHostly : Placement → Bool
  | .hostCached => true
  | .hostUncached => true
  | _ => false

/-- Word 1 of an entry as the device reads it: undefined ST and SGEN where software wrote it under V (R264). -/
def State.word1 (s : State) (entry : Nat) : Nat :=
  if s.scribbled.contains entry then (Config.freeBits 34 entry).toNat else readNat s.mem (entry + 8) 8

/-- The leaf that two words give, at a level of 2^bits-byte pages; none when the entry is malformed (R264, R265). -/
def leafOf (va : Nat) (bits entry w0 w1 : Nat) : Option Leaf :=
  let frame := bitsOf w0 16 32 * 65536
  match placementOf (bitsOf w0 4 3) with
  | none => none
  | some plc =>
    let l : Leaf :=
      { vbase := va / 2 ^ bits * 2 ^ bits, bits := bits, mid := bitsOf w0 48 8, frame := frame, hsh := bitOf w0 14, wa := bitOf w0 13
        evp := bitsOf w0 11 2, hyp := bitOf w0 10, repl := bitOf w0 9, sealable := bitOf w0 8, sync := bitOf w0 7, plc := plc
        x := bitOf w0 3, w := bitOf w0 2, st := statusOf (bitsOf w1 32 2), sgen := BitVec.ofNat 32 w1, entry := entry }
    let place : Bool := match plc with
      | .hbmCached => decide (frame + 2 ^ bits ≤ hbmEnd)
      | .hbmUncached => decide (frame + 2 ^ bits ≤ hbmEnd)
      | .vault => (match vaultOf frame with
        | some (_, off) => decide (bits < 30) && decide (off + 2 ^ bits ≤ 0x800000)
        | none => false)
      | .hostCached => isHost frame
      | .hostUncached => isHost frame
    let attrs : Bool :=
      (!l.sync || (plc.isHbm && !l.sealable && !l.hyp)) && (!l.hyp || plc == .hbmCached) && (!l.sealable || plc.isHbm || plc == .vault)
        && (!l.repl || (plc == .hbmCached && l.sealable)) && (!(l.wa || l.evp != 0) || plc == .hbmCached) && (!l.hsh || plc.isHbm)
    if place && attrs && bitsOf w0 56 8 == 0 && !bitOf w0 15 && frame % 2 ^ bits == 0 && bitsOf w1 34 30 == 0 then some l else none

/-- The levels of a walk: the lowest bit indexed, how many bits, the size of a table, and the leaf it may hold (R262). -/
def walkLevels : List (Nat × Nat × Nat × Option Nat) :=
  [(48, 8, 4096, none), (39, 9, 8192, none), (30, 9, 8192, some 30), (21, 9, 8192, some 21), (16, 5, 512, some 16)]

/-- What a table's entry for an address is (steps 2 and 3 of R266): a leaf, the next table, or the fault that ends the walk. -/
def State.walkEntry (s : State) (p : Part) (va : Word64) (kind : Kind) (table lo n size : Nat) (leaf : Option Nat) : Except FaultInfo (Leaf ⊕ Nat) :=
  let perm : Except FaultInfo (Leaf ⊕ Nat) := .error (faultAt .pagePerm va kind.code)
  if table % size ≠ 0 ∨ p.inRanges table size = false then perm else
  let entry := table + bitsOf va.toNat lo n * 16
  let w0 := readNat s.mem entry 8
  let w1 := s.word1 entry
  if bitOf w0 0 = false then .error (faultAt .pageNotMapped va kind.code)
  else if bitOf w0 1 then
    match leaf.bind fun bits => leafOf va.toNat bits entry w0 w1 with
    | none => perm
    | some l => .ok (.inl l)
  else if bitsOf w0 48 16 ≠ 0 ∨ bitsOf w0 2 7 ≠ 0 ∨ w1 ≠ 0 then perm
  else .ok (.inr (bitsOf w0 9 39 * 512))
/-- The walk, level by level; a cached pointer entry stands for the table's (R267). -/
def walk (s : State) (p : Part) (cached : List PointerEntry) (va : Word64) (kind : Kind) :
    Nat → List (Nat × Nat × Nat × Option Nat) → Except FaultInfo Leaf
  | _, [] => .error (faultAt .pagePerm va kind.code)
  | table, (lo, n, size, leaf) :: rest =>
    match cached.find? fun e => e.lo == lo && e.vpart == va.toNat / 2 ^ lo with
    | some e => walk s p cached va kind e.next rest
    | none => match s.walkEntry p va kind table lo n size leaf with
      | .error e => .error e
      | .ok (.inl l) => .ok l
      | .ok (.inr next) => walk s p cached va kind next rest
/-- The pointer entries that a walk reads. -/
def walkPointers (s : State) (p : Part) (site : Nat) (va : Word64) : Nat → List (Nat × Nat × Nat × Option Nat) → List PointerEntry
  | _, [] => []
  | table, (lo, n, size, leaf) :: rest =>
    match s.walkEntry p va .read table lo n size leaf with
    | .ok (.inr next) => { site := site, cix := p.cix, lo := lo, vpart := va.toNat / 2 ^ lo, next := next } :: walkPointers s p site va next rest
    | _ => []
/-- The root table of a part. -/
def Part.root (p : Part) : Nat := fieldNat p.cptr 12 36 * 4096
/-- The pointer entries that the walkers of a site's die hold for a part. -/
def State.pointersAt (s : State) (site : Nat) (p : Part) : List PointerEntry := s.ptrs.filter fun e => e.site == site && e.cix == p.cix
/-- The walk of R266 from L0 by a walker of a site. -/
def State.walkFrom (s : State) (p : Part) (site : Nat) (va : Word64) (kind : Kind) : Except FaultInfo Leaf :=
  walk s p (s.pointersAt site p) va kind p.root walkLevels

/-- Indexes of a table's entries of which some byte is listed, each once. -/
def listedEntries (m : List Host.Cell) (table size : Nat) : List Nat :=
  (m.filter fun c => decide (table ≤ c.1) && decide (c.1 < table + size)).foldl (fun l c => if l.contains ((c.1 - table) / 16) then l else ((c.1 - table) / 16) :: l) []
/-- The leaves of a part's page tables, from a table down. -/
def leavesBelow (s : State) (p : Part) : Nat → Nat → List (Nat × Nat × Nat × Option Nat) → List Leaf
  | _, _, [] => []
  | va, table, (lo, n, size, leaf) :: rest =>
    ((listedEntries s.mem table size).map fun i =>
      let here := va + i * 2 ^ lo
      match s.walkEntry p (BitVec.ofNat 64 here) .read table lo n size leaf with
      | .ok (.inl l) => [l]
      | .ok (.inr next) => leavesBelow s p here next rest
      | .error _ => []).flatten
def State.leaves (s : State) (p : Part) : List Leaf := leavesBelow s p 0 p.root walkLevels
/-- Is an entry a valid leaf of a part's page tables? While a part is CONFIGURING its tables serve nobody yet (assumption 61). -/
def State.isLeafEntry (s : State) (entry : Nat) : Bool :=
  s.parts.any fun p => p.st != .free && p.st != .configuring && p.inRanges entry 16 && (s.leaves p).any fun l => l.entry == entry

/-- May the frame of a leaf be used (step 5 of R266)? Frames of other modules are checked there. -/
def State.frameOk (s : State) (p : Part) (l : Leaf) : Bool :=
  (l.mid != s.mid ||
    (match l.plc with
      | .hbmCached => p.inRanges l.frame (2 ^ l.bits)
      | .hbmUncached => p.inRanges l.frame (2 ^ l.bits)
      | .vault => (match vaultOf l.frame with
        | some (c, off) => p.sites.contains c.site && decide (off + 2 ^ l.bits ≤ s.winOf c * 2 ^ 20)
        | none => false)
      | _ => true))
  && (!l.hsh || (p.shk && p.sslot))

/-- Steps 4 to 6 of R266 at the leaf. -/
def leafChecks (s : State) (p : Part) (va : Word64) (kind : Kind) (l : Leaf) : Except FaultInfo Leaf :=
  if l.st = .poisoned ∨ (kind = .write ∧ l.w = false) ∨ (kind = .execute ∧ l.x = false) ∨ s.frameOk p l = false then
    .error (faultAt .pagePerm va kind.code)
  else if kind = .cell ∧ l.sync = false then .error (faultAt .type va 0)
  else .ok l

/-- A TLB entry of a cluster that covers an address (R267). -/
def State.tlbHit (s : State) (c : ClusterLoc) (cix : Nat) (va : Word64) : Option Leaf :=
  (s.tlb.find? fun e => decide (e.cluster = c) && e.cix == cix && decide (e.leaf.vbase = va.toNat / 2 ^ e.leaf.bits * 2 ^ e.leaf.bits)).map
    TlbEntry.leaf

/-- The walk under way on a site's die that a miss to an address joins: one to its page (R267). -/
def Walk.covers (w : Walk) (site cix : Nat) (va : Word64) : Bool :=
  w.site == site && w.cix == cix && (w.page == va.toNat / 2 ^ 16 || (match w.found with
    | .inr l => decide (l.vbase = va.toNat / 2 ^ l.bits * 2 ^ l.bits)
    | .inl _ => false))
/-- What a miss finds: the result of the walk it joins, fault included, or that of its own, which takes no time here (assumption 50). -/
def State.missResult (s : State) (p : Part) (site : Nat) (va : Word64) (kind : Kind) : Except FaultInfo Leaf :=
  match s.walks.find? fun w => w.covers site p.cix va with
  | some w => (match w.found with
    | .inl c => .error (faultAt c va kind.code)
    | .inr l => .ok l)
  | none => s.walkFrom p site va kind

/-- Translate(va, kind) for an access from a cluster (R266, R267). -/
def State.translate (s : State) (cix : Nat) (c : ClusterLoc) (va : Word64) (kind : Kind) : Except FaultInfo Target :=
  if va.extractLsb' 56 8 ≠ 0 then .error (faultAt .pageNotMapped va kind.code) else
  match s.part? cix with
  | none => .error (faultAt .pageNotMapped va kind.code)
  | some p =>
    let leaf : Except FaultInfo Leaf := match s.tlbHit c cix va with
      | some l => .ok l
      | none => s.missResult p c.site va kind
    match leaf with
    | .error e => .error e
    | .ok l => match leafChecks s p va kind l with
      | .error e => .error e
      | .ok l => .ok { va := va, mid := l.mid, pa := l.frame + va.toNat % 2 ^ l.bits, leaf := l }

/-! ### Typed granules (R274) -/

def granuleOf (pa : Nat) : Nat := pa / 32 * 32
def freeGranule (pa : Nat) : Granule :=
  { pa := granuleOf pa, tag := .free, gen := 0, abn := false, psn := false, dead := false, ogen := 0, own := 0, held := none, b1 := 0, b2 := 0, b3 := 0
    rels := [] }
def State.granule (s : State) (pa : Nat) : Granule := (s.cells.find? fun g => g.pa == granuleOf pa).getD (freeGranule pa)
def State.setGranule (s : State) (g : Granule) : State :=
  { s with cells := if s.cells.any (fun h => h.pa == g.pa) then replaceFirst (fun h => h.pa == g.pa) g s.cells else g :: s.cells }
/-- The first typed granule that n bytes touch (R274). -/
def State.typedIn (s : State) (pa n : Nat) : Option Granule :=
  ((List.range ((pa % 32 + n + 31) / 32)).map fun i => s.granule (granuleOf pa + 32 * i)).find? fun g => g.tag != .free
def CellTag.code : CellTag → Nat
  | .free => 0
  | .counter => 1
  | .barrier => 2
  | .lock => 3
  | .queue => 4
  | .cond => 5
  | .qslot => 6

/-! ### Page states in memory (R264, R270) -/

/-- Word 1 of a leaf as the device writes it: ST and SGEN. -/
def State.writeWord1 (s : State) (entry : Nat) (st : PageStatus) (sgen : BitVec 32) : State :=
  { s with mem := writeNat s.mem (entry + 8) (st.code * 2 ^ 32 + sgen.toNat) 8, scribbled := s.scribbled.filter fun e => e != entry
           sealedAt := (if st = .sealed then [(entry, s.fresh)] else []) ++ s.sealedAt.filter fun e => e.1 != entry }
/-- ST and SGEN of a leaf entry now. -/
def State.pageNow (s : State) (entry : Nat) : PageStatus × BitVec 32 :=
  (statusOf (bitsOf (s.word1 entry) 32 2), BitVec.ofNat 32 (s.word1 entry))
/-- The page's translations are withdrawn from every TLB; a walk that has read its leaf is none to join any more. -/
def State.withdrawPage (s : State) (entry : Nat) : State :=
  { s with tlb := s.tlb.filter fun e => e.leaf.entry != entry
           walks := s.walks.filter fun w => match w.found with
             | .inr l => l.entry != entry
             | .inl _ => true }
/-- An uncorrectable error marks the page POISONED (R188, R270). -/
def State.poisonPage (s : State) (entry : Nat) : State := (s.writeWord1 entry .poisoned (s.pageNow entry).2).withdrawPage entry
/-- L1 lines of a page dropped on every core. -/
def State.dropPageLines (s : State) (entry : Nat) : State :=
  { s with cores := s.cores.map fun c => { c with l1 := c.l1.filter fun l => l.entry != entry }
           net := s.net.map fun r => if r.target.leaf.entry = entry then { r with fill := false } else r }

end Sys2Proof.Machine
end

