-- ==== Sys2Proof/Machine/Races.lean ====
section
/-! DEFINITION. Scopes, releases and acquires, what happens before what, and races (spec/10_consistency.md R209-R219; spec/09_line.md
R195). Each access has a number; a view lists, party by party, the number below which its accesses have happened before. -/

namespace Sys2Proof.Machine

/-! ### Scopes (R210) -/

/-- Does a party at q lie in the instance of a scope of a party at p? The host, which stands nowhere, lies only in the pod; a copy job's engine
lies in its cluster but in no core; the compute die is the site's (R14). -/
def inScope (scp : Scp) (p q : Option Spot) : Bool :=
  match scp, p, q with
  | .pod, _, _ => true
  | _, none, _ => false
  | _, _, none => false
  | .mod, some p, some q => p.mid == q.mid
  | .die, some p, some q => p.mid == q.mid && p.core.site == q.core.site
  | .clu, some p, some q => p.mid == q.mid && decide (coreCluster p.core = coreCluster q.core)
  | .core, some p, some q => p.mid == q.mid && decide (p.core = q.core) && !p.job && !q.job
/-- A release and an acquire can synchronise (R210). -/
def scopesPair (r : Rel) (acquire : Scp) (q : Option Spot) : Bool := inScope r.scp r.spot q && inScope acquire q r.spot

/-! ### Views -/

/-- The number below which a party's accesses are in a view. -/
def View.upTo (v : View) (p : Party) : Nat := ((v.find? fun e => e.1 == p).map Prod.snd).getD 0
/-- A view with one party's accesses up to a number. -/
def View.raise (v : View) (p : Party) (n : Nat) : View :=
  if n ≤ View.upTo v p then v else (p, n) :: v.filter fun e => e.1 != p
def View.join (v w : View) : View := w.foldl (fun v e => View.raise v e.1 e.2) v
/-- Releases that pair with the same acquires: of one party, one place and one scope. -/
def Rel.like (a b : Rel) : Bool := a.party == b.party && a.scp == b.scp && decide (a.spot = b.spot)
/-- A release noted: with those like it, it makes one that stands for them all. -/
def noteRel (l : List Rel) (r : Rel) : List Rel :=
  { r with view := (l.filter fun x => x.like r).foldl (fun v x => View.join v x.view) r.view } :: l.filter fun x => !x.like r
/-- What an acquire at a scope takes over from the releases it has read from (R213). -/
def acquireFrom (v : View) (scp : Scp) (at_ : Option Spot) (l : List Rel) : View :=
  l.foldl (fun v r => if scopesPair r scp at_ then View.join v r.view else v) v

/-! ### Parties -/

def strandSpot (mid : Nat) (t : Strand) : Spot := { mid := mid, core := t.place, job := false }
def jobSpot (mid : Nat) (j : Job) : Spot := { mid := mid, core := j.place, job := true }
/-- The core a location word names (R353). -/
def locSpot (loc : BitVec 32) (job : Bool) : Spot :=
  { mid := loc.toNat / 2 ^ 24, core := { site := loc.toNat / 2 ^ 16 % 256, cluster := loc.toNat / 2 ^ 8 % 256, core := loc.toNat % 256 }, job := job }
/-- What happens before the next access of the issuing strand, all that it has issued among it (R218). -/
def State.soFar (s : State) : View := View.raise s.cur.view (.strand s.cur.id) s.fresh
/-- A release that the access of number s.fresh of the issuing strand makes at a scope: with what happens before it, the access itself is before
whatever acquires from it (R218). -/
def State.release (s : State) (scp : Scp) : Rel :=
  { party := .strand s.cur.id, spot := some (strandSpot s.mid s.cur), scp := scp, view := View.raise s.cur.view (.strand s.cur.id) (s.fresh + 1) }
/-- The releases that a store of the issuing strand carries: its own scope's, and those of the release fences before it. R213 lets a plain store
after such a fence act as a release; an ATOM or CAS of plain ORD does so here as well, for the store that it performs, but as a load it is none of the
accesses that a later FENCE.acq turns into acquires (assumption 75). -/
def State.storeRels (s : State) (own : Option Scp) : List Rel := (own.toList ++ s.cur.fences.filter fun c => some c != own).map s.release
/-- The issuing strand acquires at a scope from the releases it has read from; a wide acquire of a cell also orders the copy jobs it enqueues
later, which an access of its own does only through FENCE.XP (R215, R218). -/
def State.acquireRels (s : State) (scp : Scp) (l : List Rel) : State :=
  { s with cur := { s.cur with view := acquireFrom s.cur.view scp (some (strandSpot s.mid s.cur)) l } }
def State.acquireCell (s : State) (l : List Rel) : State :=
  let v := fun w => acquireFrom w .pod (some (strandSpot s.mid s.cur)) l
  { s with cur := { s.cur with view := v s.cur.view, jobView := v s.cur.jobView } }
/-- Releases that a plain load or a cell read has read from, kept for a later fence (R213). -/
def Strand.hear (t : Strand) (l : List Rel) : Strand := { t with heard := l.foldl noteRel t.heard }
def Strand.hearCell (t : Strand) (l : List Rel) : Strand := { t.hear l with heardCell := l.foldl noteRel t.heardCell }
/-- What a fence acquires; what it acquires through a cell read happens before later copy jobs too (R218). -/
def State.acquireHeard (s : State) (scp : Scp) : State :=
  let s := s.acquireRels scp s.cur.heard
  { s with cur := { s.cur with jobView := acquireFrom s.cur.jobView scp (some (strandSpot s.mid s.cur)) s.cur.heardCell } }
/-- The view of a party that is no strand or job of this module. -/
def State.viewOf (s : State) (p : Party) : View := ((s.views.find? fun e => e.1 == p).map Prod.snd).getD []
def State.setView (s : State) (p : Party) (v : View) : State := { s with views := (p, v) :: s.views.filter fun e => e.1 != p }

/-- The party of another module that a packet comes from; a strand is one party whatever its live set. -/
def Packet.sender (k : Packet) : Party :=
  .remote k.mid k.inc (match k.party with
    | .strand w _ => .strand w 0
    | x => x)
/-- Where that party stands; a unit's posts act in the pod. -/
def Packet.spot (k : Packet) : Option Spot := match k.party with
  | .strand _ _ => some (locSpot k.loc false)
  | .job _ => some (locSpot k.loc true)
  | .unit => none

/-! ### Accesses at a home -/

/-- Who accesses, as records tell it (R197): the kind, the location, the tag or job identifier, the strand when it is one; and, for the order of
R218, the number of the access, what happens before it, and the releases it carries. -/
structure Writer where
  party  : Party
  kind   : Nat
  loc    : BitVec 32
  sig    : BitVec 16
  strand : Option StrandId
  hyp    : BitVec 20
  number : Nat
  view   : View
  rels   : List Rel
  atomic : Bool
  /-- The leaf entry through which a strand of this module writes. -/
  entry  : Option Nat := none
  /-- The bytes that a write replaces, as its home has them. -/
  old    : Nat := 0
  deriving DecidableEq, Repr

/-- 256 network cycles, in which a home reports a mixed-size race (R195, R4). -/
def mixWindow : Nat := 171
def overlaps (a n b m : Nat) : Bool := decide (a < b + m) && decide (b < a + n)
/-- Does an earlier access of a home happen before a party's? (R218) -/
def Recent.before (r : Recent) (w : Writer) : Bool := r.party == w.party || decide (r.number < View.upTo w.view r.party)
/-- May an access tagged t see or meet a write tagged u on a HYP page (R217, R382)? -/
def State.tagsMeet (s : State) (p : Part) (pa : Nat) (u t : BitVec 20) (bothWrite : Bool) : Bool :=
  let site := (homeSlice p.sites pa).site
  match s.siteTag p site u, s.siteTag p site t with
  | some u, some t => if bothWrite then u == t else u == 0 || (p.siteChain site t).contains u
  | _, _ => false
/-- The accesses performed earlier that race a new one with a different size (R195, R219): both of those of R195, of up to 16 bytes and not the host's; overlapping, one
of them a write that the other may see, by different parties, and not ordered. -/
def State.mixedWith (s : State) (p : Part) (pa n : Nat) (write : Bool) (tag : BitVec 20) (w : Writer) : List Recent :=
  s.recent.filter fun r =>
    decide (n ≤ 16) && decide (r.size ≤ 16) && w.party != .host && r.party != .host && r.size != n && (r.write || write) && overlaps pa n r.pa r.size && !r.before w
      && (if r.write then s.tagsMeet p pa r.tag tag write else s.tagsMeet p pa tag r.tag false)
/-- The writes whose bytes a read of n bytes returns: of each byte the latest one under the first tag of the reader's chain that has any (R382). -/
def latestWrites (under : BitVec 20 → List Recent) (chain : List (BitVec 20)) (pa : Nat) : Nat → List Recent
  | 0 => []
  | n + 1 =>
    let rest := latestWrites under chain (pa + 1) n
    match chain.findSome? fun t => (under t).find? fun r => r.write && decide (r.pa ≤ pa) && decide (pa < r.pa + r.size) with
    | some r => if rest.contains r then rest else r :: rest
    | none => rest
/-- The releases that a read of bytes under a tag reads from, of the writes that had been performed when the access of a number was (R213, R217). -/
def State.readRelsAt (s : State) (p : Part) (tag : BitVec 20) (seen pa n : Nat) : List Rel :=
  let site := (homeSlice p.sites pa).site
  let near := s.recent.filter fun r => decide (r.seen ≤ seen) && overlaps pa n r.pa r.size
  let chain := ((s.siteTag p site tag).map fun t => if t = 0 then [] else p.siteChain site t).getD []
  ((latestWrites (fun t => near.filter fun r => s.siteTag p site r.tag == some t) (chain ++ [0]) pa n).map Recent.rels).flatten.foldl noteRel []
/-- The same for a read that the home performs now. -/
def State.readRels (s : State) (p : Part) (tag : BitVec 20) (pa n : Nat) : List Rel := s.readRelsAt p tag s.fresh pa n
/-- An access that acquires as it reads comes after what it reads from (R213). -/
def Writer.acquiring (w : Writer) (scp : Option Scp) (spot : Option Spot) (rels : List Rel) : Writer := match scp with
  | some c => { w with view := acquireFrom w.view c spot rels }
  | none => w
/-- An access that a later one of the same bytes makes needless: of one party, or a write that the new one comes after. -/
def Recent.replacedBy (r : Recent) (pa n : Nat) (write : Bool) (tag : BitVec 20) (w : Writer) : Bool :=
  r.pa == pa && r.size == n && r.tag == tag && r.before w && (write || (!r.write && r.party == w.party))
/-- The access is noted. A write of an ATOM or CAS carries on the releases of what it replaces (R213). -/
def State.noteRecent (s : State) (p : Part) (pa n : Nat) (write : Bool) (tag : BitVec 20) (w : Writer) : State :=
  let rels := if write then (if w.atomic then w.rels.foldl noteRel (s.readRels p tag pa n) else w.rels) else []
  let e : Recent :=
    { pa := pa, size := n, write := write, atomic := w.atomic, party := w.party, number := w.number, tag := tag, loc := w.loc
      at_ := s.clk.toNat, seen := s.fresh, rels := rels, entry := if write then w.entry else none, old := if write then w.old else 0 }
  { s with recent := e :: s.recent.filter fun r => !r.replacedBy pa n write tag w }
/-- A value whose bytes that race an access of a different size are undefined (R195). -/
def freeRaced (hits : List Recent) (fresh pa : Nat) : Nat → Nat → Nat
  | 0, _ => 0
  | n + 1, v =>
    let b := if hits.any (fun r => decide (r.pa ≤ pa) && decide (pa < r.pa + r.size)) then (Config.freeBits 8 (fresh * 32 + n)).toNat
      else v % 256
    b + 256 * freeRaced hits fresh (pa + 1) n (v / 256)
/-- n bytes from pa with the newest k writes of a list undone. -/
def undoWrites (pa n : Nat) : Nat → List Recent → Nat → Nat
  | k + 1, r :: rest, v =>
    let byte (i : Nat) : Nat := if r.pa ≤ pa + i ∧ pa + i < r.pa + r.size then r.old / 256 ^ (pa + i - r.pa) % 256 else v / 256 ^ i % 256
    undoWrites pa n k rest ((List.range n).foldr (fun i acc => byte i + 256 * acc) 0)
  | _, _, v => v
/-- Reads performed but not returned that a new write races: their overlapped bytes are undefined as well (R195). -/
def State.freeReads (s : State) (pa n : Nat) (hits : List Recent) : State :=
  let raced := hits.filter fun h => !h.write
  let here : Recent :=
    { pa := pa, size := n, write := true, atomic := false, party := .device, number := 0, tag := 0, loc := 0, at_ := 0, seen := 0, rels := [], entry := none }
  { s with net := s.net.map fun r =>
      if r.done && raced.any (fun h => h.number == r.number && h.party == r.party && overlaps h.pa h.size r.target.pa 16) then
        { r with value := BitVec.ofNat 128 (freeRaced [here] s.fresh r.target.pa 16 r.value.toNat), fill := false }
      else r }

end Sys2Proof.Machine
end

