-- ==== Sys2Proof/Machine/Home.lean ====
section
/-! DEFINITION. What homes do: residency of lines (spec/09_line.md R187, R192, R193), versions (spec/22_hypothesis.md R381-R389), reads
and writes performed at a home (R185, R194, R195, R197). -/

namespace Sys2Proof.Machine

/-! ### Messages to other modules (R209, R377, R423) -/

/-- Is a peer module lost (R423)? A peer of which nothing is known is not. -/
def State.peerLost (s : State) (mid : Nat) : Bool := s.peers.any fun p => p.mid == mid && p.lost
/-- The other modules that this one has met and that are not lost. -/
def State.livePeers (s : State) : List Nat := (s.peers.filter fun p => !p.lost && p.mid != s.mid).map Peer.mid
/-- The number of the next packet to another module (R425). -/
def State.linkNo (s : State) (mid : Nat) : BitVec 16 :=
  BitVec.ofNat 16 (countWhere (fun o => match o with
    | .request m _ _ => m == mid
    | .response m _ _ => m == mid
    | .wake m _ _ => m == mid
    | _ => false) s.out)
/-- A packet of a party of a part to another module (R209). -/
def State.packetOf (s : State) (mid cix : Nat) (party : RemoteParty) (loc : BitVec 32) (pa : Nat) (hyp : BitVec 20) (page : Option Leaf) (a : RemoteAccess) : Packet :=
  let k : Packet :=
    { mid := s.mid, inc := s.inc, party := party, loc := loc, cid := ((s.part? cix).map fun p => p.cid.setWidth 32).getD 0, pa := pa, hyp := hyp
      seqNo := BitVec.ofNat 16 s.fresh, access := a, linkNo := s.linkNo mid, tree := ((s.part? cix).map fun p => p.treeOf hyp).getD [] }
  match page with
  | some l => { k with hsh := l.hsh, cached := l.plc == .hbmCached || l.plc == .hostCached, wa := l.wa, evp := l.evp, sync := l.sync
                       hyp := if l.hyp || l.sync then hyp else 0, tree := if l.hyp || l.sync then k.tree else [] }
  | none => k
/-- A message of a unit of this module to another one. -/
def State.tellPeer (s : State) (cix : Nat) (party : RemoteParty) (mid pa : Nat) (a : RemoteAccess) : State :=
  { s with out := s.out ++ [.request mid .device (s.packetOf mid cix party (BitVec.ofNat 32 (s.mid * 2 ^ 24)) pa 0 none a)], fresh := s.fresh + 1 }

/-! ### Slices (R187, R192) -/

def blankSlice (l : ClusterLoc) : Slice :=
  { loc := l, lines := [], misses := [], queue := [], backs := [], replicas := [], hot := [], asleep := false, lastUse := 0 }
def State.slice (s : State) (l : ClusterLoc) : Slice := (s.slices.find? fun x => x.loc = l).getD (blankSlice l)
def State.setSlice (s : State) (x : Slice) : State :=
  { s with slices := if s.slices.any (fun y => decide (y.loc = x.loc)) then replaceFirst (fun y => decide (y.loc = x.loc)) x s.slices
                     else x :: s.slices }
/-- Lines a slice can hold beside the vault window (R182). -/
def State.sliceRoom (s : State) (l : ClusterLoc) : Nat := (8 - s.winOf l) * 8192

/-- The victim of an eviction (R192): lowest EVP, then least recent use. -/
def victim : List SliceLine → Option SliceLine
  | [] => none
  | x :: rest => match victim rest with
    | none => some x
    | some y => if y.evp < x.evp ∨ (y.evp = x.evp ∧ y.used < x.used) then some y else some x
/-- A line brought in. With no room a replica goes first (R187), else the victim; a dirty one takes a write-back entry, and so none is taken
while all 16 are held. -/
def Slice.bring (x : Slice) (room : Nat) (l : SliceLine) : Option Slice :=
  if room = 0 then some x
  else if x.lines.length + x.replicas.length < room then some { x with lines := l :: x.lines }
  else if x.replicas ≠ [] then some { x with lines := l :: x.lines, replicas := x.replicas.dropLast }
  else match victim x.lines with
    | none => some x
    | some w =>
      let kept := x.lines.filter fun y => y.line != w.line
      if w.dirty = false then some { x with lines := l :: kept }
      else if x.backs.length < 16 then some { x with lines := l :: kept, backs := w.line :: x.backs } else none
def Slice.holds (x : Slice) (line : Nat) : Bool := x.lines.any fun y => y.line == line
/-- A request is seen: the slice wakes (R434), and the line's use and dirty mark are noted. -/
def Slice.note (x : Slice) (now line : Nat) (write : Bool) : Slice :=
  { x with asleep := false, lastUse := now
           lines := x.lines.map fun y => if y.line = line then { y with used := now, dirty := y.dirty || write } else y }

/-- A write past the slice (R193): through a write-back entry, while one is free. -/
def Slice.writePast (x : Slice) (line : Nat) : Option Slice :=
  if x.backs.contains line then some x else if x.backs.length < 16 then some { x with backs := line :: x.backs } else none
/-- Does a request go past the slice to HBM (R182, R183)? It has a miss entry for as long as it is performed. -/
def State.pastSlice (s : State) (home : ClusterLoc) (t : Target) : Bool :=
  t.leaf.plc == .hbmUncached || (t.leaf.plc == .hbmCached && s.sliceRoom home == 0)
/-- The requests that still wait in a home's input queue, in arrival order (R192). -/
def State.inputQueue (s : State) (home : ClusterLoc) : List Nat := (s.slice home).queue.filter fun q => s.net.any fun r => r.id == q && !r.done
/-- May a request take a miss entry: one of the 64 is free, and no request that came earlier waits for one? -/
def State.entryFree (s : State) (home : ClusterLoc) (id : Option Nat) : Bool :=
  decide ((s.slice home).misses.length < 64) && ((s.inputQueue home).isEmpty || (s.inputQueue home).head? == id)
/-- Does the home find what a request needs (R192, R193)? A line of an HBM_CACHED page that is neither resident nor to be written past
the slice waits in a miss entry; the answer is none until it is there. -/
def State.sliceReady (s : State) (home : ClusterLoc) (t : Target) (write : Bool) (id : Option Nat) : Option State :=
  let x := s.slice home
  let line := lineOf t.pa
  if s.pastSlice home t then (if s.entryFree home id then some (s.setSlice (x.note s.clk.toNat line write)) else none)
  else if t.leaf.plc ≠ .hbmCached ∨ x.holds line then some (s.setSlice (x.note s.clk.toNat line write))
  else if write ∧ t.leaf.wa = false then (x.writePast line).map fun y => s.setSlice (y.note s.clk.toNat line write)
  else none
/-- The miss of a request with a number: taken in an entry when one of the 64 is free and no request waits before it, else it waits in the home's
input queue, in arrival order. -/
def State.sliceMiss (s : State) (home : ClusterLoc) (t : Target) (write : Bool) (id : Nat) : State :=
  let x := s.slice home
  let line := lineOf t.pa
  let waits : State :=
    if x.queue.contains id then s else s.setSlice { x with queue := s.inputQueue home ++ [id], asleep := false }
  if s.pastSlice home t then (if s.entryFree home (some id) then s else waits)
  else if t.leaf.plc = .hbmCached ∧ x.holds line = false ∧ (write = false ∨ t.leaf.wa) ∧ x.misses.any (fun m => m.1 == line) = false then
    if s.entryFree home (some id) then
      s.setSlice { x with misses := x.misses ++ [(line, t.leaf.evp, write)], queue := (s.inputQueue home).filter fun q => q != id, asleep := false }
    else waits
  else s
/-- An access that the home performs as it issues (R189): its miss, when it has one, takes an entry and returns at once. It waits while every entry
is busy, while the line is on its way, or while a write-back it needs finds no entry (R192). -/
def State.sliceVisit (s : State) (home : ClusterLoc) (t : Target) (write : Bool) : Option State :=
  let x := s.slice home
  let line := lineOf t.pa
  match s.sliceReady home t write none with
  | some s => some s
  | none =>
    if (write ∧ t.leaf.wa = false) ∨ s.entryFree home none = false ∨ x.misses.any (fun m => m.1 == line) then none
    else (x.bring (s.sliceRoom home) { line := line, dirty := write, evp := t.leaf.evp, used := s.clk.toNat }).map fun y =>
      s.setSlice (y.note s.clk.toNat line write)

/-! ### Versions (R381-R384) -/

/-- Byte i of a line of data. -/
def lineByte (d : BitVec 1024) (i : Nat) : Byte := d.extractLsb' (8 * i) 8
def setLineByte (d : BitVec 1024) (i : Nat) (b : Byte) : BitVec 1024 :=
  (d &&& ~~~((255#1024) <<< (8 * i))) ||| ((b.setWidth 1024) <<< (8 * i))

def State.lineVersions (s : State) (cix line : Nat) : List Version := s.versions.filter fun v => v.cix == cix && v.line == line
/-- The byte that a reader with a chain of tags sees (R382). -/
def versionByte (vs : List Version) (mem : List Host.Cell) (pa : Nat) : List (BitVec 20) → Byte
  | [] => readByte mem pa
  | t :: rest =>
    match vs.find? fun v => v.tag == t && v.mask.getLsbD (pa % 128) with
    | some v => lineByte v.data (pa % 128)
    | none => versionByte vs mem pa rest
/-- n bytes from pa as a reader under a tag sees them at a site. -/
def bytesUnder (vs : List Version) (mem : List Host.Cell) (chain : List (BitVec 20)) (pa : Nat) : Nat → Nat
  | 0 => 0
  | n + 1 => (versionByte vs mem pa chain).toNat + 256 * bytesUnder vs mem chain (pa + 1) n
/-- The regions that only the device writes: save, wait-list spill, version spill (R254). -/
def Part.inRegion (p : Part) (pa n : Nat) : Bool :=
  [regionOf p.csavb p.csavl, regionOf p.cwlb p.cwll, regionOf p.cvsb p.cvsl].any fun r => decide (pa < r.1 + r.2) && decide (r.1 < pa + n)
/-- Does an access pass under another key than the one its line was written under (R257)? -/
def State.otherKey (s : State) (hsh : Bool) (pa : Nat) : Bool := isHbm pa && (s.keys.any fun k => k.1 == lineOf pa && k.2 != hsh)
/-- What a home reads for a request tagged t under a key: n bytes from pa, within one line. A device region reads undefined (R254), and so does a
line that was written under the other key (assumption 72). -/
def State.homeBytes (s : State) (p : Part) (hsh : Bool) (pa n : Nat) (t : BitVec 20) : Nat :=
  if p.inRegion pa n ∨ s.otherKey hsh pa then (Config.freeBits (8 * n) s.fresh).toNat else
  match s.lineVersions p.cix (lineOf pa) with
  | [] => readNat s.mem pa n
  | vs =>
    let site := (p.home pa).site
    bytesUnder vs s.mem (p.siteChain site ((s.siteTag p site t).getD t)) pa n

/-- A version share (R383): the versions that each slice may spill. -/
def State.versionShare (s : State) (p : Part) : Nat :=
  (fieldNat p.cvsl 0 32 * 65536 - s.tableBytes p) / (20 * p.sites.length) / 256
def State.spilledAt (s : State) (p : Part) (home : ClusterLoc) : Nat :=
  countWhere (fun v => v.cix == p.cix && !v.resident && decide (p.home v.line = home)) s.versions
/-- The least recently used resident version of a line. -/
def oldestVersion : List Version → Option Version
  | [] => none
  | v :: rest => match oldestVersion rest with
    | none => some v
    | some w => if w.used < v.used then some w else some v
def sameVersion (a b : Version) : Bool := a.cix == b.cix && a.line == b.line && a.tag == b.tag
/-- Room for one more version of a line: at most four stay resident (R383); none when the slice's share is full (R384). -/
def State.versionRoom (s : State) (p : Part) (line : Nat) : Option State :=
  let here := (s.lineVersions p.cix line).filter Version.resident
  if here.length < 4 then some s
  else if s.spilledAt p (p.home line) < s.versionShare p then
    match oldestVersion here with
    | none => some s
    | some v => some { s with versions := s.versions.map fun w => if sameVersion v w then { w with resident := false } else w }
  else none

/-- Bytes written into a line under a mask of the bytes from offset o. -/
def setLineBytes (d : BitVec 1024) (o : Nat) (data : Nat) : Nat → BitVec 1024
  | 0 => d
  | n + 1 => setLineBytes (setLineByte d o (BitVec.ofNat 8 data)) (o + 1) (data / 256) n
def maskBytes (m : BitVec 128) (o : Nat) : Nat → BitVec 128
  | 0 => m
  | n + 1 => maskBytes (m ||| BitVec.twoPow 128 o) (o + 1) n

/-- The code by which a home asks the table's module for a capacity refute, among the hypothesis instructions' SUBs. -/
def capacityCode : Nat := 5
/-- A capacity refute (R384): CAUSE 2, no counter; the table's home performs it, on another module when it told so. -/
def State.capacityRefute (s : State) (cix : Nat) (t : BitVec 20) : State :=
  match s.part? cix with
  | none => s
  | some p =>
    if p.tableModule ≠ s.mid then s.tellPeer cix .unit p.tableModule 0 (.hypothesis capacityCode (t.setWidth 64) true none)
    else if p.isOpen t then (s.setPart (p.refute (hypId t) 2 s.fresh none [])).bump else s

/-- Is there a version of the line under a tag, or room for one? -/
def State.versionTaken (s : State) (p : Part) (pa : Nat) (t : BitVec 20) : Bool :=
  (s.lineVersions p.cix (lineOf pa)).any (fun v => v.tag == t) || (s.versionRoom p (lineOf pa)).isSome
/-- A version written: created filled with what its tag's reader sees, then the bytes and their mask bits. -/
def State.writeVersion (s : State) (p : Part) (hsh : Bool) (pa n : Nat) (t : BitVec 20) (data : Nat) : State :=
  let line := lineOf pa
  let o := pa % 128
  let now := s.fresh
  match (s.lineVersions p.cix line).find? fun v => v.tag == t with
  | some _ =>
    { s with versions := s.versions.map fun v =>
               if v.cix = p.cix ∧ v.line = line ∧ v.tag = t then
                 { v with data := setLineBytes v.data o data n, mask := maskBytes v.mask o n, used := now } else v
             fresh := now + 1 }
  | none =>
    match s.versionRoom p line with
    | none => s.capacityRefute p.cix t
    | some s =>
      let fill := BitVec.ofNat 1024 (s.homeBytes p hsh line 128 t)
      { s with versions := { cix := p.cix, line := line, tag := t, data := setLineBytes fill o data n, mask := maskBytes 0 o n
                             resident := true, used := now } :: s.versions
               fresh := now + 1 }

/-! ### Committed memory -/

/-- Word 1 of a leaf that is valid, written by software: ST and SGEN are undefined from then on (R264). A write while V is 0 defines
them again. -/
def State.noteEntry (s : State) (entry : Nat) : State :=
  if readNat s.mem entry 1 % 4 = 3 ∧ s.isLeafEntry entry then
    (if s.scribbled.contains entry then s else { s with scribbled := entry :: s.scribbled })
  else { s with scribbled := s.scribbled.filter fun e => e != entry }
/-- A leaf entry that software makes SEALED from its start (R264). -/
def State.noteSealed (s : State) (entry : Nat) : State :=
  if readNat s.mem entry 1 % 4 = 3 ∧ bitsOf (readNat s.mem (entry + 8) 8) 32 3 = 1 then
    { s with sealedAt := (entry, s.fresh) :: s.sealedAt.filter fun e => e.1 != entry } else s
/-- Entries that a write of n bytes meets, and those whose word 1 it meets. -/
def entriesMet (pa n : Nat) : List Nat :=
  ((List.range (n / 16 + 2)).map fun i => pa / 16 * 16 + 16 * i).filter fun e => decide (pa < e + 16) && decide (e < pa + n)
def entriesOf (pa n : Nat) : List Nat := (entriesMet pa n).filter fun e => decide (e + 8 < pa + n)
/-- A write that reaches a SEALED page's frame some other way leaves its bytes undefined in the page's copies (R271); a store of a strand that the page
itself has translated, before it was SEALED, does not. -/
def State.scrambleLine (s : State) (entry : Option Nat) (pa n : Nat) (l : L1Line) : L1Line :=
  if l.mid = s.mid ∧ l.line = lineOf pa ∧ entry ≠ some l.entry ∧ (s.pageNow l.entry).1 = .sealed then
    { l with data := setLineBytes l.data (pa % 128) (Config.freeBits (8 * n) s.fresh).toNat n } else l
/-- A line as it stands before a write under a key (R257): the rest of one that was written under the other key is undefined from then on. -/
def State.rekeyed (s : State) (hsh : Bool) (pa : Nat) : State :=
  let mem := if s.otherKey hsh pa then writeNat s.mem (lineOf pa) (Config.freeBits 1024 (s.fresh + 1)).toNat 128 else s.mem
  if isHbm pa then { s with mem := mem, keys := (lineOf pa, hsh) :: s.keys.filter fun k => k.1 != lineOf pa } else s
/-- Bytes written to committed memory by an access: through which page of this module's strands, and under which key. -/
def State.writeMem (s : State) (entry : Option Nat) (hsh : Bool) (pa n data : Nat) : State :=
  let s := s.rekeyed hsh pa
  let s1 := { s with mem := writeNat s.mem pa data n
                     cores := s.cores.map fun c => { c with l1 := c.l1.map (s.scrambleLine entry pa n) }
                     slices := s.slices.map fun x => { x with replicas := x.replicas.map (s.scrambleLine entry pa n) } }
  if isHbm pa then
    { s1 with scribbled := ((entriesOf pa n).foldl State.noteEntry s).scribbled, sealedAt := ((entriesMet pa n).foldl State.noteSealed s1).sealedAt }
  else s1
/-- A line of a page as its copies show it (R271): bytes that were written some other way since the page was SEALED are undefined. -/
def State.copyOf (s : State) (leaf : Leaf) (line : Nat) (data : BitVec 1024) : BitVec 1024 :=
  match if leaf.st = .sealed ∧ leaf.mid = s.mid then (s.sealedAt.find? fun e => e.1 == leaf.entry) else none with
  | none => data
  | some (_, since) =>
    let hits := s.recent.filter fun r => r.write && r.entry != some leaf.entry && decide (since ≤ r.seen) && overlaps r.pa r.size line 128
    BitVec.ofNat 1024 (freeRaced hits s.fresh line 128 data.toNat)

/-- Does a line have an uncorrectable error? An access that meets one leaves the page POISONED, and the scrivener of the home's site notes it
(R188, R439). -/
def State.isBad (s : State) (pa : Nat) : Bool := s.badLines.contains (lineOf pa)
def State.meetErrorOf (s : State) (p : Part) (loc : BitVec 32) (t : Target) : State :=
  (s.poisonPage t.leaf.entry).scrivener (p.home t.pa).site 9 0 p.cix 0 loc (BitVec.ofNat 64 t.pa) 0

/-! ### Watchpoints and races (R195-R197) -/

def blankRecord (c : FaultCode) : Record :=
  { code := c, sub := 0, frz := false, pair := false, ext := false, held := false, sidx := 0, lid := 0, pc := 0, rpc := 0, addr := 0
    info := 0, ghnd := 0, loc := 0, hyp := 0, clk := 0 }
/-- An event record that names a writer. -/
def writerRecord (s : State) (c : FaultCode) (w : Writer) (addr info : Word64) : Record :=
  let r := { blankRecord c with addr := addr, info := info, loc := w.loc, hyp := w.hyp, clk := s.clk }
  match w.strand with
  | some i => { r with sidx := i.sidx, lid := BitVec.ofNat 32 i.grp.lid, ghnd := groupHandle i.grp }
  | none => r

def debugOf (p : Part) (site : Nat) : HomeDebug :=
  ((p.debug).find? fun d => d.site == site).getD { site := site, wbase := Vector.replicate 4 0, wctl := Vector.replicate 4 0, mixtrap := false }
/-- Does watchpoint n of a block cover bytes [pa, pa + n)? -/
def watchHit (d : HomeDebug) (i pa n : Nat) (cell : Bool) : Bool :=
  let base := (d.wbase[i]?).getD 0
  let ctl := (d.wctl[i]?).getD 0
  let lo := fieldNat base 3 45 * 8
  let len := fieldNat ctl 8 24 * 8
  ctl.getLsbD 0 && (!cell || ctl.getLsbD 1) && decide (0 < len) && decide (pa < lo + len) && decide (lo < pa + n)
/-- Log2 of a write's size, as WATCH tells it (R197); the length of a host's write that is no power of two is rounded up (assumption 76). -/
def log2Size (n : Nat) : Nat := if n ≤ 1 then 0 else if n ≤ 2 then 1 else if n ≤ 4 then 2 else if n ≤ 8 then 3 else if n ≤ 16 then 4 else if n ≤ 32 then 5 else 6
/-- One WATCH record for each watchpoint a write hits. -/
def State.watch (s : State) (p : Part) (pa n : Nat) (cell : Bool) (w : Writer) : State :=
  let d := debugOf p (p.home pa).site
  (List.range 4).foldl (fun s i =>
    if watchHit d i pa n cell then
      sendRecord s p.cix none (writerRecord s .watch w (BitVec.ofNat 64 pa)
        (BitVec.ofNat 64 (i + log2Size n * 16 + w.kind * 256 + w.sig.toNat * 65536)))
    else s) s

/-- Is a party a strand, of this module or another? -/
def Party.isStrand : Party → Bool
  | .strand _ => true
  | .remote _ _ (.strand _ _) => true
  | _ => false
/-- Is it a copy job? -/
def Party.isJob : Party → Bool
  | .job _ => true
  | .remote _ _ (.job _) => true
  | _ => false
/-- Races that a home reports (R195): of two strands, or of a strand and a copy job, within 256 network cycles. -/
def State.reportable (s : State) (w : Writer) (r : Recent) : Bool :=
  decide (s.clk.toNat < r.at_ + mixWindow)
    && ((w.party.isStrand && (r.party.isStrand || r.party.isJob)) || (w.party.isJob && r.party.isStrand))
/-- The access is noted, and the races reported where MIXTRAP is set. -/
def State.noteAccess (s : State) (p : Part) (pa n : Nat) (write : Bool) (tag : BitVec 20) (w : Writer) : State :=
  let hits := (s.mixedWith p pa n write tag w).filter (s.reportable w)
  let s1 := if (debugOf p (p.home pa).site).mixtrap then
      hits.foldl (fun s r => sendRecord s p.cix none (writerRecord s .mixed w (BitVec.ofNat 64 pa) (r.loc.setWidth 64))) s else s
  s1.noteRecent p pa n write tag w

/-! ### Reads and writes performed at a home -/

/-- The committed line or a version is written by a party's access tagged t (R381, R388, R389): a refuted or outdated tag discards, and so does
a capacity refute (R384); what is written is watched (R197). Bytes that race another write of a different size are undefined, and so are
those that racing reads still bring back (R195). -/
def State.homeWrite (s : State) (p : Part) (t : Target) (n : Nat) (tag : BitVec 20) (data : Nat) (w : Writer) : State :=
  let tag := if t.leaf.hyp then tag else 0
  let hits := s.mixedWith p t.pa n true tag w
  let data := freeRaced (hits.filter Recent.write) s.fresh t.pa n data
  let w := { w with old := s.homeBytes p t.leaf.hsh t.pa n tag }
  let s := ((s.freeReads t.pa n hits).noteAccess p t.pa n true tag w).bump
  match s.siteTag p (p.home t.pa).site tag with
  | none => s
  | some e =>
    if hypId e = 0 then (s.watch p t.pa n false w).writeMem w.entry t.leaf.hsh t.pa n data
    else if s.versionTaken p t.pa e then (s.watch p t.pa n false w).writeVersion p t.leaf.hsh t.pa n e data
    else s.capacityRefute p.cix e
/-- A read uses the versions of its line that its chain reaches (R383). -/
def State.useVersions (s : State) (p : Part) (pa : Nat) (tag : BitVec 20) : State :=
  if tag = 0 then s else
  let site := (p.home pa).site
  let chain := p.siteChain site ((s.siteTag p site tag).getD tag)
  { s with versions := s.versions.map fun v => if v.cix = p.cix ∧ v.line = lineOf pa ∧ chain.contains v.tag then { v with used := s.fresh } else v }
/-- A read performed at the home: the state after it and the value, whose bytes that race a write of a different size are undefined. -/
def State.homeRead (s : State) (p : Part) (t : Target) (n : Nat) (tag : BitVec 20) (w : Writer) : State × Nat :=
  let tag := if t.leaf.hyp then tag else 0
  let hits := (s.mixedWith p t.pa n false tag w)
  let v := s.homeBytes p t.leaf.hsh t.pa n tag
  (((s.useVersions p t.pa tag).noteAccess p t.pa n false tag w).bump, freeRaced hits s.fresh t.pa n v)
/-- The value that an atomic finds, its racing bytes undefined. -/
def State.oldValue (s : State) (p : Part) (t : Target) (n : Nat) (tag : BitVec 20) (w : Writer) : Nat :=
  let tag := if t.leaf.hyp then tag else 0
  freeRaced ((s.mixedWith p t.pa n true tag w).filter Recent.write) (s.fresh + 1) t.pa n (s.homeBytes p t.leaf.hsh t.pa n tag)

/-! ### Atomics (R200, R201, R242) -/

/-- FP32 addition of an ATOM: RNE, canonical NaN, no flag. -/
def atomFadd (a b : Nat) : Nat :=
  (roundTo fp32Format .rne false 0 (exactAdd .rne (decodeFloat fp32Format a) (decodeFloat fp32Format b))).1
def atomNew (aop : Aop) (w old x : Nat) : Nat :=
  match aop with
  | .add => (old + x) % 2 ^ w
  | .and => old &&& x
  | .or => old ||| x
  | .xor => old ^^^ x
  | .min => if toSigned w old ≤ toSigned w x then old else x
  | .max => if toSigned w x ≤ toSigned w old then old else x
  | .umin => Nat.min old x
  | .umax => Nat.max old x
  | .xchg => x
  | .fadd => atomFadd old x

end Sys2Proof.Machine
end

