-- ==== Sys2Proof/Machine/Escapement.lean ====
section
/-! DEFINITION. The escapement: cell operations at their home (spec/14_cell.md R274-R298, spec/15_barrier.md R299-R305,
spec/16_queue.md R306-R325), waits, wakes and withdrawals. -/

namespace Sys2Proof.Machine

/-- The party of a cell operation: where it stands, the strand it is, its HCUR, whether it is a strand (R280, R284), and what happens before
the operation (R218). -/
structure Issuer where
  cix    : Nat
  mid    : Nat
  inc    : Nat
  who    : StrandId
  loc    : BitVec 32
  hyp    : BitVec 20
  ls     : BitVec 8
  strand : Bool
  party  : Party
  spot   : Option Spot
  view   : View
  /-- A copy job's identifier, as WATCH tells it (R197); whether a strand of another module is of a dynamic family (R331). -/
  sig    : BitVec 16 := 0
  dynamic : Bool := false
  deriving DecidableEq, Repr

/-- How an operation ends at the escapement: a status with a value and an item, a fault, or a park. -/
inductive CellResult
  | done (st : Status) (value : Word64) (item : LineBits)
  | fault (f : FaultInfo)
  | parked (value : Word64)
  deriving DecidableEq, Repr

/-- Codes of statuses (R285). -/
def statusCode : Status → Nat
  | .ok => 0
  | .stale => 1
  | .dead => 2
  | .broken => 3
  | .abandoned => 4
  | .ended => 5
  | .full => 6
  | .empty => 7
  | .waitfull => 8
  | .owner => 9

/-! ### Fields of bodies -/

def hi32 (x : Word64) : BitVec 32 := x.extractLsb' 32 32
def lo32 (x : Word64) : BitVec 32 := x.extractLsb' 0 32
def words (hi lo : BitVec 32) : Word64 := hi ++ lo
/-- A field of a body word replaced. -/
def setField (x : Word64) (lo n v : Nat) : Word64 :=
  BitVec.ofNat 64 (x.toNat - fieldNat x lo n * 2 ^ lo + v % 2 ^ n * 2 ^ lo)

def CellTag.ofOp : CellOp → Option CellTag
  | .init _ _ => none
  | .kill => none
  | .qry => none
  | .ctrAdd _ => some .counter
  | .ctrRd => some .counter
  | .ctrWge _ => some .counter
  | .poison => some .counter
  | .barArr => some .barrier
  | .barWt _ => some .barrier
  | .barArw => some .barrier
  | .barDrop => some .barrier
  | .barAdj _ => some .barrier
  | .lckTake => some .lock
  | .lckTry => some .lock
  | .lckGive => some .lock
  | .cndWait => some .cond
  | .cndSig => some .cond
  | .cndAll => some .cond
  | .qPut _ _ _ => some .queue
  | .qTake _ => some .queue
  | .qJoin => some .queue
  | .qGovern _ _ _ => some .queue
  | .qClose => some .queue
  | .launchTake => some .queue
/-- Operations that the owner rule binds (R280). -/
def ownerBound : CellOp → Bool
  | .init _ _ => false
  | .qry => false
  | .ctrRd => false
  | .ctrWge _ => false
  | .barWt _ => false
  | .launchTake => false
  | _ => true
/-- Mutating operations, which watchpoints with CELL set report (R197). -/
def mutating : CellOp → Bool
  | .init _ _ => true
  | op => ownerBound op

/-! ### Waits and wakes (R279-R282) -/

def State.waitsAt (s : State) (pa : Nat) : List Wait := s.waits.filter fun w => w.pa == pa
/-- Statuses with which a wait that completes acquires (R211). -/
def WakeResult.acquires : WakeResult → Bool
  | .status st _ => st == .ok || st == .abandoned || st == .ended
  | .poisoned => false
/-- Entries of a home's waits in ascending number that return from the spill region while there is room in the escapement (R279). -/
def unspill (mine : Wait → Bool) : Nat → List Wait → List Wait
  | _, [] => []
  | room, w :: rest =>
    if mine w && w.spilled then
      (if w.entries ≤ room then { w with spilled := false } :: unspill mine (room - w.entries) rest else w :: rest)
    else w :: unspill mine room rest
/-- Waits of a part at a home. -/
def Part.waitsHere (p : Part) (home : ClusterLoc) (w : Wait) : Bool := p.inRanges w.pa 1 && decide (p.home w.pa = home)
def State.entriesOf (s : State) (q : Wait → Bool) : Nat := (s.waits.filter q).foldl (fun n w => n + w.entries) 0
/-- Entries of a home return from the spill region, oldest first, as room allows. -/
def State.returnSpilled (s : State) (p : Part) (home : ClusterLoc) : State :=
  let used := s.entriesOf fun w => p.waitsHere home w && !w.spilled
  { s with waits := unspill (p.waitsHere home) (2048 - used) s.waits }
/-- A wait entry removed. -/
def State.dropWait (s : State) (w : Wait) : State :=
  let s : State := { s with waits := s.waits.filter fun x => x.number != w.number }
  match s.parts.find? fun (p : Part) => p.current && p.inRanges w.pa 1 with
  | some p => s.returnSpilled p (p.home w.pa)
  | none => s
/-- The wake of a wait: its entry is removed, and what it carries is sent, with the releases on its cell (R213, R214). -/
def State.wakeWait (s : State) (w : Wait) (res : WakeResult) : State :=
  let rels := w.rels.foldl noteRel (s.granule w.pa).rels
  let s := s.dropWait w
  if w.mid = s.mid then { s with wakes := s.wakes ++ [{ id := s.fresh, who := w.who, res := res, rels := rels }], fresh := s.fresh + 1 }
  else
    let party : Party := .remote w.mid w.inc (.strand w.who 0)
    let s := if res.acquires then s.setView party (acquireFrom (s.viewOf party) .pod (some (locSpot w.loc false)) rels) else s
    { s with out := s.out ++ [.wake w.mid w.who res] }
def State.wakeStatus (s : State) (w : Wait) (st : Status) : State := s.wakeWait w (.status st 0)
def State.wakeAll (s : State) (ws : List Wait) (st : Status) : State := ws.foldl (fun s w => s.wakeStatus w st) s
/-- Entries an escapement holds for a part: 2,048 resident and its share of the spill region (R279). -/
def waitShare (p : Part) : Nat := (if p.current then 2048 else 0) + fieldNat p.cwll 0 32 * 65536 / (20 * p.sites.length) / 32
def State.waitsUsed (s : State) (p : Part) (home : ClusterLoc) : Nat := s.entriesOf (p.waitsHere home)
def State.waitRoom (s : State) (p : Part) (pa entries : Nat) : Bool := decide (s.waitsUsed p (p.home pa) + entries ≤ waitShare p)
/-- Entries a parked put takes (R312). -/
def putEntries (len : Nat) : Nat := if len ≤ 16 then 1 else if len ≤ 32 then 2 else 3
/-- A wait entry written with its arrival number, in the escapement or, when that is full, in the spill region. -/
def State.addWait (s : State) (p : Part) (iss : Issuer) (pa entries : Nat) (kind : WaitKind) : State :=
  let used := s.entriesOf fun w => p.waitsHere (p.home pa) w && !w.spilled
  { s with waits := s.waits ++ [{ pa := pa, number := s.fresh, mid := iss.mid, inc := iss.inc, who := iss.who, loc := iss.loc
                                  hyp := iss.hyp, ls := iss.ls, dynamic := iss.dynamic, kind := kind, entries := entries
                                  spilled := !p.current || decide (2048 < used + entries), rels := [] }]
           fresh := s.fresh + 1 }
/-- A park: with no room it changes nothing (R279). -/
def State.park (s : State) (p : Part) (iss : Issuer) (va : Word64) (pa entries : Nat) (kind : WaitKind) (value : Word64) : State × CellResult :=
  if s.waitRoom p pa entries then (s.addWait p iss pa entries kind, .parked value)
  else if iss.strand then (s, .fault (faultAt .waitfull va 0)) else (s, .done .waitfull 0 0)

/-! ### Counters (R291-R294) -/

/-- VALUE := VALUE + addend, and the waiters whose threshold is met are woken. -/
def counterAdd (s : State) (g : Granule) (addend : Word64) : State :=
  let v := g.b1 + addend
  let s := s.setGranule { g with b1 := v }
  if g.psn then s
  else s.wakeAll ((s.waitsAt g.pa).filter fun w => match w.kind with
    | .counterGe t => decide (t.toNat ≤ v.toNat)
    | _ => false) .ok

/-! ### Barriers (R299-R302) -/

def barExp (g : Granule) : Nat := (lo32 g.b1).toNat
def barArrived (g : Granule) : Nat := (hi32 g.b1).toNat
def barPhase (g : Granule) : BitVec 32 := lo32 g.b2
def barBroken (g : Granule) : Bool := g.b2.getLsbD 32
def setBar (g : Granule) (arr exp : Nat) : Granule := { g with b1 := words (BitVec.ofNat 32 arr) (BitVec.ofNat 32 exp) }
/-- The completion of R301, checked after an arrival, a drop or an adjustment; whether it happened. -/
def phaseCheck (s : State) (g : Granule) : State × Bool :=
  let ws := s.waitsAt g.pa
  if barExp g ≤ barArrived g ∧ (0 < barArrived g ∨ ws ≠ []) then
    ((s.setGranule { setBar g 0 (barExp g) with b2 := words (hi32 g.b2) (barPhase g + 1) }).wakeAll ws .ok, true)
  else (s.setGranule g, false)
/-- A withdrawn park breaks the barrier (R302). -/
def breakBarrier (s : State) (g : Granule) : State :=
  (s.setGranule { g with b2 := words 1 (barPhase g) }).wakeAll (s.waitsAt g.pa) .broken

/-! ### Locks (R295) -/

def lckNext (g : Granule) : BitVec 32 := lo32 g.b1
def lckServe (g : Granule) : BitVec 32 := hi32 g.b1
def lckHeld (g : Granule) : Bool := lckNext g != lckServe g
def setLock (g : Granule) (next serve : BitVec 32) : Granule := { g with b1 := words serve next }
/-- HOLDER: module, incarnation and location (R276). -/
def holderWord (mid inc : Nat) (loc : BitVec 32) : Word64 :=
  BitVec.ofNat 64 (mid % 256 * 2 ^ 56 + inc % 2 ^ 24 * 2 ^ 32 + loc.toNat % 2 ^ 21)
def ticketOf (w : Wait) : Option (BitVec 32) :=
  match w.kind with
  | .lockTurn t => some t
  | _ => none
/-- The waiter whose ticket SERVE reaches first. -/
def nextTurn (serve : BitVec 32) : List Wait → Option (Wait × BitVec 32)
  | [] => none
  | w :: rest =>
    match ticketOf w, nextTurn serve rest with
    | none, r => r
    | some t, none => some (w, t)
    | some t, some (w', t') => if (t - serve).toNat ≤ (t' - serve).toNat then some (w, t) else some (w', t')
/-- SERVE passes to the next ticket that is not void; its waiter is granted with a status; with no waiter the lock is free, or
ABANDONED. -/
def passLock (s : State) (g : Granule) (st : Status) : State :=
  match nextTurn (lckServe g + 1) (s.waitsAt g.pa) with
  | some (w, t) =>
    (s.setGranule { setLock g (lckNext g) t with b2 := holderWord w.mid w.inc w.loc, held := some w.who }).wakeStatus w st
  | none => s.setGranule { setLock g (lckNext g) (lckNext g) with b2 := 0, held := none, abn := decide (st = .abandoned) }
/-- A free or abandoned lock taken. -/
def takeFree (s : State) (g : Granule) (mid inc : Nat) (loc : BitVec 32) (who : StrandId) : State × Status :=
  (s.setGranule { setLock g (lckNext g + 1) (lckServe g) with b2 := holderWord mid inc loc, held := some who, abn := false },
   if g.abn then .abandoned else .ok)

/-! ### Conditions (R297) -/

/-- The lock of a condition, in its line. -/
def lockOfCond (s : State) (g : Granule) : Granule := s.granule (lineOf g.pa + g.b1.toNat % 128)
def isCondWait (w : Wait) : Bool := match w.kind with
  | .condTurn => true
  | _ => false
/-- The oldest waiter moves to the lock. -/
def signalOne (s : State) (cpa : Nat) : State × Nat :=
  let g := s.granule cpa
  match (s.waitsAt cpa).find? isCondWait with
  | none => (s, 0)
  | some w =>
    let s := s.setGranule { g with b2 := g.b2 - 1 }
    let l := lockOfCond s g
    let t := lckNext l
    if lckHeld l then
      let moved : List Wait := s.waits.map fun x =>
        if x.number = w.number then { x with pa := l.pa, kind := .lockTurn t, rels := g.rels } else x
      (({ s with waits := moved } : State).setGranule (setLock l (t + 1) (lckServe l)), 1)
    else
      let r := takeFree s l w.mid w.inc w.loc w.who
      (r.1.wakeStatus { w with pa := l.pa, rels := g.rels } r.2, 1)
def signalMany (s : State) (cpa : Nat) : Nat → State × Nat
  | 0 => (s, 0)
  | n + 1 =>
    let a := signalOne s cpa
    let b := signalMany a.1 cpa n
    (b.1, a.2 + b.2)

/-! ### Queues (R306-R318) -/

def qTail (g : Granule) : BitVec 32 := hi32 g.b1
def qHead (g : Granule) : BitVec 32 := lo32 g.b1
def qCount (g : Granule) : Nat := (qTail g - qHead g).toNat
def qClosed (g : Granule) : Bool := g.b2.getLsbD 32
def qLaunch (g : Granule) : Bool := g.b2.getLsbD 41
def qLqi (g : Granule) : Nat := fieldNat g.b2 42 6
def qProducers (g : Granule) : Nat := fieldNat g.b2 48 16
def qSlotBytes (g : Granule) : Nat := 8 * 2 ^ fieldNat g.b2 16 2
def qCapacity (g : Granule) : Nat := 2 ^ fieldNat g.b2 0 5
def qSlotPa (g : Granule) (n : BitVec 32) : Nat := g.pa + 32 + n.toNat % qCapacity g * qSlotBytes g
def isTake (w : Wait) : Bool := match w.kind with
  | .queueTake => true
  | _ => false
def putItemOf (w : Wait) : Option LineBits := match w.kind with
  | .queuePut item => some item
  | _ => none

/-- The family of a strand's launch (R336); 0, which is no launch's identifier, stands for one of another module. -/
def State.familyOf (s : State) (i : StrandId) : Option Nat :=
  (s.part? i.grp.cix).bind fun p => (p.launches.find? fun l => l.lid == i.grp.lid).bind Launch.family
def State.updQueue (s : State) (cix lqi : Nat) (f : LaunchQueue → LaunchQueue) : State :=
  s.updPart cix fun p => { p with queues := p.queues.map fun q => if q.lqi = lqi then f q else q }
/-- An item placed at TAIL; a launch queue keeps where the record came from. -/
def placeItem (s : State) (cix : Nat) (g : Granule) (item : LineBits) (origin : Option Nat × Option Nat × BitVec 16) : State :=
  let s := { s with mem := writeNat s.mem (qSlotPa g (qTail g)) item.toNat (qSlotBytes g) }
  let s := s.setGranule { g with b1 := words (qTail g + 1) (qHead g) }
  if qLaunch g then s.updQueue cix (qLqi g) fun q => { q with origins := q.origins ++ [origin] } else s
/-- Under STOP a part's launch queues refuse new records (R247). -/
def Part.stopping (p : Part) : Bool := p.st == .quiescing && p.draining.isNone
/-- The put of R315, but for its park: the status when it is decided, none when the queue is full. -/
def putDecided (s : State) (cix : Nat) (g : Granule) (item : LineBits) (origin : Option Nat × Option Nat × BitVec 16) : Option (State × Status) :=
  if qClosed g then some (s, .ended)
  else if qLaunch g ∧ ((s.part? cix).map Part.stopping).getD false then some (s, .dead)
  else match (s.waitsAt g.pa).find? isTake with
    | some w => some (s.wakeWait w (.status .ok item), .ok)
    | none => if qCount g < qCapacity g then some (placeItem s cix g item origin, .ok) else none
/-- The item at HEAD taken, and the oldest parked put landed (R309). -/
def takeHead (s : State) (cix : Nat) (g : Granule) : State × LineBits :=
  let item := readBits 512 s.mem (qSlotPa g (qHead g)) (qSlotBytes g)
  let g := { g with b1 := words (qTail g) (qHead g + 1) }
  let s := s.setGranule g
  match (s.waitsAt g.pa).find? fun w => (putItemOf w).isSome with
  | none => (s, item)
  | some w =>
    let family := if w.mid = s.mid then s.familyOf w.who else if w.dynamic then some 0 else none
    ((placeItem s cix g ((putItemOf w).getD 0) (family, none, 0)).wakeStatus w .ok, item)

/-- The governor after an operation on its queue (R325), as the operation has left it. -/
def governorActs (s : State) (cix pa : Nat) : State :=
  match s.part? cix with
  | none => s
  | some p =>
  let g := s.granule pa
  if g.tag ≠ .queue ∨ g.b3.getLsbD 8 = false then s else
  let g := if qCount g ≤ fieldNat g.b3 32 16 then { g with b3 := setField g.b3 9 1 1 } else g
  let s := s.setGranule g
  if g.b3.getLsbD 9 ∧ fieldNat g.b3 48 16 ≤ qCount g ∧ fieldNat g.b3 16 8 < fieldNat g.b3 24 8 then
    let lqi := fieldNat g.b3 10 6
    match p.queues.find? fun q => q.lqi == lqi, p.governors.find? fun t => t.granule == pa with
    | some q, some t =>
      let h := s.granule q.pa
      if h.tag ≠ .queue ∨ h.dead ∨ p.effective h.own.toNat ≠ 0 then s else
      match putDecided s p.cix h t.template (none, some pa, g.gen) with
      | some (s, .ok) =>
        let g := s.granule pa
        s.setGranule { g with b3 := setField (setField g.b3 16 8 (fieldNat g.b3 16 8 + 1)) 9 1 0 }
      | _ => s
    | _, _ => s
  else s

/-! ### Life of a cell (R287-R290) -/

/-- The effective owner of a cell as its header would name it. -/
def effectiveOwner (p : Part) (g : Granule) : Nat := p.effective g.own.toNat
/-- A confirmed owner is rewritten to the effective one by any operation (R393). -/
def settleOwner (p : Part) (g : Granule) : Granule :=
  let e := effectiveOwner p g
  if e = g.own.toNat then g else { g with own := BitVec.ofNat 12 e, ogen := p.genOf e }

/-- The word of CELL.QRY (R290). -/
def queryWord (s : State) (p : Part) (g : Granule) : Word64 :=
  let e := effectiveOwner p g
  BitVec.ofNat 64 (g.gen.toNat * 2 ^ 48 + ((if e = g.own.toNat then g.ogen else p.genOf e).toNat) * 2 ^ 40 + e * 2 ^ 28
    + Nat.min 65535 (s.waitsAt g.pa).length * 2 ^ 12 + (if g.dead then 128 else 0) + (if g.psn then 64 else 0) + (if g.abn then 32 else 0)
    + (if g.tag = .lock ∧ lckHeld g then 16 else 0) + g.tag.code)

/-- A granule freed: the bytes it leaves are not stated (assumption 9). -/
def freeCell (s : State) (g : Granule) : State :=
  { s.setGranule { freeGranule g.pa with gen := g.gen } with
    mem := writeNat s.mem g.pa (Config.freeBits 256 s.fresh).toNat 32, fresh := s.fresh + 1 }
/-- The slot granules of a queue. -/
def slotGranules (g : Granule) : List Nat :=
  (List.range ((qCapacity g * qSlotBytes g + 31) / 32)).map fun i => g.pa + 32 + 32 * i
/-- Conditions of a lock's line that name it. -/
def condsOf (s : State) (l : Granule) : List Granule :=
  s.cells.filter fun c => c.tag == .cond && lineOf c.pa == lineOf l.pa && (lockOfCond s c).pa == l.pa
/-- The HCUR of a waiter; that of a strand of this module follows its resolves (R387). -/
def State.waiterHyp (s : State) (w : Wait) : BitVec 20 :=
  if w.mid = s.mid then ((s.strand? w.who).map Strand.hcur).getD w.hyp else w.hyp
/-- A cell becomes DEAD: its waiters are woken with DEAD, but for those under a refuted tag, which are orphaned where they run; conditions of a
dead lock die with it (R287). -/
def deadenOne (refuted : List (BitVec 20)) (s : State) (g : Granule) : State :=
  (s.setGranule { s.granule g.pa with dead := true }).wakeAll ((s.waitsAt g.pa).filter fun w => !refuted.contains (s.waiterHyp w)) .dead
def deaden (refuted : List (BitVec 20)) (s : State) (g : Granule) : State :=
  let s := deadenOne refuted s g
  if g.tag = .lock then (condsOf s g).foldl (deadenOne refuted) s else s
/-- CELL.KILL (R287, R289). -/
def killCell (s : State) (p : Part) (g : Granule) : State :=
  let s := if g.tag = .lock then (condsOf s g).foldl (deadenOne []) s else s
  let s := s.wakeAll (s.waitsAt g.pa) .dead
  let s := if g.tag = .queue then
      let s := (slotGranules g).foldl (fun s pa => freeCell s (s.granule pa)) s
      if qLaunch g then s.updPart p.cix fun p => { p with queues := p.queues.filter fun q => q.lqi != qLqi g }
      else s.updPart p.cix fun p => { p with governors := p.governors.filter fun t => t.granule != g.pa }
    else s
  freeCell s { g with gen := g.gen + 1 }

/-- A queue's scheduler registers at CELL.INIT (R319-R321). -/
def newLaunchQueue (s : State) (lqi pa : Nat) (handle : Word64) : LaunchQueue :=
  { lqi := lqi, born := s.fresh, handle := handle, pa := pa, period := 1100000, budget := 0, deadline := s.clk + 1100000
    remain := BitVec.allOnes 64, overrun := false, origins := [] }
/-- CELL.INIT at the home (R288, R300, R308); page is 2^bits bytes. -/
def initCell (s : State) (p : Part) (iss : Issuer) (va : Word64) (bits pa : Nat) (imm : BitVec 32) (arg : Word64) : State × CellResult :=
  let g0 := s.granule pa
  let addr := va.toNat % 2 ^ 56
  let handle : Word64 := BitVec.ofNat 64 (g0.gen.toNat % 256 * 2 ^ 56 + addr)
  let owned := { g0 with own := iss.hyp.extractLsb' 0 12, ogen := iss.hyp.extractLsb' 12 8, abn := false, psn := false, dead := false, held := none
                         b1 := 0, b2 := 0, b3 := 0, rels := [] }
  let made (g : Granule) : State × CellResult := (s.setGranule g, .done .ok handle 0)
  if g0.tag ≠ .free then (s, .fault (faultAt .type va g0.tag.code)) else
  match imm.toNat % 8 with
  | 1 => made { owned with tag := .counter, b1 := arg }
  | 2 => made { owned with tag := .barrier, b1 := words 0 (lo32 arg) }
  | 3 => made { owned with tag := .lock }
  | 4 =>
    let logc := imm.toNat / 8 % 32
    let ssz := imm.toNat / 256 % 4
    let lnch := imm.toNat / 1024 % 2
    let lqi := imm.toNat / 2048 % 64
    let h := { owned with tag := .queue, b2 := BitVec.ofNat 64 (lqi * 2 ^ 42 + lnch * 2 ^ 41 + ssz * 2 ^ 16 + logc) }
    let slots := slotGranules h
    if 2 ^ bits < addr % 2 ^ bits + 32 + 32 * slots.length then (s, .fault (faultAt .align va 0))
    else match slots.find? fun x => (s.granule x).tag != .free with
      | some x => (s, .fault (faultAt .type va (s.granule x).tag.code))
      | none =>
        if lnch = 1 ∧ p.queues.any (fun q => q.lqi == lqi) then (s, .done .full 0 0) else
        let old := s.cells.filter fun c => !slots.contains c.pa
        let s := { s with cells := slots.map (fun x => { freeGranule x with gen := (s.granule x).gen, tag := .qslot }) ++ old }
        let s := s.setGranule h
        let s := if lnch = 1 then
            (s.updPart p.cix fun p => { p with queues := p.queues ++ [newLaunchQueue s lqi pa handle]
                                               windows := p.windows.filter fun w => w.lqi != lqi }).bump
          else s
        (s, .done .ok handle 0)
  | _ =>
    let la := arg.toNat % 2 ^ 56
    if la % 32 ≠ 0 ∨ la / 128 ≠ addr / 128 ∨ la = addr then (s, .fault (faultAt .type va 0)) else
    let l := s.granule (lineOf pa + la % 128)
    if arg.toNat / 2 ^ 56 ≠ l.gen.toNat % 256 then (s, .done .stale 0 0)
    else if l.tag ≠ .lock ∨ l.dead then (s, .fault (faultAt .type va l.tag.code))
    else made { owned with tag := .cond, b1 := arg }

/-! ### The operations on a live cell of their type -/

def cellEffect (s : State) (p : Part) (iss : Issuer) (va : Word64) (hnd : Word64) (g : Granule) : CellOp → State × CellResult
  | .init _ _ => (s, .done .ok 0 0)
  | .kill => (killCell s p g, .done .ok 0 0)
  | .qry => (s, .done .ok (queryWord s p g) 0)
  | .ctrAdd a => (counterAdd s g a, .done .ok g.b1 0)
  | .ctrRd => (s, .done .ok g.b1 0)
  | .ctrWge t =>
    if g.psn then (s, .fault { code := .jobFault, addr := va, info := hnd })
    else if t.toNat ≤ g.b1.toNat then (s, .done .ok 0 0) else s.park p iss va g.pa 1 (.counterGe t) 0
  | .poison =>
    if g.psn then (s, .done .ok 0 0)
    else ((s.waitsAt g.pa).foldl (fun s w => s.wakeWait w .poisoned) (s.setGranule { g with psn := true }), .done .ok 0 0)
  | .barArr =>
    if barBroken g then (s, .done .broken 0 0) else if barExp g = 0 then (s, .done .empty 0 0)
    else ((phaseCheck s (setBar g (barArrived g + 1) (barExp g))).1, .done .ok ((barPhase g).setWidth 64) 0)
  | .barWt t =>
    if barBroken g then (s, .done .broken 0 0) else if barPhase g ≠ t then (s, .done .ok 0 0)
    else s.park p iss va g.pa 1 (.barrierPhase t) 0
  | .barArw =>
    let t := barPhase g
    if barBroken g then (s, .done .broken 0 0) else if barExp g = 0 then (s, .done .empty 0 0)
    else
      let r := phaseCheck s (setBar g (barArrived g + 1) (barExp g))
      if r.2 then (r.1, .done .ok (t.setWidth 64) 0)
      else if s.waitRoom p g.pa 1 then (r.1.addWait p iss g.pa 1 (.barrierPhase t), .parked (t.setWidth 64))
      else (s, .fault (faultAt .waitfull va 0))
  | .barDrop =>
    if barBroken g then (s, .done .broken 0 0) else if barExp g = 0 then (s, .done .empty 0 0)
    else ((phaseCheck s (setBar g (barArrived g) (barExp g - 1))).1, .done .ok ((barPhase g).setWidth 64) 0)
  | .barAdj d =>
    let e : Int := barExp g + d.toInt
    if barBroken g then (s, .done .broken 0 0) else if e < 0 ∨ 2 ^ 32 ≤ e then (s, .done .full 0 0)
    else ((phaseCheck s (setBar g (barArrived g) e.toNat)).1, .done .ok 0 0)
  | .lckTake =>
    if lckHeld g then
      let r := s.park p iss va g.pa 1 (.lockTurn (lckNext g)) 0
      match r.2 with
      | .parked _ => (r.1.setGranule (setLock g (lckNext g + 1) (lckServe g)), r.2)
      | _ => r
    else
      let r := takeFree s g iss.mid iss.inc iss.loc iss.who
      (r.1, .done r.2 0 0)
  | .lckTry =>
    if lckHeld g then (s, .done .full 0 0)
    else
      let r := takeFree s g iss.mid iss.inc iss.loc iss.who
      (r.1, .done r.2 0 0)
  | .lckGive => if lckHeld g then (passLock s g .ok, .done .ok 0 0) else (s, .done .empty 0 0)
  | .cndWait =>
    let r := s.park p iss va g.pa 1 .condTurn 0
    match r.2 with
    | .parked _ =>
      let s := r.1.setGranule { g with b2 := g.b2 + 1 }
      let l := lockOfCond s g
      (if lckHeld l then passLock s { l with rels := g.rels.foldl noteRel l.rels } .ok else s, r.2)
    | _ => r
  | .cndSig =>
    let r := signalOne s g.pa
    (r.1, .done .ok (BitVec.ofNat 64 r.2) 0)
  | .cndAll =>
    let r := signalMany s g.pa (s.waitsAt g.pa).length
    (r.1, .done .ok (BitVec.ofNat 64 r.2) 0)
  | .qPut item len tries =>
    if qSlotBytes g < len then (s, .fault (faultAt .type va g.tag.code)) else
    match putDecided s p.cix g item (if iss.dynamic then some 0 else if iss.strand ∧ iss.mid = s.mid then s.familyOf iss.who else none, none, 0) with
    | some (s, st) => (s, .done st 0 0)
    | none => if tries then (s, .done .full 0 0) else s.park p iss va g.pa (putEntries len) (.queuePut item) 0
  | .qTake tries =>
    if qLaunch g then (s, .fault (faultAt .type va g.tag.code))
    else if qCount g ≠ 0 then
      let r := takeHead s p.cix g
      (r.1, .done .ok 0 r.2)
    else if qClosed g then (s, .done .ended 0 0)
    else if tries then (s, .done .empty 0 0) else s.park p iss va g.pa 1 .queueTake 0
  | .launchTake =>
    if qCount g ≠ 0 then
      let r := takeHead s p.cix g
      (r.1, .done .ok 0 r.2)
    else (s, .done .empty 0 0)
  | .qJoin =>
    if qClosed g then (s, .done .ended 0 0) else if qProducers g = 65535 then (s, .done .full 0 0)
    else (s.setGranule { g with b2 := setField g.b2 48 16 (qProducers g + 1) }, .done .ok 0 0)
  | .qClose =>
    if qProducers g = 0 then (s, .done .empty 0 0)
    else if qProducers g = 1 then
      let g := { g with b2 := setField (setField g.b2 48 16 0) 32 1 1 }
      let s := s.setGranule g
      (if qCount g = 0 then s.wakeAll ((s.waitsAt g.pa).filter isTake) .ended else s, .done .ok 0 0)
    else (s.setGranule { g with b2 := setField g.b2 48 16 (qProducers g - 1) }, .done .ok 0 0)
  | .qGovern glq limits template =>
    if qLaunch g then (s, .fault (faultAt .type va g.tag.code))
    else if limits = 0 then
      ((s.updPart p.cix fun p => { p with governors := p.governors.filter (fun t => t.granule != g.pa) }).setGranule
        { g with b3 := setField g.b3 8 1 0 }, .done .ok 0 0)
    else match p.queues.find? fun q => q.handle == glq with
      | none => (s, .fault (faultAt .type va 0))
      | some q =>
        if (s.granule q.pa).tag ≠ .queue ∨ (s.granule q.pa).dead then (s, .fault (faultAt .type va 0))
        else if p.governors.length ≥ 64 ∧ p.governors.any (fun t => t.granule == g.pa) = false then (s, .done .full 0 0)
        else
          ((s.updPart p.cix fun p =>
              { p with governors := { granule := g.pa, template := template } :: p.governors.filter (fun t => t.granule != g.pa) }).setGranule
            { g with b3 := BitVec.ofNat 64 (fieldNat limits 0 16 * 2 ^ 48 + fieldNat limits 16 16 * 2 ^ 32 + fieldNat limits 32 8 * 2 ^ 24
                              + q.lqi * 2 ^ 10 + 2 ^ 9 + 2 ^ 8) }, .done .ok 0 0)

/-- A cell in the hot-line array of 2,048 cells, the most recently used first; the one that leaves takes a write-back entry, and waits for one. -/
def Slice.heat (x : Slice) (now pa : Nat) : Option Slice :=
  let hot := pa :: x.hot.filter fun y => y != pa
  let x := { x with hot := hot.take 2048, asleep := false, lastUse := now }
  match hot.drop 2048 with
  | [] => some x
  | out :: _ => x.writePast (lineOf out)
/-- The cell of an operation is brought into the array (R278): one that is not there waits for its line. While the part is not current, the operation
is performed against HBM (R252). -/
def State.heat (s : State) (p : Part) (t : Target) : Option State :=
  let home := p.home t.pa
  if p.current = false then some s
  else if (s.slice home).hot.contains t.pa then ((s.slice home).heat s.clk.toNat t.pa).map s.setSlice
  else (s.sliceVisit home t false).bind fun s => ((s.slice home).heat s.clk.toNat t.pa).map s.setSlice

/-- Does an operation that ended so release (R211)? A try that fails, a stale handle and a fault do not. -/
def releasesCell (op : CellOp) (r : CellResult) : Bool :=
  mutating op && match op, r with
    | _, .fault _ => false
    | _, .done .stale _ _ => false
    | .lckTry, .done st _ _ => st == .ok || st == .abandoned
    | .qTake true, .done st _ _ => st == .ok || st == .ended
    | .qPut _ _ true, .done st _ _ => st == .ok
    | _, _ => true
/-- The release that an operation makes. -/
def Issuer.rel (iss : Issuer) (s : State) : Rel :=
  { party := iss.party, spot := iss.spot, scp := .pod, view := View.raise iss.view iss.party s.fresh }
/-- Its party as a writer, for watchpoints (R197). -/
def Issuer.writer (iss : Issuer) (s : State) : Writer :=
  { party := iss.party, kind := if iss.mid = s.mid then (if iss.party.isJob then 1 else if iss.party = .host then 3 else 0) else 2, loc := iss.loc
    sig := iss.sig, strand := if iss.strand ∧ iss.mid = s.mid then some iss.who else none, hyp := iss.hyp, number := s.fresh, view := iss.view
    rels := [], atomic := false }

/-- The steps of R284 at the home: the first that applies ends the operation. None while its line is not at hand (R278); a line in error faults
(R188). -/
def cellOperation (s : State) (p : Part) (iss : Issuer) (hnd : Word64) (fbit : Bool) (t : Target) (op : CellOp) : Option (State × CellResult) :=
  let pa := t.pa
  let cold := !(p.current && (s.slice (p.home pa)).hot.contains pa) && s.isBad pa
  (s.heat p t).map fun s =>
  if cold then (s.meetErrorOf p iss.loc t, .fault (faultAt .pagePerm t.va (Kind.cell.code + 256))) else
  let g0 := s.granule pa
  let w := iss.writer s
  match op with
  | .init imm arg =>
    let r := initCell s p iss t.va t.leaf.bits pa imm arg
    match r.2 with
    | .done .ok _ _ =>
      let s := r.1.setGranule { r.1.granule pa with rels := [iss.rel s] }
      (s.watch p pa 32 true w, r.2)
    | _ => r
  | op =>
    let typeFault : State × CellResult := (s, .fault (faultAt .type t.va g0.tag.code))
    if g0.tag = .free then typeFault
    else if hnd.toNat / 2 ^ 56 ≠ g0.gen.toNat % 256 then
      if fbit then (s, .fault { code := .staleHandle, addr := t.va, info := hnd })
      else (s, .done .stale (if op = .qry then queryWord s p g0 else 0) 0)
    else if g0.tag = .qslot ∨ ((CellTag.ofOp op).getD g0.tag) ≠ g0.tag then typeFault
    else
      let g := settleOwner p g0
      let s := s.setGranule g
      if g.dead ∧ op ≠ .kill ∧ op ≠ .qry then
        (if releasesCell op (.done .dead 0 0) then s.setGranule { g with rels := noteRel g.rels (iss.rel s) } else s, .done .dead 0 0)
      else if ownerBound op ∧ g.dead = false ∧ (p.chain (hypId iss.hyp)).contains g.own.toNat = false then
        if iss.strand then (s, .fault { code := .hypSync, addr := t.va, info := (mkTag g.ogen g.own.toNat).setWidth 64 })
        else (s, .done .owner 0 0)
      else
        let g := if mutating op then { g with rels := noteRel g.rels (iss.rel s) } else g
        let r := cellEffect (s.setGranule g) p iss t.va hnd g op
        let s' := if g.tag = .queue ∧ op ≠ .kill then governorActs r.1 p.cix pa else r.1
        match r.2 with
        | .fault f => (s, .fault f)
        | a =>
          let s' := if releasesCell op a ∨ mutating op = false then s' else s'.setGranule { s'.granule pa with rels := g0.rels }
          (if mutating op then s'.watch p pa 32 true w else s', a)

/-! ### Withdrawals (R282, R295, R302, R313) -/

/-- A wait withdrawn: its entry goes; a barrier breaks; a lock ticket becomes void; a put is discarded with its item. -/
def withdrawWait (s : State) (w : Wait) : State := withdrawnWait (s.dropWait w) w
where
  /-- What becomes of the cell once the entry is gone. -/
  withdrawnWait (s : State) (w : Wait) : State := match w.kind with
  | .barrierPhase _ => breakBarrier s (s.granule w.pa)
  | .condTurn =>
    let g := s.granule w.pa
    s.setGranule { g with b2 := g.b2 - 1 }
  | _ => s
/-- Every lock held by a party at a location is abandoned (R295). -/
def abandonLocks (s : State) (holder : Granule → Bool) : State :=
  (s.cells.filter fun g => g.tag == .lock && !g.dead && lckHeld g && holder g).foldl (fun s g => passLock s (s.granule g.pa) .abandoned) s
/-- A lock held by a strand that stood on a module. -/
def Granule.heldBy (g : Granule) (mid : Nat) (who : StrandId) : Bool := decide (g.held = some who) && fieldNat g.b2 56 8 == mid % 256
/-- A wait discarded by the stop of its strand's part: its entry goes, and the cell stays as it is (R287). -/
def discardAt (s : State) (mid : Nat) (who : StrandId) (pa : Nat) : State :=
  ((s.waits.filter fun w => w.mid == mid && decide (w.who = who) && lineOf w.pa == lineOf pa).foldl State.dropWait s)
/-- A strand of another module gives up what it has at a cell: its park in the cell's line, or else the lock that it was granted there (R282,
R295). -/
def withdrawAt (s : State) (mid : Nat) (who : StrandId) (pa : Nat) : State :=
  match s.waits.find? fun w => w.mid == mid && decide (w.who = who) && lineOf w.pa == lineOf pa with
  | some w => withdrawWait s w
  | none =>
    let g := s.granule pa
    let lock := if g.tag = .cond then (lockOfCond s g).pa else g.pa
    abandonLocks s fun g => g.pa == lock && g.heldBy mid who

end Sys2Proof.Machine
end

