-- ==== Sys2Proof/Machine/Order.lean ====
section
/-! DEFINITION. Releases, acquires and the ordering instructions (spec/10_consistency.md R211-R214, R222-R226), sequence tags
(spec/09_line.md R190), and accesses that wait for another module (R189, R423, R424). -/

namespace Sys2Proof.Machine

/-! ### The issuing strand's accesses in flight -/

def Request.of (r : Request) (i : StrandId) : Bool := decide (r.party = .strand i)
def VecCommand.isGather (c : VecCommand) : Bool := match c.action with
  | .gather _ _ => true
  | _ => false
/-- Does a request bring what an instruction uses as it issues: a chunk of a replay, or a home's word on a frame? -/
def Request.forReader (r : Request) : Bool := r.reply == .replay || r.reply == .frame
/-- Does it hold nothing up: nobody waits for what it brings? -/
def Request.idle (r : Request) : Bool := r.reply == .unused || (r.forReader && r.done)
/-- An earlier load has not returned, queued VLDG commands included (R212). -/
def State.loadsOut (s : State) : Bool :=
  s.net.any (fun r => r.of s.cur.id && r.reply != .none && r.reply != .unused && !r.forReader) || s.cur.vq.any VecCommand.isGather
/-- Steps back from one tag to another in the cycle 1 to 65,535 (R225). -/
def tagsBack (latest t : BitVec 16) : Nat := (latest.toNat + 65535 - t.toNat) % 65535
/-- The successor of a tag (R190). -/
def nextTag (t : BitVec 16) : BitVec 16 := if t = 65535 then 1 else t + 1
/-- Does WACK with tag t wait for a tag u, which lies as far back as t or further, up to 255 steps (R225)? -/
def wackCovers (latest t u : BitVec 16) : Bool :=
  t != 0 && latest != 0 && decide (tagsBack latest t ≤ tagsBack latest u) && decide (tagsBack latest u < 256)

/-- PAGE_PERM for a discarded posted store (R189, R352). -/
def lostFault (e : BitVec 16 × Word64 × Bool) : FaultInfo :=
  { code := .pagePerm, addr := e.2.1, info := BitVec.ofNat 64 (1 + (if e.2.2 then 256 else 0) + e.1.toNat * 65536) }
/-- Wait until the tags covered are acknowledged; a discarded one surfaces here. -/
def State.waitAcks (s : State) (covers : BitVec 16 → Bool) (k : State → State) : State :=
  if s.cur.unacked.any covers then s.stall
  else match s.cur.lost.find? fun e => covers e.1 with
    | some e => s.raise (lostFault e)
    | none => k s
/-- The conditions of a release (R212). -/
def State.waitRelease (s : State) (k : State → State) : State :=
  if s.loadsOut then s.stall else s.waitAcks (fun _ => true) k

/-! ### The L1 (R186, R212) -/

/-- Lines that a test keeps in a core's L1; loads in flight of that core fill no line any more. -/
def State.keepL1 (s : State) (loc : CoreLoc) (keep : L1Line → Bool) : State :=
  let c := s.core loc
  let s := s.setCore { c with l1 := c.l1.filter keep }
  { s with net := s.net.map fun r => match r.party with
             | .strand i => if (s.strand? i).map Strand.place = some loc then { r with fill := false } else r
             | _ => r }
/-- What an acquire does to the L1: every line goes but those of SEALED pages. -/
def State.acquire (s : State) : State := s.keepL1 s.cur.place L1Line.isSealed

/-- Is a scope wide enough to act (R212)? -/
def wide (c : Scp) : Bool := c != .core

/-! ### FENCE, FENCE.XP, WACK, SEQ (R222-R226) -/

/-- The stores after a release fence act as releases at its scope (R213). -/
def State.fenceRelease (s : State) (c : Scp) : State :=
  { s with cur := { s.cur with fences := c :: s.cur.fences.filter fun x => x != c } }
/-- The loads and cell reads before an acquire fence act as acquires at its scope (R213). -/
def State.fenceAcquire (s : State) (c : Scp) : State := (s.acquireHeard c).acquire
def execFence (f : FormM) (s : State) : Host.Outcome State Fault Refusal := issue f.grd s fun s =>
  if !wide f.scp then s.done
  else match f.ord with
    | .rel => s.waitRelease fun s => (s.fenceRelease f.scp).done
    | .ar => s.waitRelease fun s => ((s.fenceRelease f.scp).fenceAcquire f.scp).done
    | _ => if s.loadsOut then s.stall else (s.fenceAcquire f.scp).done
/-- FENCE.XP: what happens before it also happens before the copy jobs enqueued later (R215). -/
def execFenceXp (f : FormM) (s : State) : Host.Outcome State Fault Refusal := issue f.grd s fun s =>
  s.waitRelease fun s =>
    let s := (s.fenceRelease .pod).fenceAcquire .pod
    { s with cur := { s.cur with jobView := View.join s.cur.jobView s.soFar } }.done
def execWack (f : FormM) (s : State) : Host.Outcome State Fault Refusal := issue f.grd s fun s =>
  s.waitAcks (wackCovers s.cur.seqTag ((s.rdG f.gt).setWidth 16)) State.done
/-- The word of SEQ (R226). -/
def seqWord (t : Strand) : Word64 :=
  BitVec.ofNat 64 (t.unacked.length * 2 ^ 32 + ((t.unacked.head?).getD (nextTag t.seqTag)).toNat * 65536 + t.seqTag.toNat)
def execSeq (f : FormM) (s : State) : Host.Outcome State Fault Refusal := issue f.grd s fun s => s.putG f.gt (seqWord s.cur)

/-! ### Accesses to another module (R189, R423, R424) -/

/-- The packet that carries an access of the issuing strand; ls is the live-set index of a wait. -/
def State.packet (s : State) (mid : Nat) (ls : BitVec 8) (pa : Nat) (hyp : BitVec 20) (page : Option Leaf) (a : RemoteAccess) : Packet :=
  { s.packetOf mid s.cix (.strand s.cur.id ls) (locWord s.mid s.cur.place) pa hyp page a with dynamic := (s.familyOf s.cur.id).isSome }
/-- The releases that go to another module with the packet sent now (R213). -/
def State.noteSent (s : State) (mid : Nat) (rels : List Rel) : State :=
  if rels = [] then s
  else { s with sentRels := (mid, BitVec.ofNat 16 s.fresh, rels) :: s.sentRels.filter fun e => e.1 != mid || e.2.1 != BitVec.ofNat 16 s.fresh }
/-- The answer to a packet leaves the module (R424). -/
def State.respond (s : State) (k : Packet) (a : Answer) : State := { s with out := s.out ++ [.response k.mid k.seqNo a] }
/-- What the issuing strand asks another module, sent once; then the strand waits for the answer. -/
def State.askModule (s : State) (mid pa : Nat) (t : Option Target) (writes : Bool) (ls : BitVec 8) (rels : List Rel) (a : RemoteAccess)
    (k : Answer → State) : State :=
  match s.cur.blocked with
  | some b => (match b.answer with
    | some x => k x
    | none => s.stall)
  | none =>
    let b : Blocked :=
      { pc := s.cur.pc, asked := some mid, answer := none, target := t, writes := writes, sgen := none, number := s.fresh }
    let p := s.packet mid ls pa s.cur.hcur (t.map Target.leaf) a
    let s := s.noteSent mid rels
    { s with cur := { s.cur with blocked := some b }, out := s.out ++ [.request mid (.strand s.cur.id) p], last := .stall, fresh := s.fresh + 1 }
/-- A blocking access to a home on another module. -/
def State.askPeer (s : State) (t : Target) (writes : Bool) (ls : BitVec 8) (rels : List Rel) (a : RemoteAccess) (k : Answer → State) : State :=
  s.askModule t.mid t.pa (some t) writes ls rels a k
/-- The releases that came with the answer the issuing strand has waited for. -/
def State.answerRels (s : State) : List Rel := (s.cur.blocked.map Blocked.rels).getD []
/-- An access that another module refuses, or that its loss ends: PAGE_PERM. -/
def State.refusePerm (s : State) (va : Word64) (kind : Kind) : State := s.raise (faultAt .pagePerm va kind.code)

/-! ### Withdrawals of a strand's own (R282, R295, R304) -/

/-- What a strand gives up at a home on another module, which acknowledges it; a lost peer does not hear of it. -/
def State.giveUp (s : State) (who : StrandId) (x : Nat × Nat × Word64) : State :=
  if s.peerLost x.1 then s
  else ({ s with givenUp := s.givenUp ++ [(who, x.1, BitVec.ofNat 16 s.fresh)] } : State).tellPeer who.grp.cix (.strand who 0) x.1 x.2.1 (.withdraw x.2.2)
/-- What a strand has asked a cell of another module for, and has not taken in the answer of: it may have parked there, or have been granted a
lock. -/
def Strand.askedAfar (t : Strand) : List (Nat × Nat × Word64) :=
  (t.blocked.bind fun b => if b.asked.isSome then b.target.filter fun u => u.leaf.sync else none).toList.map fun u => (u.mid, u.pa, u.va)
/-- The park of a strand withdrawn, or the lock that a wake on its way has granted abandoned. -/
def withdrawPark (s : State) (t : Strand) : State :=
  match t.park with
  | none => s
  | some k =>
    if k.mid = s.mid then { withdrawAt s s.mid t.id k.pa with wakes := s.wakes.filter fun w => decide (w.who ≠ t.id) }
    else s.giveUp t.id (k.mid, k.pa, k.handle)
/-- The parks and wakes of a stopped strand are withdrawn, and its locks abandoned, here and on other modules; an operation that is still out is
given up behind it, and so is what an answer it has not taken in has brought. -/
def withdrawStrand (s : State) (t : Strand) : State :=
  let s := (s.waits.filter fun w => w.mid == s.mid && decide (w.who = t.id)).foldl withdrawWait s
  let s := { s with wakes := s.wakes.filter fun w => decide (w.who ≠ t.id) }
  let s := abandonLocks s fun g => g.heldBy s.mid t.id
  let parked := (t.park.toList.filter fun k => k.mid != s.mid).map fun k => (k.mid, k.pa, k.handle)
  (parked ++ t.askedAfar ++ t.afar).foldl (fun s x => s.giveUp t.id x) s

end Sys2Proof.Machine
end

