-- ==== Sys2Proof/Machine/Mem.lean ====
section
/-! DEFINITION. Scalar accesses to global memory and the page and L1 instructions (spec/09_line.md R179, R186, R189-R191, R198-R201,
R206-R208; spec/13_page.md R270). -/

namespace Sys2Proof.Machine

/-! ### Checks and order -/

/-- The checks of R198 that follow the address's own: where the access goes, the fault that ends it, or neither, when it waits for a page that is
UNSEALING (R266). An access that waits for its answer has its translation already (R269). -/
def State.pageChecks (s : State) (va : Word64) (kind : Kind) : Except (Option FaultInfo) Target :=
  match s.cur.blocked.bind fun b => b.target.filter fun t => decide (t.va = va) with
  | some t => .ok t
  | none => match s.translate s.cix (coreCluster s.cur.place) va kind with
  | .error f => .error (some f)
  | .ok t =>
    if kind = .write ∧ t.leaf.st = .unsealing then .error none
    else if kind = .write ∧ t.leaf.st = .sealed then .error (some (faultAt .sealed va 0))
    else if kind = .write ∧ hypId s.cur.hcur ≠ 0 ∧ t.leaf.hyp = false then .error (some (faultAt .hypPage va 0))
    else if t.leaf.sync ∧ t.mid = s.mid ∧ (s.granule t.pa).tag ≠ .free then .error (some (faultAt .type va (s.granule t.pa).tag.code))
    else .ok t
/-- All the checks of R198 on one access of the issuing strand. -/
def State.accessChecks (s : State) (va : Word64) (size : Nat) (kind : Kind) : Except (Option FaultInfo) Target :=
  if va.extractLsb' 56 8 ≠ 0 then .error (some (faultAt .pageNotMapped va kind.code))
  else if va.toNat % size ≠ 0 then .error (some (faultAt .align va 0))
  else s.pageChecks va kind
/-- An access goes on with its target, waits, or faults. -/
def State.accessWith (s : State) (r : Except (Option FaultInfo) Target) (k : Target → State) : State :=
  match r with
  | .ok t => k t
  | .error none => s.stall
  | .error (some f) => s.raise f
def State.mapped (s : State) (va : Word64) (kind : Kind) (k : Target → State) : State := s.accessWith (s.pageChecks va kind) k
def State.access (s : State) (va : Word64) (size : Nat) (kind : Kind) (k : Target → State) : State := s.accessWith (s.accessChecks va size kind) k

/-- Lines that an earlier queued VLDG or VSTG touches (R191, R37). -/
def VecCommand.chunks (c : VecCommand) : List (Nat × Target) := match c.action with
  | .gather _ ts => ts
  | .scatter _ ts _ => ts
  | _ => []
def State.lineQueued (s : State) (t : Target) : Bool :=
  s.cur.vq.any fun c => s.isEarlier c.stamp && c.chunks.any fun u => u.2.mid == t.mid && lineOf u.2.pa == lineOf t.pa
def kindBytes : RequestKind → Nat
  | .read n => n
  | .write n _ => n
  | .atom _ n _ => n
  | .cas n _ _ => n
  | .reduce _ _ _ => 4
/-- Earlier requests of a party, of numbers that a test accepts, that touch the line of an access and have not been performed: they reach its home
first (R185, R191, R417). -/
def pendingBefore (net : List Request) (of : Nat → Bool) (party : Party) (mid pa : Nat) : Bool :=
  net.any fun r => decide (r.party = party) && of r.id && !r.done && r.target.mid == mid && lineOf r.target.pa == lineOf pa
/-- May the issuing strand's blocking access be performed now, in program order? -/
def State.inOrder (s : State) (t : Target) : Bool := !s.lineQueued t && !pendingBefore s.net s.isEarlier (.strand s.cur.id) t.mid t.pa

/-- The issuing strand as the writer of an access, which carries releases. -/
def State.self (s : State) (sig : BitVec 16) (rels : List Rel) (atomic : Bool) : Writer :=
  { party := .strand s.cur.id, kind := 0, loc := locWord s.mid s.cur.place, sig := sig, strand := some s.cur.id, hyp := s.cur.hcur
    number := s.fresh, view := s.cur.view, rels := rels, atomic := atomic }
/-- The same through a page. -/
def State.selfAt (s : State) (t : Target) (rels : List Rel) (atomic : Bool) : Writer := { s.self 0 rels atomic with entry := some t.leaf.entry }
def State.spot (s : State) : Option Spot := some (strandSpot s.mid s.cur)
/-- An access of the issuing strand meets an uncorrectable error; at a home on another module, that one's scrivener notes it. -/
def State.meetError (s : State) (t : Target) : State :=
  match if t.mid = s.mid then s.part? s.cix else none with
  | some p => s.meetErrorOf p (locWord s.mid s.cur.place) t
  | none => s.poisonPage t.leaf.entry
/-- A blocking access that meets one faults. -/
def State.badAccess (s : State) (t : Target) (kind : Kind) : State :=
  (s.meetError t).raise (faultAt .pagePerm t.va (kind.code + 256))

/-- A blocking access at a home of this module, performed as it issues: in program order, with its line at hand, and not while the line is in
error. -/
def State.atHome (s : State) (t : Target) (kind : Kind) (k : State → Part → State) : State :=
  if s.inOrder t = false then s.stall
  else match s.part? s.cix with
    | none => s.stall
    | some p => match s.sliceVisit (p.home t.pa) t (kind == .write) with
      | none => s.stall
      | some s => if s.isBad t.pa then s.badAccess t kind else k s p

/-! ### Registers of an access (R199) -/

/-- The value of a load written to its register, or to its pair for 16 bytes. -/
def State.putLoad (s : State) (gt : BitVec 6) (size : Nat) (signed : Bool) (v : Nat) : State :=
  if size = 16 then (s.wrG gt (BitVec.ofNat 64 v)).wrG (nextReg gt) (BitVec.ofNat 64 (v / 2 ^ 64))
  else s.wrG gt (if signed then (BitVec.ofNat 64 (ofSigned 64 (toSigned (8 * size) (v % 2 ^ (8 * size))))) else BitVec.ofNat 64 (v % 2 ^ (8 * size)))
/-- The low bytes of a register, or of a pair for 16 bytes. -/
def State.regBytes (s : State) (g : BitVec 6) (size : Nat) : Nat :=
  if size = 16 then (s.rdG g).toNat + (s.rdG (nextReg g)).toNat * 2 ^ 64 else (s.rdG g).toNat % 2 ^ (8 * size)

/-! ### The L1 (R186, R385) -/

def Leaf.inL1 (l : Leaf) : Bool := l.plc == .hbmCached && !l.sync
/-- The core's L1 line that serves a load. -/
def State.l1FindAs (s : State) (hyp : BitVec 20) (t : Target) : Option L1Line :=
  if t.leaf.inL1 then s.curCore.l1.find? (fun l => l.mid == t.mid && l.line == lineOf t.pa && (!t.leaf.hyp || l.hyp == hyp)) else none
def State.l1Find (s : State) (t : Target) : Option L1Line := s.l1FindAs s.cur.hcur t
/-- The replica in the slice of the core's own cluster that serves a load (R187). -/
def State.replicaFind (s : State) (t : Target) : Option L1Line :=
  if t.leaf.repl ∧ t.leaf.hyp = false ∧ t.mid = s.mid then
    (s.slice (coreCluster s.cur.place)).replicas.find? fun l => l.line == lineOf t.pa && l.entry == t.leaf.entry && l.sgen == t.leaf.sgen
  else none
/-- A line put into the L1 of a core: 256 lines of 128 bytes (R186). -/
def State.l1Put (s : State) (loc : CoreLoc) (l : L1Line) : State :=
  let c := s.core loc
  s.setCore { c with l1 := (l :: c.l1.filter fun x => x.mid != l.mid || x.line != l.line || x.hyp != l.hyp).take 256 }
/-- A line as a copy of it, read under a hypothesis by the access of a number. -/
def copyLine (t : Target) (hyp : BitVec 20) (seen : Nat) (data : BitVec 1024) : L1Line :=
  { mid := t.mid, line := lineOf t.pa, hyp := if t.leaf.hyp then hyp else 0, isSealed := decide (t.leaf.st = .sealed), ofHyp := t.leaf.hyp
    entry := t.leaf.entry, vbase := t.leaf.vbase, bits := t.leaf.bits, sgen := t.leaf.sgen, seen := seen, data := data }
/-- Bytes of a copy from an address on. -/
def L1Line.bytesAt (l : L1Line) (pa n : Nat) : Nat := l.data.toNat / 2 ^ (8 * (pa % 128)) % 2 ^ (8 * n)
/-- Loads of the issuing strand in flight fill a line no more. -/
def State.stopFills (s : State) (t : Target) : State :=
  { s with net := s.net.map fun r => if r.of s.cur.id && r.target.mid == t.mid && lineOf r.target.pa == lineOf t.pa then { r with fill := false } else r }
/-- A store of the core's own strand updates its copy (R186); a load of the line in flight fills nothing. -/
def State.l1Store (s : State) (t : Target) (hyp : BitVec 20) (n data : Nat) : State :=
  let c := s.curCore
  (s.setCore { c with l1 := c.l1.map fun (l : L1Line) =>
    if l.mid == t.mid && l.line == lineOf t.pa && (!l.ofHyp || l.hyp == hyp) then { l with data := setLineBytes l.data (t.pa % 128) data n }
    else l }).stopFills t
/-- A load that a copy serves, of a line as it was when the copy was read: a read of those bytes, which the home does not see (R186, R187). Bytes that
race a write of another size are undefined (R195); the releases it reads from are kept for a later fence (R213). -/
def State.serveCopy (s : State) (l : L1Line) (t : Target) (n : Nat) (hyp : BitVec 20) (view : View) : State × Nat :=
  match if l.mid = s.mid then s.part? s.cix else none with
  | none => (s, l.bytesAt t.pa n)
  | some p =>
    let tag := if t.leaf.hyp then hyp else 0
    let w := { s.self 0 [] false with view := view }
    let v := freeRaced (s.mixedWith p t.pa n false tag w) s.fresh t.pa n (l.bytesAt t.pa n)
    let rels := s.readRelsAt p tag l.seen t.pa n
    (({ s with cur := s.cur.hear rels } : State).noteRecent p t.pa n false tag w |>.bump, v)
/-- A copy that an atomic makes old is dropped. -/
def State.l1Drop (s : State) (t : Target) : State :=
  let c := s.curCore
  (s.setCore { c with l1 := c.l1.filter fun l => l.mid != t.mid || l.line != lineOf t.pa }).stopFills t

/-! ### Requests -/

def kindWrites : RequestKind → Bool
  | .read _ => false
  | _ => true
/-- A request of the issuing strand sent toward its home, under a hypothesis and with what happens before it. A load that an unperformed store of the
strand to its line precedes fills no copy: what it reads is older than the store (R186, R191). -/
def State.sendAs (s : State) (hyp : BitVec 20) (view : View) (rels : List Rel) (t : Target) (kind : RequestKind) (reply : Reply)
    (tag : Option (BitVec 16)) (a : RemoteAccess) : State :=
  let stores := s.net.any fun r => r.of s.cur.id && !r.done && kindWrites r.kind && r.target.mid == t.mid && lineOf r.target.pa == lineOf t.pa
  let r : Request :=
    { id := s.fresh, party := .strand s.cur.id, loc := locWord s.mid s.cur.place, sig := tag.getD 0, cix := s.cix, target := t, kind := kind, reply := reply, hyp := hyp, tag := tag
      pc := s.cur.pc, number := s.fresh, view := view, rels := rels, fill := t.leaf.inL1 && !stores, skip := [], done := false, seen := 0
      bad := none, value := 0, line := 0 }
  let s1 := { s with net := s.net ++ [r], fresh := s.fresh + 1 }
  if t.mid = s.mid then s1
  else
    let p : Packet := { s.packet t.mid 0 t.pa hyp (some t.leaf) a with tag := tag.getD 0 }
    { s1 with out := s1.out ++ [.request t.mid (.strand s.cur.id) p], sentRels := (s.noteSent t.mid rels).sentRels }
def State.send (s : State) (t : Target) (rels : List Rel) (kind : RequestKind) (reply : Reply) (tag : Option (BitVec 16)) (a : RemoteAccess) : State :=
  s.sendAs s.cur.hcur s.cur.view rels t kind reply tag a
/-- What a load of n bytes asks its home for: with the line when an L1 may hold it (R186). -/
def loadAccess (t : Target) (n : Nat) : RemoteAccess := if t.leaf.inL1 then .readLine n else .read n
/-- An access that does not wait for its answer, to a frame of another module: whether the part may use the frame is for that one to say (R266), and
so the first such access to it waits in translation for its word; a refusal is a fault at the access (assumption 62). -/
def State.withFrame (s : State) (t : Target) (kind : Kind) (k : State → State) : State :=
  let key := (s.cix, t.mid, t.leaf.frame, t.leaf.bits)
  if t.mid = s.mid ∨ s.frames.contains key then k s
  else if s.peerLost t.mid then (if kind = .write then k s else s.raise (faultAt .pagePerm t.va kind.code))
  else match s.net.find? fun r => r.of s.cur.id && r.reply == .frame && r.target.mid == t.mid && r.target.pa == t.leaf.frame with
    | some r =>
      let gone := { s with net := s.net.filter fun q => q.id != r.id }
      if r.done = false then s.stall
      else if r.bad.isSome then gone.raise (faultAt .pagePerm t.va kind.code)
      else k { gone with frames := key :: gone.frames }
    | none => (s.send { t with pa := t.leaf.frame } [] (.read 0) .frame none (.frame t.leaf.bits)).stall
/-- At most 256 tags are unacknowledged, the oldest at most 255 steps back: a further tagged operation stalls (R190, R225). -/
def State.takeTag (s : State) (k : BitVec 16 → State → State) : State :=
  let t := nextTag s.cur.seqTag
  if 256 ≤ s.cur.unacked.length ∨ s.cur.unacked.any (fun u => decide (256 ≤ tagsBack t u)) then s.stall
  else k t { s with cur := { s.cur with seqTag := t, unacked := s.cur.unacked ++ [t] } }

/-- A blocking access to another module's home (R189): the answer's bytes, or its refusal. -/
def State.askData (s : State) (t : Target) (kind : Kind) (rels : List Rel) (a : RemoteAccess) (k : Nat → State) : State :=
  if s.peerLost t.mid then s.refusePerm t.va kind
  else s.askPeer t (kind == .write) 0 rels a fun
    | .data b => k b.toNat
    | .line b => k b.toNat
    | .fault c info => (if info.getLsbD 8 then s.meetError t else s).raise { code := c, addr := t.va, info := info }
    | _ => s.refusePerm t.va kind

/-! ### Loads -/

/-- A blocking read: SYNC pages and wide acquires (R189, R212): the value, and the releases it reads from, which one that acquires comes after. -/
def State.blockingRead (s : State) (t : Target) (n : Nat) (acquire : Option Scp) (k : State → Nat → List Rel → State) : State :=
  if t.mid ≠ s.mid then
    if s.inOrder t then s.askData t .read [] (.read n) (fun v => k s v s.answerRels) else s.stall
  else s.atHome t .read fun s p =>
    let rels := s.readRels p (if t.leaf.hyp then s.cur.hcur else 0) t.pa n
    let r := s.homeRead p t n s.cur.hcur ((s.self 0 [] false).acquiring acquire s.spot rels)
    k r.1 r.2 rels

/-- LD and LDS (R199). -/
def loadGlobal (f : FormM) (signed : Bool) (s : State) : State :=
  let n := szBytes f.sz
  s.access (s.globalVa f) n .read fun t =>
    let acquires := f.ord = .acq ∧ wide f.scp
    if t.leaf.sync ∨ acquires then
      s.blockingRead t n (if acquires then some f.scp else none) fun s v rels =>
        let s := s.putLoad f.gt n signed v
        if acquires then ((s.acquireRels f.scp rels).acquire).done else { s with cur := s.cur.hear rels }.done
    else if s.lineQueued t then s.stall
    else match s.l1Find t with
      | some l =>
        let r := s.serveCopy l t n s.cur.hcur s.cur.view
        (r.1.putLoad f.gt n signed r.2).done
      | none => match s.replicaFind t with
        | some l =>
          let r := s.serveCopy l t n s.cur.hcur s.cur.view
          ((r.1.putLoad f.gt n signed r.2).l1Put s.cur.place l).done
        | none => s.withFrame t .read fun s => (s.send t [] (.read n) (.regs f.gt n signed) none (loadAccess t n)).done

def execLd (f : FormM) (s : State) : Host.Outcome State Fault Refusal := issue f.grd s (loadGlobal f false)
def execLds (f : FormM) (s : State) : Host.Outcome State Fault Refusal := issue f.grd s (loadGlobal f true)

/-! ### Stores -/

/-- ST (R199): posted and tagged, but on a SYNC page blocking and without a tag (R189, R190). -/
def storeGlobal (f : FormM) (s : State) : State :=
  let n := szBytes f.sz
  s.access (s.globalVa f) n .write fun t =>
    let v := s.regBytes f.gt n
    let go (s : State) : State :=
      let rels := s.storeRels (if f.ord = .rel ∧ wide f.scp then some f.scp else none)
      if t.leaf.sync then
        if t.mid ≠ s.mid then
          if s.inOrder t then s.askData t .write rels (.write n (BitVec.ofNat 128 v)) (fun _ => (s.l1Store t s.cur.hcur n v).done) else s.stall
        else s.atHome t .write fun s p => ((s.l1Store t s.cur.hcur n v).homeWrite p t n s.cur.hcur v (s.selfAt t rels false)).done
      else if s.lineQueued t then s.stall
      else s.withFrame t .write fun s => s.takeTag fun tag s =>
        ((s.l1Store t s.cur.hcur n v).send t rels (.write n (BitVec.ofNat 128 v)) .none (some tag) (.write n (BitVec.ofNat 128 v))).done
    if f.ord = .rel ∧ wide f.scp then s.waitRelease go else go s
def execSt (f : FormM) (s : State) : Host.Outcome State Fault Refusal := issue f.grd s (storeGlobal f)

/-! ### Atomics (R200, R201) -/

def ordReleases (o : Ord) : Bool := o == .rel || o == .ar
def ordAcquires (o : Ord) : Bool := o == .acq || o == .ar

/-- A blocking atomic: at the home of this module as it issues, at the atomic proxy for host memory (R430), else at the peer. It carries releases
when it writes, and tells what it reads from. -/
def State.blockingAtomic (s : State) (t : Target) (n : Nat) (acquire : Option Scp) (rels : List Rel) (kind : RequestKind) (a : RemoteAccess)
    (next : Nat → Option Nat) (k : State → Nat → List Rel → State) : State :=
  if s.inOrder t = false ∧ s.cur.blocked = none then s.stall
  else if t.mid ≠ s.mid then s.askData t .write rels a (fun v => k (s.l1Drop t) v s.answerRels)
  else if t.leaf.plc.isHostly then
    match s.cur.blocked with
    | some b => (match b.answer with
      | some (.data v) => k s v.toNat b.rels
      | some _ => s.refusePerm t.va .write
      | none => s.stall)
    | none => { s.send t rels kind .none none a with
                  cur := { s.cur with blocked := some { pc := s.cur.pc, asked := none, answer := none, target := some t, writes := true, sgen := none } }
                  last := .stall }
  else s.atHome t .write fun s p =>
    let from_ := s.readRels p (if t.leaf.hyp then s.cur.hcur else 0) t.pa n
    let w := (s.selfAt t rels true).acquiring acquire s.spot from_
    let old := s.oldValue p t n s.cur.hcur w
    let s := s.l1Drop t
    match next old with
    | some v => k (s.homeWrite p t n s.cur.hcur v w) old from_
    | none => k (s.homeRead p t n s.cur.hcur w).1 old from_
/-- What an atomic that acquires does once it has its value. -/
def State.acquireAfter (s : State) (acq : Bool) (scp : Scp) (rels : List Rel) : State :=
  (if acq then (s.acquireRels scp rels).acquire else s).done

def atomic (f : FormM) (s : State) : State :=
  let n := szBytes f.sz
  s.access (s.globalVa f) n .write fun t =>
    let x := s.regBytes f.gx n
    let acq := ordAcquires f.ord && wide f.scp
    let rel := ordReleases f.ord && wide f.scp
    let a : RemoteAccess := .atom f.aop n (BitVec.ofNat 128 x)
    let go (s : State) : State :=
      let rels := s.storeRels (if rel then some f.scp else none)
      if f.gt ≠ 0 ∨ acq ∨ t.leaf.sync then
        s.blockingAtomic t n (if acq then some f.scp else none) rels (.atom f.aop n (BitVec.ofNat 128 x)) a (fun old => some (atomNew f.aop (8 * n) old x)) fun s old from_ =>
          (s.wrG f.gt (BitVec.ofNat 64 old)).acquireAfter acq f.scp from_
      else if s.lineQueued t then s.stall
      else s.withFrame t .write fun s => s.takeTag fun tag s => ((s.l1Drop t).send t rels (.atom f.aop n (BitVec.ofNat 128 x)) .none (some tag) a).done
    if rel ∧ s.cur.blocked = none then s.waitRelease go else go s
def execAtom (f : FormM) (s : State) : Host.Outcome State Fault Refusal := issue f.grd s (atomic f)

def compareSwap (f : FormM) (s : State) : State :=
  let n := szBytes f.sz
  s.access (s.globalVa f) n .write fun t =>
    let old0 := s.regBytes f.gt n
    let new0 := s.regBytes f.gx n
    let acq := ordAcquires f.ord && wide f.scp
    let rel := ordReleases f.ord && wide f.scp
    let kind : RequestKind := .cas n (BitVec.ofNat 128 old0) (BitVec.ofNat 128 new0)
    let a : RemoteAccess := .cas n (BitVec.ofNat 128 old0) (BitVec.ofNat 128 new0)
    let go (s : State) : State :=
      let rels := s.storeRels (if rel then some f.scp else none)
      s.blockingAtomic t n (if acq then some f.scp else none) rels kind a (fun old => if old = old0 then some new0 else none) fun s old from_ =>
        (s.putLoad f.gt n false old).acquireAfter acq f.scp from_
    if rel ∧ s.cur.blocked = none then s.waitRelease go else go s
def execCas (f : FormM) (s : State) : Host.Outcome State Fault Refusal := issue f.grd s (compareSwap f)

/-- PREF never faults, and may be dropped (R206): this model drops it. -/
def execPref (f : FormM) (s : State) : Host.Outcome State Fault Refusal := issue f.grd s fun s => s.done

/-! ### SEAL, UNSEAL (R207, R270) -/

/-- Stores translated earlier to a page that have not been performed: requests, queued VSTG and MOVCV, blocking accesses to other modules, and those
of running copy jobs that have touched it. -/
def Request.writes (r : Request) : Bool := kindWrites r.kind
def State.pageStores (s : State) (entry : Nat) : Bool :=
  s.net.any (fun r => r.writes && !r.done && r.target.leaf.entry == entry)
    || s.jobs.any (fun j => j.st == .running && j.pending != [] && j.pages.any fun x => x.1 && x.2.entry == entry)
    || s.strands.any fun t =>
      (t.vq.any fun c => match c.action with
        | .scatter _ ts _ => ts.any fun u => u.2.leaf.entry == entry
        | _ => false)
      || (t.tq.any fun c => c.op == .movcv && c.vault.any fun u => u.2.entry == entry)
      || (t.blocked.map fun b => b.writes && b.answer.isNone && (b.target.map fun u => u.leaf.entry == entry).getD false).getD false

/-- A strand that waits for a page: it issued the instruction, and no message is out for it; sgen is the generation the instruction found when it had its
effect. -/
def State.waitPage (s : State) (t : Target) (sgen : Option (BitVec 32)) : State :=
  let number := (s.cur.blocked.map Blocked.number).getD s.fresh
  { s with cur := { s.cur with blocked := some { pc := s.cur.pc, asked := none, answer := none, target := some t, writes := false, sgen := sgen, number := number } }
           last := .stall, fresh := s.fresh + 1 }
/-- The page of a SEAL or UNSEAL, which must have SEALABLE. One that waits goes on with the page it found, whatever became of it. -/
def State.sealPage (s : State) (f : FormM) (k : Target → Option (BitVec 32) → State) : State :=
  let va := s.globalVa f
  match s.cur.blocked.bind fun b => b.target.map fun t => (t, b.sgen) with
  | some (t, g) => k t g
  | none => match s.translate s.cix (coreCluster s.cur.place) va .read with
    | .error e => s.raise e
    | .ok t => if t.leaf.sealable then k t none else s.raise (faultAt .pagePerm va 0)
/-- Strands in RUN that wait for a page with a SEAL or UNSEAL, as a test on what they have found selects them. -/
def State.pageWaiters (s : State) (entry : Nat) (found : Blocked → Bool) : Bool :=
  s.strands.any fun t => decide (t.id ≠ s.cur.id) && t.status == .run
    && (t.blocked.map fun b => b.asked.isNone && !b.writes && found b && (b.target.map fun u => u.leaf.entry == entry).getD false).getD false
/-- SEALs of a page that have had their effect and wait for its earlier stores: an UNSEAL that arrives later waits for them (R270). -/
def State.sealsPending (s : State) (entry : Nat) : Bool :=
  (s.pageNow entry).1 == .sealed && s.pageStores entry && s.pageWaiters entry fun b => b.sgen.isSome
/-- Operations that arrived earlier and have not had their effect: a page's are performed in arrival order. -/
def State.pageTurn (s : State) (entry : Nat) : Bool :=
  let mine := (s.cur.blocked.map Blocked.number).getD s.fresh
  !s.pageWaiters entry fun b => b.sgen.isNone && decide (b.number < mine)
/-- The generation returned. -/
def State.giveGen (s : State) (f : FormM) (g : BitVec 32) : State := (s.wrG f.gt (g.setWidth 64)).done
/-- SEAL: once it has had its effect it returns the generation it found, which it leaves as it was; a page that has stopped being SEALED waits for no
store. -/
def execSeal (f : FormM) (s : State) : Host.Outcome State Fault Refusal := issue f.grd s fun s => s.sealPage f fun t began =>
  let entry := t.leaf.entry
  let now := s.pageNow entry
  match began with
  | some g => if s.pageStores entry ∧ now = (.sealed, g) then s.stall else s.giveGen f g
  | none =>
    if s.pageTurn entry = false then s.waitPage t none
    else match now.1 with
      | .mapped => ((s.writeWord1 entry .sealed now.2).withdrawPage entry).bump.waitPage t (some now.2)
      | .sealed => if s.pageStores entry then s.waitPage t (some now.2) else s.giveGen f now.2
      | .unsealing => s.waitPage t none
      | .poisoned => s.giveGen f now.2
/-- UNSEAL: once it has had its effect it waits for the page to leave UNSEALING and returns the generation that gives; a page that is POISONED, or whose
leaf software takes away meanwhile (assumption 77), keeps its generation. -/
def execUnseal (f : FormM) (s : State) : Host.Outcome State Fault Refusal := issue f.grd s fun s => s.sealPage f fun t began =>
  let entry := t.leaf.entry
  let now := s.pageNow entry
  match began with
  | some g =>
    if now.2 ≠ g then s.giveGen f (g + 1)
    else if now.1 = .unsealing ∧ s.isLeafEntry entry then s.stall else s.giveGen f g
  | none =>
    if s.pageTurn entry = false then s.waitPage t none
    else match now.1 with
      | .sealed =>
        if s.sealsPending entry then s.waitPage t none
        else ((s.writeWord1 entry .unsealing now.2).withdrawPage entry).waitPage t (some now.2)
      | .unsealing => s.waitPage t (some now.2)
      | .mapped => s.giveGen f now.2
      | .poisoned => s.giveGen f now.2

/-! ### L1INV (R208) -/

def execL1inv (f : FormM) (s : State) : Host.Outcome State Fault Refusal := issue f.grd s fun s =>
  match s.translate s.cix (coreCluster s.cur.place) (s.globalVa f) .read with
  | .error e => s.raise e
  | .ok t => (s.keepL1 s.cur.place fun l => l.mid != t.mid || l.line != lineOf t.pa).done
def execL1invAll (f : FormM) (s : State) : Host.Outcome State Fault Refusal := issue f.grd s fun s =>
  (s.keepL1 s.cur.place fun _ => false).done

end Sys2Proof.Machine
end

