-- ==== Sys2Proof/Machine/LocalStore.lean ====
section
/-! DEFINITION. Local stores (spec/09_line.md R180, R181, R202, R203) and the footprint scoreboard of a core (spec/11_copy.md R230). -/

namespace Sys2Proof.Machine

/-! ### Footprints in granules of 64 bytes (R230) -/

def granulesMeet (a n b m : Nat) : Bool := decide (0 < n) && decide (0 < m) && decide (a / 64 ≤ (b + m - 1) / 64) && decide (b / 64 ≤ (a + n - 1) / 64)
/-- Read after write, write after read, write after write. -/
def rangeConflict (r : Range) (lo n : Nat) (write : Bool) : Bool := (r.write || write) && granulesMeet r.base r.len lo n
def rangesConflict (a b : List Range) : Bool := a.any fun r => b.any fun q => rangeConflict r q.base q.len q.write
def Job.live (j : Job) : Bool := j.st == .queued || j.st == .running
/-- The ranges of the commands a strand has queued, jobs included, of stamps that a test accepts. -/
def State.footprints (s : State) (t : Strand) (of : Nat → Bool) : List Range :=
  ((t.vq.filter fun c => of c.stamp).map VecCommand.ranges ++ (t.tq.filter fun c => of c.stamp).map TileCommand.ranges
    ++ (s.jobs.filter fun j => j.live && of j.n && decide (j.who = t.id)).map Job.ranges).flatten
/-- A granule declared before the issue group stalls an access of the strand itself (R202, R37). -/
def State.storeBusy (s : State) (lo n : Nat) (write : Bool) : Bool := (s.footprints s.cur s.isEarlier).any fun r => rangeConflict r lo n write

/-! ### Bytes of a core's local store -/

def State.readStore (s : State) (loc : CoreLoc) (a n : Nat) : Nat := readNat (s.core loc).store a n
def State.writeStore (s : State) (loc : CoreLoc) (a n v : Nat) : State :=
  let c := s.core loc
  s.setCore { c with store := writeNat c.store a v n }

/-- The address of a local-store access, aligned and below the entry's local store (R180, R202). -/
def State.localAccess (s : State) (f : FormM) (n : Nat) (kind : Kind) (k : Nat → State) : State :=
  let a := s.globalVa f
  if a.toNat % n ≠ 0 then s.raise (faultAt .align a 0)
  else if s.storeLimit s.cur < a.toNat + n then s.raise (faultAt .pagePerm a kind.code)
  else k a.toNat

/-! ### LDL, STL (R202) -/

def execLdl (f : FormM) (s : State) : Host.Outcome State Fault Refusal := issue f.grd s fun s =>
  let n := szBytes f.sz
  s.localAccess f n .read fun a =>
    if s.storeBusy a n false then s.stall else (s.putLoad f.gt n false (s.readStore s.cur.place a n)).done
def execStl (f : FormM) (s : State) : Host.Outcome State Fault Refusal := issue f.grd s fun s =>
  let n := szBytes f.sz
  s.localAccess f n .write fun a =>
    if s.storeBusy a n true then s.stall else (s.writeStore s.cur.place a n (s.regBytes f.gt n)).done

/-! ### LDN, STN (R181, R203) -/

/-- The core a peer selector names: a defined one, not fused, holding a strand of the issuer's launch. -/
def State.peerCore (s : State) (x : Word64) : Option CoreLoc :=
  let die := x.getLsbD 16
  let clu := fieldNat x 8 5
  let loc : CoreLoc := { site := s.cur.place.site, cluster := if die then clu else s.cur.place.cluster, core := fieldNat x 0 3 }
  if fieldNat x 17 47 = 0 ∧ fieldNat x 13 3 = 0 ∧ fieldNat x 3 5 = 0 ∧ (die ∨ clu = 0) ∧ clu < 20 ∧ s.coreEnabled loc
      ∧ s.strands.any (fun t => t.onCore && decide (t.place = loc) && decide (t.id.grp.cix = s.cix) && decide (t.id.grp.lid = s.cur.id.grp.lid)) then
    some loc
  else none

def execLdn (f : FormM) (s : State) : Host.Outcome State Fault Refusal := issue f.grd s fun s =>
  let n := szBytes f.sz
  s.localAccess f n .read fun a =>
    match s.peerCore (s.rdG f.gx) with
    | none => s.raise { code := .peerGone, addr := BitVec.ofNat 64 a, info := s.rdG f.gx }
    | some loc =>
      if loc = s.cur.place ∧ s.storeBusy a n false then s.stall else (s.putLoad f.gt n false (s.readStore loc a n)).done
def execStn (f : FormM) (s : State) : Host.Outcome State Fault Refusal := issue f.grd s fun s =>
  let n := szBytes f.sz
  s.localAccess f n .write fun a =>
    match s.peerCore (s.rdG f.gx) with
    | none => s.raise { code := .peerGone, addr := BitVec.ofNat 64 a, info := s.rdG f.gx }
    | some loc =>
      if loc = s.cur.place ∧ s.storeBusy a n true then s.stall else (s.writeStore loc a n (s.regBytes f.gt n)).done

end Sys2Proof.Machine
end

