-- ==== Sys2Proof/Machine/Replay.lean ====
section
/-! DEFINITION. The vector pool and recipes: entries (spec/05_strand.md R98-R101), bodies (spec/23_recipe.md R401, R402), and replay
(R408, R409). -/

namespace Sys2Proof.Machine

/-! ### Pool entries (R98, R101) -/

/-- The bindings of a strand, those that a command still to run replaces included, each with its register. -/
def Strand.bindings (t : Strand) : List (Nat × Binding) :=
  ((List.range 48).filterMap fun v => (t.vr v).binding.map fun b => (v, b)) ++ t.past.map fun p => (p.1, p.2.2)
/-- The resident binding of a half that was read least recently: its strand and register. Stamps of reads differ, so no tie is left to break. -/
def oldestBinding (ts : List Strand) : Option (StrandId × Nat × Binding) :=
  let all := (ts.map fun t => (t.bindings.filter fun x => x.2.st == .resident).map fun x => (t.id, x)).flatten
  all.foldl (fun best x => match best with
    | none => some x
    | some y => if x.2.2.readAt < y.2.2.readAt then some x else some y) none
def Strand.setBinding (t : Strand) (v : Nat) (b : Option Binding) : Strand := t.setVr v { t.vr v with binding := b }
def Strand.setEntry (t : Strand) (v : Nat) (b : Bool) : Strand := t.setVr v { t.vr v with entry := b }
/-- A register loses its binding to the command with a stamp. -/
def Strand.unbind (t : Strand) (v stamp : Nat) : Strand := match (t.vr v).binding with
  | none => t
  | some b => { t.setBinding v none with past := (v, stamp, b) :: t.past }
/-- A binding changed, where its register still has it, or while the command that replaces it has not run. -/
def Strand.updBinding (t : Strand) (v bid : Nat) (f : Binding → Binding) : Strand :=
  let later : Strand := { t with past := t.past.map fun p => if p.2.2.bid = bid then (p.1, p.2.1, f p.2.2) else p }
  match (t.vr v).binding with
  | some b => if b.bid = bid then t.setBinding v (some (f b)) else later
  | none => later
/-- Does a strand still have the binding of a name? -/
def Strand.hasBinding (t : Strand) (bid : Nat) : Bool := t.bindings.any fun x => x.2.bid == bid
/-- A resident binding's entry is freed. -/
def Strand.dropEntry (t : Strand) (v : Nat) (b : Binding) : Strand := (t.updBinding v b.bid fun b => { b with st := .dropped }).setEntry v false
/-- Entries of a half go until at most some are in use, the binding read least recently first (R101). -/
def State.trimPool (s : State) (h : HalfLoc) (room : Nat) : Nat → State
  | 0 => s
  | n + 1 =>
    if s.poolUsed h ≤ room then s
    else match oldestBinding (s.inHalf h) with
      | none => s
      | some (id, v, b) => match s.strand? id with
        | none => s
        | some t => (s.setStrand (t.dropEntry v b)).trimPool h room n
/-- The bindings that the command of a stamp has replaced in a register are gone. -/
def Strand.replaced (t : Strand) (v stamp : Nat) : Strand := { t with past := t.past.filter fun p => !(p.1 == v && decide (p.2.1 ≤ stamp)) }
/-- The unit runs a command that writes a register: the register takes an entry of the pool, unless it has one (R98, R403). -/
def State.claim (s : State) (stamp v : Nat) : State :=
  let s : State := { s with cur := s.cur.replaced v stamp }
  if (s.cur.vr v).entry then s
  else
    let s := s.trimPool (coreHalf s.cur.place) 143 1
    { s with cur := s.cur.setEntry v true }

/-! ### Bodies (R401, R402) -/

/-- The target of a body: VD of its slots, GT of VLDG. -/
def slotTarget : Instr → Nat
  | .vldg f => f.gt.toNat
  | i => match recipeForm i with
    | some f => f.2.vd.toNat
    | none => 48
where
  /-- The vector command of a slot of the pure subset. -/
  recipeForm : Instr → Option (VecOp × FormV)
  | .vadd f => some (.vadd, f) | .vsub f => some (.vsub, f) | .vmul f => some (.vmul, f) | .vfma f => some (.vfma, f)
  | .vfms f => some (.vfms, f) | .vmin f => some (.vmin, f) | .vmax f => some (.vmax, f) | .vabs f => some (.vabs, f)
  | .vneg f => some (.vneg, f) | .vrcp f => some (.vrcp, f) | .vrsq f => some (.vrsq, f) | .vsqrt f => some (.vsqrt, f)
  | .vexp2 f => some (.vexp2, f) | .vlog2 f => some (.vlog2, f) | .vtanh f => some (.vtanh, f) | .viadd f => some (.viadd, f)
  | .visub f => some (.visub, f) | .vimul f => some (.vimul, f) | .vand f => some (.vand, f) | .vor f => some (.vor, f)
  | .vxor f => some (.vxor, f) | .vshl f => some (.vshl, f) | .vshr f => some (.vshr, f) | .vshra f => some (.vshra, f)
  | .vcmp f => some (.vcmp, f) | .vsel f => some (.vsel, f) | .mop f => some (.mop, f) | .mpop f => some (.mpop, f)
  | .vmov f => some (.vmov, f) | .vbcast f => some (.vbcast, f) | .vext f => some (.vext, f) | .vperm f => some (.vperm, f)
  | .vshuf f => some (.vshuf, f) | .vslide f => some (.vslide, f) | .vzip f => some (.vzip, f) | .vred f => some (.vred, f)
  | .vscan f => some (.vscan, f) | .vdot f => some (.vdot, f) | .vcvt f => some (.vcvt, f) | .vqnt f => some (.vqnt, f)
  | .vdq f => some (.vdq, f) | .vlut f => some (.vlut, f) | .vmac f => some (.vmac, f) | .vclamp f => some (.vclamp, f)
  | _ => none

/-- Registers that a vector command writes. -/
def vecDests (op : VecOp) (f : FormV) : List Nat :=
  match op with
  | .vcmp | .mop | .mpop | .vext | .vred | .vdot => []
  | .vqnt => [f.vd.toNat, f.vb.toNat]
  | _ => [f.vd.toNat]
/-- The m register that a vector command writes. -/
def vecMaskDest (op : VecOp) (f : FormV) : Option Nat :=
  match op with
  | .vcmp | .mop => some f.vd.toNat
  | _ => none
def vecReadsA (op : VecOp) (f : FormV) : Bool :=
  match op with
  | .mop | .mpop => false
  | .vbcast => f.imm != 0
  | _ => true
def vecReadsB (op : VecOp) (f : FormV) : Bool :=
  match op with
  | .vadd | .vsub | .vmul | .vfma | .vfms | .vmin | .vmax | .viadd | .visub | .vimul | .vand | .vor | .vxor | .vcmp | .vsel | .vperm | .vslide
  | .vzip | .vdot | .vdq | .vmac => true
  | .vshl | .vshr | .vshra => f.imm.getLsbD 5
  | _ => false
def vecReadsD (op : VecOp) : Bool := op == .vfma || op == .vfms || op == .vmac
/-- A write that keeps some elements of its destination (R141). -/
def vecPartial (op : VecOp) (f : FormV) : Bool :=
  op == .vqnt || (op == .vcvt && decide (etBytes f.et2 < etBytes f.et)) || (f.me && !f.mz && op != .vsel && (vecDests op f) != [])
/-- Registers that a vector command reads, in the order VA, VB, VD (R408), partly written destinations included. -/
def vecSources (op : VecOp) (f : FormV) : List Nat :=
  (if vecReadsA op f then [f.va.toNat] else [])
    ++ (if vecReadsB op f || op == .vqnt then [f.vb.toNat] else [])
    ++ (if vecReadsD op || vecPartial op f then [f.vd.toNat] else [])

/-- v sources of a slot of a body. -/
def slotSources (i : Instr) : List Nat :=
  match i with
  | .vldg f => f.gx.toNat :: (if f.me then [f.gt.toNat] else [])
  | i => match slotTarget.recipeForm i with
    | some (op, f) => (if vecReadsA op f then [f.va.toNat] else []) ++ (if vecReadsB op f then [f.vb.toNat] else [])
                        ++ (if vecReadsD op then [f.vd.toNat] else [])
    | none => []
/-- The instructions of a recipe of the strand's table. -/
def Strand.body (t : Strand) (n : Nat) : List Instr :=
  ((t.recipes[n]?).getD []).filterMap fun w => match decodeSlot w with
    | .ok i => some i
    | .error _ => none
def bodyTarget (body : List Instr) : Nat := ((body.head?).map slotTarget).getD 48
/-- Sources of a body other than its target. -/
def bodySources (body : List Instr) : List Nat := ((body.map slotSources).flatten).filter fun v => v != bodyTarget body
/-- Pinned: a source of a live binding (R403). -/
def Strand.pinned (t : Strand) (v : Nat) : Bool :=
  (List.range 48).any fun u => match (t.vr u).binding with
    | some b => (bodySources (t.body b.recipe)).contains v
    | none => false

/-! ### Replay (R408, R409) -/

/-- How a run of a body ends: a failure says whether it is that of a nested run, and a fault the page recorded before it. -/
inductive ReplayResult
  | ok (value : VecBits) (flags : FloatFlags) (page : Option (Word64 × BitVec 32))
  | stale (page : Word64) (nested : Bool)
  | fault (code : FaultCode) (addr : Word64) (page : Option (Word64 × BitVec 32)) (nested : Bool)
  /-- A chunk of another module has not come. -/
  | wait
  deriving DecidableEq, Repr

/-- A chunk of a body's VLDG: its address checked, its page the recorded one, SEALED at its generation. -/
def State.replayChunk (s : State) (page : Option (Word64 × BitVec 32)) (a : Word64) : State × Except ReplayResult (Nat × Option (Word64 × BitVec 32)) :=
  if a.toNat % 16 ≠ 0 ∧ a.extractLsb' 56 8 = 0 then (s, .error (.fault .align a page false)) else
  match s.translate s.cix (coreCluster s.cur.place) a .read with
  | .error f => (s, .error (.fault f.code a page false))
  | .ok t =>
    let here : Word64 := BitVec.ofNat 64 t.leaf.vbase
    let rec_ := page.getD (here, t.leaf.sgen)
    if t.leaf.sync then (s, .error (.fault .type a page false))
    else if rec_.1 ≠ here then (s, .error (.fault .pagePerm a page false))
    else if rec_.2 ≠ t.leaf.sgen then (s, .error (.stale rec_.1 false))
    else if t.leaf.st ≠ .sealed then (s, .error (.fault .pagePerm a page false))
    else if t.mid ≠ s.mid then
      match s.net.find? fun r => r.of s.cur.id && r.reply == .replay && r.target.pa == t.pa && r.target.mid == t.mid with
      | some r => if r.done = false then (s, .error .wait)
                  else match r.bad with
                    | some b => (if b.2 then s.meetError t else s, .error (.fault .pagePerm a page false))
                    | none => (s, .ok (r.value.toNat, some rec_))
      | none =>
        if s.peerLost t.mid then (s, .error (.fault .pagePerm a page false)) else (s.send t [] (.read 16) .replay none (.read 16), .error .wait)
    else if s.isBad t.pa then (s.meetError t, .error (.fault .pagePerm a page false))
    else match s.part? s.cix with
      | none => (s, .error .wait)
      | some p => (s, .ok (s.homeBytes p t.leaf.hsh t.pa 16 (if t.leaf.hyp then s.cur.hcur else 0), some rec_))

/-- The address of chunk j (R205). -/
def chunkAddr (base : Word64) (index : VecBits) (j : Nat) : Word64 := base + (index.extractLsb' (32 * j) 32).signExtend 64
def chunkActive (f : FormM) (m : LineBits) (j : Nat) : Bool := !f.me || m.getLsbD (16 * j)
/-- The active chunks of a body's VLDG, from chunk 32 - n on, into T. A chunk that has not come is waited for, and the rest asked meanwhile. Where a
restore has left the index undefined, so are the chunks, and none of them faults (R410). -/
def State.replayChunks (s : State) (f : FormM) (m : LineBits) (base : Word64) (index : VecBits) (undefined_ : Bool) (t : VecBits)
    (page : Option (Word64 × BitVec 32)) : Nat → State × Except ReplayResult (VecBits × Option (Word64 × BitVec 32))
  | 0 => (s, .ok (t, page))
  | n + 1 =>
    let j := 31 - n
    let put (v : Nat) : VecBits := spliceBytes t (16 * j) ((List.range 16).map fun i => v / 256 ^ i % 256)
    if chunkActive f m j = false then s.replayChunks f m base index undefined_ t page n
    else if undefined_ then s.replayChunks f m base index undefined_ (put (Config.freeBits 128 (s.fresh * 32 + j)).toNat) page n
    else match s.replayChunk page (chunkAddr base index j) with
    | (s, .error .wait) => ((s.replayChunks f m base index undefined_ t page n).1, .error .wait)
    | (s, .error e) => (s, .error e)
    | (s, .ok (v, page)) => s.replayChunks f m base index undefined_ (put v) page n

/-- G fields of a body name captures. -/
def captureOf (b : Binding) (n : Nat) : Word64 := if n = 0 then 0 else (b.caps[n - 1]?).getD 0
/-- The slots of a body run in order, T being the target's value so far. -/
def State.runSlots (s : State) (b : Binding) (target : Nat) (nested : Option VecBits) : List Instr → VecBits → FloatFlags →
    Option (Word64 × BitVec 32) → State × ReplayResult
  | [], t, fl, page => (s, .ok t fl page)
  | i :: rest, t, fl, page =>
    let src (v : Nat) : VecBits :=
      if v = target then t
      else match nested, b.nested with
        | some x, some u => if u = v then x else s.cur.v' v
        | _, _ => s.cur.v' v
    match i with
    | .vldg f =>
      (match s.replayChunks f (s.cur.m' f.msk.toNat) (captureOf b f.gb.toNat + f.off.signExtend 64) (src f.gx.toNat)
          (s.cur.hollow.contains f.gx.toNat) t page 32 with
      | (s, .error e) => (s, e)
      | (s, .ok (t, page)) => s.runSlots b target nested rest t fl page)
    | i => match slotTarget.recipeForm i with
      | some (op, f) =>
        let x : VecIn := { vd := t, va := src f.va.toNat, vb := src f.vb.toNat, msk := s.cur.m' f.msk.toNat, md := 0, ma := 0, mb := 0
                           scalar := captureOf b f.gs.toNat, luta := b.luta, lutb := b.lutb }
        let o := computeVector op f x
        s.runSlots b target nested rest (o.vd.getD t) (fl ||| o.flags) page
      | none => s.runSlots b target nested rest t fl page

/-- A replay completes: RESIDENT if a pool entry is free, else DROPPED (R403). -/
def State.keepReplayed (s : State) (v : Nat) (b : Binding) (x : VecBits) : State :=
  let b := { b with readAt := s.fresh }
  if s.cur.hasBinding b.bid ∧ s.poolUsed (coreHalf s.cur.place) < 144 then
    { s with cur := ((s.cur.setV v x).updBinding v b.bid fun _ => { b with st := .resident }).setEntry v true, fresh := s.fresh + 1 }
  else { s with cur := s.cur.updBinding v b.bid fun _ => b, fresh := s.fresh + 1 }
/-- A binding served from the pool is read now (R101). -/
def State.touchBinding (s : State) (v : Nat) (b : Binding) : State :=
  { s with cur := s.cur.updBinding v b.bid fun b => { b with readAt := s.fresh }, fresh := s.fresh + 1 }
/-- The page that a STALE binding is told by (R409). -/
def Binding.stalePage (b : Binding) : Word64 := b.failed.getD ((b.page.map Prod.fst).getD 0)
/-- Run(b): nested bound source first, when it is DROPPED. -/
def State.runBinding (s : State) : Nat → Binding → State × ReplayResult
  | 0, _ => (s, .wait)
  | n + 1, b =>
    let body := s.cur.body b.recipe
    let inner : State × Except ReplayResult (Option VecBits) :=
      match b.nested.bind fun u => (s.cur.vr u).binding.map fun c => (u, c) with
      | none => (s, .ok none)
      | some (u, c) => match c.st with
        | .resident => (s.touchBinding u c, .ok (some (s.cur.v' u)))
        | .stale => (s, .error (.stale c.stalePage true))
        | .dropped => match s.runBinding n c with
          | (s, .ok v _ page) => (s.keepReplayed u { c with page := page } v, .ok (some v))
          | (s, .wait) => (s, .error .wait)
          | (s, .stale a _) => (s, .error (.stale a true))
          | (s, .fault e a _ _) => (s, .error (.fault e a b.page true))
    match inner with
    | (s, .error e) => (s, e)
    | (s, .ok v) => s.runSlots b (bodyTarget body) v body 0 0 b.page

/-- Chunks of other modules that a reader has used or given up; those of a bind evaluation that runs stay. -/
def State.dropReplayChunks (s : State) : State :=
  { s with net := s.net.filterMap fun r =>
      if r.of s.cur.id ∧ r.reply = .replay then (if r.done then none else some { r with reply := .unused }) else some r }
def VecCommand.binds (c : VecCommand) : Bool := match c.action with
  | .bind _ _ => true
  | _ => false
/-- An instruction that the unit has let in to read its bound sources (R141). -/
def VecCommand.granted (c : VecCommand) : Bool := c.action == .held true
/-- What an instruction has asked for while it tried to issue goes when it has issued or ended; that of a bind evaluation under way stays. -/
def State.dropReaderChunks (s : State) : State :=
  if ((s.cur.vq.head?).map VecCommand.binds).getD false then s
  else
    { s with net := s.net.filterMap fun r =>
        if r.of s.cur.id ∧ r.forReader then (if r.done then none else some { r with reply := .unused }) else some r }

/-- A binding, and the nested one whose run failed, take the outcome of a read (R409): STALE, by a page, or UNBOUND. -/
def Strand.failBinding (t : Strand) (v : Nat) (b : Binding) (stale : Option Word64) (nested : Bool) : Strand :=
  let fail (t : Strand) (u : Nat) (c : Binding) : Strand := match stale with
    | some page => t.updBinding u c.bid fun c => { c with st := .stale, failed := some page }
    | none => if (t.vr u).binding.map Binding.bid = some c.bid then (t.setBinding u none).setV u 0 else t
  let t := fail t v b
  match b.nested with
  | some u => if nested then (match (t.vr u).binding with
    | some c => fail t u c
    | none => t) else t
  | none => t
/-- The binding that a source register had before the group, as the reads of this one have left it. -/
def State.sourceBinding (s : State) (v : Nat) : Option Binding :=
  (s.src.vr v).binding.bind fun b => (s.cur.bindings.find? fun x => x.2.bid == b.bid).map Prod.snd
/-- INFO of a recipe fault (R352). -/
def recipeInfo (b : Binding) (v code : Nat) : Word64 := BitVec.ofNat 64 (b.recipe + v * 256 + code * 65536)
/-- A bound register read by the issuing strand: its value, with its binding as the read leaves it, or the end of the instruction. -/
def State.readBound (s : State) (v : Nat) (b : Binding) (k : State → VecBits → State) : State :=
  match b.st with
  | .resident => k (s.touchBinding v b) (s.cur.v' v)
  | .stale => s.raise { code := .rcpStale, addr := b.stalePage, info := recipeInfo b v 0 }
  | .dropped => match s.runBinding 3 b with
    | (s, .wait) => s.stall
    | (s, .stale a nested) =>
      ({ s with cur := s.cur.failBinding v b (some a) nested } : State).raise
        { code := .rcpStale, addr := a, info := recipeInfo b v 0 }
    | (s, .fault c a _ nested) =>
      ({ s with cur := s.cur.failBinding v b none nested } : State).raise
        { code := .rcpFault, addr := a, info := recipeInfo b v (faultCodeNat c) }
    | (s, .ok x _ page) => k (s.keepReplayed v { b with page := page } x) x
/-- The bound registers among a list, as their bindings were before the group (R37), read one at a time; what they read is given to the rest. -/
def State.readSources (s : State) : List Nat → List (Nat × VecBits) → (State → List (Nat × VecBits) → State) → State
  | [], got, k => k s got
  | v :: rest, got, k => match (s.sourceBinding v) with
    | none => s.readSources rest got k
    | some b => if got.any fun g => g.1 == v then s.readSources rest got k
                else s.readBound v b fun s x => s.readSources rest ((v, x) :: got) k
/-- What stands in a v register that is bound: its value is the binding's. A source as a command reads it. -/
def sourceValue (t : Strand) (got : List (Nat × VecBits)) (v : Nat) : VecBits := ((got.find? fun g => g.1 == v).map Prod.snd).getD (t.v' v)

end Sys2Proof.Machine
end

