-- ==== Sys2Proof/Machine/Control.lean ====
section
/-! DEFINITION. Control instructions (spec/06_scalar.md R113-R118) and the loop stack (spec/05_strand.md R108-R110). EXIT, PRE.POINT
and YIELD stand with the group, in Preempt.lean. -/

namespace Sys2Proof.Machine

/-- The index of the instruction that issues. -/
def State.here (s : State) : Nat := pcIndex s.cur.pc
/-- The index an offset names, which may lie outside the 56-bit space (R114). -/
def State.offIndex (s : State) (off : BitVec 40) : Int := (s.here : Int) + off.toInt
/-- The target of an offset branch, when it lies in the 56-bit space (R114). -/
def State.offTarget (s : State) (off : BitVec 40) : Option Nat :=
  let t := s.offIndex off
  if t < 0 ∨ (pcCount : Int) ≤ t then none else some t.toNat
/-- CFI with the rejected target: PcOf of its index, or the register value (R352). -/
def State.rejectOff (s : State) (off : BitVec 40) : State :=
  let t := s.offIndex off
  s.raise { code := .cfi, addr := BitVec.ofInt 64 (t / 5 * 64 + t % 5), info := 0 }
def State.rejectReg (s : State) (n : BitVec 6) : State := s.raise { code := .cfi, addr := s.rdG n, info := 0 }
/-- The target a g register names (R38, R114). -/
def State.regTarget (s : State) (n : BitVec 6) : Option Nat := (pcOfReg (s.rdG n)).map pcIndex

/-- R110: entries whose body does not hold the target are popped. -/
def popOutside (t : Nat) : List LoopEntry → List LoopEntry
  | [] => []
  | e :: rest => if e.start ≤ t ∧ t ≤ e.final then e :: rest else popOutside t rest

/-- A transfer to an index. -/
def State.jump (s : State) (t : Nat) : State := { s with last := .transfer (pcOf t) }
def State.setLoops (s : State) (l : List LoopEntry) : State := { s with cur := { s.cur with loops := l } }
/-- The link register of a call (R114). -/
def State.link (s : State) (n : BitVec 6) : State := s.wrG n ((pcNext s.cur.pc).setWidth 64)

def execNop (f : FormN) (s : State) : Host.Outcome State Fault Refusal := issue f.grd s fun s => s.done

def execBr (f : FormB) (s : State) : Host.Outcome State Fault Refusal := issue f.grd s fun s =>
  match s.offTarget f.off with
  | none => s.rejectOff f.off
  | some t => (s.setLoops (popOutside t s.cur.loops)).jump t
def execBri (f : FormB) (s : State) : Host.Outcome State Fault Refusal := issue f.grd s fun s =>
  match s.regTarget f.ga with
  | none => s.rejectReg f.ga
  | some t => (s.setLoops (popOutside t s.cur.loops)).jump t
def execCall (f : FormB) (s : State) : Host.Outcome State Fault Refusal := issue f.grd s fun s =>
  match s.offTarget f.off with
  | none => s.rejectOff f.off
  | some t => (s.link f.glk).jump t
def execCalli (f : FormB) (s : State) : Host.Outcome State Fault Refusal := issue f.grd s fun s =>
  match s.regTarget f.ga with
  | none => s.rejectReg f.ga
  | some t => (s.link f.glk).jump t
def execRet (f : FormB) (s : State) : Host.Outcome State Fault Refusal := issue f.grd s fun s =>
  match s.regTarget f.ga with
  | none => s.rejectReg f.ga
  | some t => s.jump t

/-- LEXIT: the target is checked before the stack (R114). -/
def execLexit (f : FormB) (s : State) : Host.Outcome State Fault Refusal := issue f.grd s fun s =>
  match s.offTarget f.off, s.cur.loops with
  | none, _ => s.rejectOff f.off
  | some _, [] => s.raiseCode .loop
  | some t, _ :: rest => (s.setLoops (popOutside t rest)).jump t

/-- The count of a LOOP (R108). -/
def loopCount (f : FormB) (s : State) : Nat := if f.cs then f.cnt.toNat else (s.rdG f.ga).toNat

/-- LOOP (R108). -/
def execLoop (f : FormB) (s : State) : Host.Outcome State Fault Refusal := issue f.grd s fun s =>
  let n := loopCount f s
  if f.off.toInt < 1 then s.raiseCode .illegalOp
  else if 2 ^ 48 ≤ n then s.raiseCode .loop
  else if n = 0 then { s with last := .skip (s.here + f.off.toNat + 1) }
  else if s.cur.loops.length = 4 then s.raiseCode .loop
  else (s.setLoops ({ start := s.here + 1, final := s.here + f.off.toNat, count := n } :: s.cur.loops)).done

/-- What leaves a strand that ends (R117, R101): its loops, its k registers, its v registers and its budget. -/
def Strand.release (t : Strand) : Strand :=
  { t with loops := [], k := 1, bud := 0, byTransfer := false
           vres := Vector.replicate 48 { held := false, anchored := false, binding := none } }

/-- TRAP and BRK carry their code in INFO (R118, R352). -/
def execTrap (f : FormB) (s : State) : Host.Outcome State Fault Refusal := issue f.grd s fun s =>
  s.raiseAfter { code := .swTrap, addr := 0, info := f.cnt.setWidth 64 }
def execBrk (f : FormB) (s : State) : Host.Outcome State Fault Refusal := issue f.grd s fun s =>
  s.raiseAfter { code := .brk, addr := 0, info := f.cnt.setWidth 64 }

end Sys2Proof.Machine
end

