-- ==== Sys2Proof/Machine/Device.lean ====
section
/-! DEFINITION. Cell operations of parties that are no strands (spec/14_cell.md R277, R280), and the delivery of records to the foreman's
fault queue (spec/19_fault.md R353, R356-R358). -/

namespace Sys2Proof.Machine

/-! ### Operations of the device -/

/-- Where a post stands, as records tell it: its job's core, else the foreman's. -/
def Post.loc (x : Post) (s : State) (p : Part) : BitVec 32 := match x.source with
  | .job _ loc _ _ => loc
  | _ => locWord s.mid (s.foremanCore p)
/-- The job identifier of a post, as WATCH tells it (R197). -/
def Post.sig (x : Post) : BitVec 16 := match x.source with
  | .job jid _ _ _ => jid
  | _ => 0
/-- The strand name of a part's units. -/
def unitId (cix : Nat) : StrandId := { grp := { cix := cix, lid := 0, lgi := 0 }, sidx := 0 }
/-- The party of a post at its escapement. -/
def Post.issuer (x : Post) (s : State) (p : Part) : Issuer :=
  { cix := x.cix, mid := s.mid, inc := s.inc, who := unitId x.cix, loc := x.loc s p, hyp := x.hyp, ls := 0, strand := false
    sig := x.sig, party := x.party, spot := if x.party.isJob then some (locSpot (x.loc s p) true) else none, view := x.view }
/-- The checks of a post that would fault a strand before any cell is altered (R234), and the cell it goes to; a lost module gives DEAD (R423). -/
def State.postTarget (s : State) (x : Post) : Except CellResult (Part × Target) :=
  let va : Word64 := (x.handle.setWidth 56).setWidth 64
  match s.part? x.cix with
  | none => .error (.done .dead 0 0)
  | some p =>
    if va.toNat % 32 ≠ 0 then .error (.fault (faultAt .align va 0)) else
    match s.translate x.cix (coreCluster (s.foremanCore p)) va .cell with
    | .error e => .error (.fault e)
    | .ok t => if t.mid ≠ s.mid ∧ s.peerLost t.mid then .error (.done .dead 0 0) else .ok (p, t)
/-- A post performed at an escapement of this module. -/
def State.postHere (s : State) (x : Post) (p : Part) (t : Target) : Option (State × CellResult) :=
  cellOperation s p (x.issuer s p) x.handle false t x.op
def Party.unit : Party → RemoteParty
  | .strand i => .strand i 0
  | .job n => .job n
  | _ => .unit
/-- A post sent to the module of its cell; it waits for the answer. -/
def State.sendPost (s : State) (x : Post) (p : Part) (t : Target) : State :=
  let k := s.packetOf t.mid x.cix x.party.unit (x.loc s p) t.pa x.hyp (some t.leaf) (.cell x.handle false t.leaf.bits x.op)
  let s := s.noteSent t.mid [(x.issuer s p).rel s]
  { s with posts := s.posts.map fun y => if y.id = x.id then { y with sent := some (t.mid, k.seqNo) } else y
           out := s.out ++ [.request t.mid x.party k], fresh := s.fresh + 1 }

/-! ### Records (R353) -/

def flagByte (r : Record) : Nat := (if r.frz then 1 else 0) + (if r.pair then 2 else 0) + (if r.ext then 4 else 0) + (if r.held then 8 else 0)
/-- A record as 64 bytes. -/
def Record.bits (r : Record) : LineBits :=
  BitVec.ofNat 512 (faultCodeNat r.code + r.sub.toNat * 2 ^ 8 + flagByte r * 2 ^ 16 + r.sidx % 256 * 2 ^ 24 + r.lid.toNat * 2 ^ 32
    + r.pc.toNat * 2 ^ 64 + r.rpc.toNat * 2 ^ 128 + r.addr.toNat * 2 ^ 192 + r.info.toNat * 2 ^ 256 + r.ghnd.toNat * 2 ^ 320
    + r.loc.toNat * 2 ^ 384 + r.hyp.toNat * 2 ^ 416 + r.clk.toNat * 2 ^ 448)

/-- Q.TRYPUT of a record on the fault queue, as a release of what its strand has done (R354, R356): whether it was taken; none while the queue's
line is not at hand. With a DOUBLE not yet dealt with, records wait for the binding that follows it (R360). -/
def State.putRecord (s : State) (cix : Nat) (view : View) (r : Record) : Option (State × Bool) :=
  match s.part? cix with
  | none => some (s, false)
  | some p =>
    if p.fqh = 0 ∨ p.double.isSome then some (s, false) else
    let x : Post := { id := 0, cix := cix, source := .record, handle := p.fqh, hyp := 0, op := .qPut r.bits 64 true, party := .device, view := view
                      sent := none }
    match s.postTarget x with
    | .error _ => some (s, false)
    | .ok (p, t) =>
      if t.mid ≠ s.mid then some (s, false)
      else (s.postHere x p t).map fun a => match a with
        | (s, .done .ok _ _) => (s, true)
        | (s, _) => (s, false)
/-- What a record releases: all that its strand has done, which stays as it is while the strand is FROZEN (R354). -/
def State.recordView (s : State) (cix : Nat) (r : Record) : View :=
  match s.strands.find? fun t => t.id.grp.cix == cix && groupHandle t.id.grp == r.ghnd && t.id.sidx == r.sidx && t.status == .frozen with
  | some t => if r.ghnd = 0 then [] else View.raise t.view (.strand t.id) s.fresh
  | none => []
/-- The records held are put again, oldest first, until one is refused. -/
def State.reputHeld (s : State) (cix : Nat) : Nat → State
  | 0 => s
  | n + 1 => match (s.part? cix).map Part.buffer with
    | some (r :: _) => (match s.putRecord cix (s.recordView cix r) r with
      | some (s, true) => (s.updPart cix fun p => { p with buffer := p.buffer.drop 1 }).reputHeld cix n
      | some (s, false) => s
      | none => s)
    | _ => s
def State.reput (s : State) (cix : Nat) : State := s.reputHeld cix (((s.part? cix).map fun p => p.buffer.length).getD 0)
/-- A new record: after the held ones; one that is refused is held when it froze a strand, else dropped and counted (R357). None while the queue's
line is not at hand. -/
def State.deliverRecord (s : State) (cix : Nat) (r : Record) : Option State :=
  let s := s.reput cix
  let put := if ((s.part? cix).map fun p => p.buffer.isEmpty).getD true then s.putRecord cix (s.recordView cix r) r else some (s, false)
  put.map fun put =>
    if put.2 then put.1
    else put.1.updPart cix fun p =>
      if r.frz then { p with buffer := p.buffer ++ [{ r with held := true }] } else { p with lost := p.lost + 1 }

/-- After an operation on a cell of this module: when it took an item from the fault queue, the held records are put again (R357), whoever took and by
whatever handle. -/
def State.afterTakeAt (s : State) (cix : Nat) (op : CellOp) (r : CellResult) (pa : Nat) : State :=
  match op, r, s.part? cix with
  | .qTake _, .done .ok _ _, some p =>
    if p.fqh = 0 ∨ p.buffer.isEmpty then s
    else
      let va : Word64 := (p.fqh.setWidth 56).setWidth 64
      (match s.translate cix (coreCluster (s.foremanCore p)) va .cell with
      | .ok t => if t.mid = s.mid ∧ t.pa = pa then s.reput cix else s
      | .error _ => s)
  | _, _, _ => s
/-- The foreman has completed a Q.TAKE since its restart (R361). -/
def State.foremanTook (s : State) : State := if s.cur.fmn then s.updPart s.cix fun p => { p with taken := true } else s

end Sys2Proof.Machine
end

