-- ==== Sys2Proof/Machine/CellOps.lean ====
section
/-! DEFINITION. The cell, counter, lock, condition, barrier and queue instructions as a strand issues them (spec/14_cell.md R283-R298,
spec/15_barrier.md R302-R305, spec/16_queue.md R311-R317, R324), and the completion of a wait. -/

namespace Sys2Proof.Machine

def State.issuer (s : State) (ls : BitVec 8) : Issuer :=
  { cix := s.cix, mid := s.mid, inc := s.inc, who := s.cur.id, loc := locWord s.mid s.cur.place, hyp := s.cur.hcur, ls := ls, strand := true
    party := .strand s.cur.id, spot := some (strandSpot s.mid s.cur), view := s.cur.view }

/-- A put or a take that returned OK counts for the strand's dynamic family at its core (R336). -/
def bumpCount (c : CoreLoc) (put : Bool) : List (CoreLoc × Nat × Nat) → List (CoreLoc × Nat × Nat)
  | [] => [(c, if put then 1 else 0, if put then 0 else 1)]
  | (d, a, b) :: rest => if d = c then (d, if put then a + 1 else a, if put then b else b + 1) :: rest else (d, a, b) :: bumpCount c put rest
def State.countFamily (s : State) (who : StrandId) (place : CoreLoc) (put : Bool) : State :=
  match s.familyOf who with
  | none => s
  | some h => s.updPart who.grp.cix fun p =>
      { p with families := p.families.map fun x => if x.head = h then { x with counts := bumpCount place put x.counts } else x }

def CellOp.isPut : CellOp → Bool
  | .qPut _ _ _ => true
  | _ => false
/-- Statuses with which a wait or a try acquires (R211, R317). -/
def acquires (op : CellOp) (st : Status) : Bool :=
  match op with
  | .ctrWge _ => st == .ok
  | .barWt _ => st == .ok
  | .barArw => st == .ok
  | .lckTake => st == .ok || st == .abandoned
  | .lckTry => st == .ok || st == .abandoned
  | .cndWait => st == .ok || st == .abandoned
  | .qPut _ _ _ => st == .ok
  | .qTake _ => st == .ok || st == .ended
  | _ => false

/-- What an instruction does with the value and item its operation returns, before its status is written. -/
abbrev CellWrite := State → Status → Word64 → LineBits → State

/-- Operations that only read, which a later fence may turn into acquires (R213). -/
def CellOp.reads : CellOp → Bool
  | .qry => true
  | .ctrRd => true
  | _ => false
/-- The instruction completes: what it brings is written, then the status (R285); an acquire takes effect, from the releases on the cell (R212,
R213). -/
def State.endCell (s : State) (gst : BitVec 6) (op : CellOp) (w : CellWrite) (st : Status) (value : Word64) (item : LineBits) (rels : List Rel) : State :=
  let s := match op with
    | .qPut _ _ _ => if st = .ok then s.countFamily s.cur.id s.cur.place true else s
    | .qTake _ => if st = .ok then s.countFamily s.cur.id s.cur.place false else s
    | _ => s
  let s := (w s st value item).wrG gst (BitVec.ofNat 64 (statusCode st))
  let s := if op = .qTake false then s.foremanTook else s
  (if acquires op st then (s.acquireCell rels).acquire
    else if CellOp.reads op ∧ st = .ok then { s with cur := s.cur.hearCell rels } else s).done

/-- The strand parks: PLS names the live set, and the core waits (R96). -/
def State.parkStrand (s : State) (t : Target) (hnd : Word64) (f : FormY) (op : CellOp) (take : Option (Src × BitVec 6 × BitVec 6)) (la len : Nat) : State :=
  { s with cur := { s.cur with status := .parked, pls := f.ls, byTransfer := false, blocked := none
                               park := some { mid := t.mid, pa := t.pa, handle := hnd, gst := f.gst, puts := CellOp.isPut op, take := take, la := la, len := len, ls := f.ls
                                              since := s.clk.toNat, result := none, rels := [] } }
           last := .stopped }

/-- The locks of other modules that the issuing strand may hold (R295): a lock or condition there whose operation granted it one, until it is
given. -/
def State.noteAfar (s : State) (mid pa : Nat) (hnd : Word64) (granted : Bool) : State :=
  let rest := s.cur.afar.filter fun x => x.1 != mid || x.2.1 != pa
  { s with cur := { s.cur with afar := if granted then (mid, pa, hnd) :: rest else rest } }
def CellOp.isLock : CellOp → Bool
  | .lckTake => true
  | .lckTry => true
  | .lckGive => true
  | .cndWait => true
  | _ => false
/-- Where a take puts its item. -/
def State.putItem (s : State) (dest : Src × BitVec 6 × BitVec 6) (la len : Nat) (item : LineBits) : State := match dest.1 with
  | .one => s.wrG dest.2.1 (item.setWidth 64)
  | .two => (s.wrG dest.2.1 (item.setWidth 64)).wrG dest.2.2 (item.extractLsb' 64 64)
  | .ls => s.writeStore s.cur.place la len (item.toNat % 2 ^ (8 * len))

/-! ### A wait completes (R282, R291, R302, R313) -/

/-- The wait of the issuing strand completes: its item and status are written, and it acquires when the status says so. -/
def State.waitEnds (s : State) (res : WakeResult) (rels : List Rel) : State :=
  match s.cur.park with
  | none => s
  | some k => match res with
    | .poisoned =>
      { s with cur := { s.cur with status := .run, park := none } }.raise
        { code := .jobFault, addr := (k.handle.setWidth 56).setWidth 64, info := k.handle }
    | .status st item =>
      let s := { s with cur := { s.cur with status := .run, park := none, ap := false } }
      let s := match k.take with
        | some dest => if st = Status.ok then (s.countFamily s.cur.id s.cur.place false).putItem dest k.la k.len item else s
        | none => if st = Status.ok ∧ k.puts then s.countFamily s.cur.id s.cur.place true else s
      let s := s.wrG k.gst (BitVec.ofNat 64 (statusCode st))
      let s := if res.acquires then (s.acquireCell rels).acquire else s
      let s := if k.mid ≠ s.mid ∧ k.take = none ∧ k.puts = false ∧ res.acquires then s.noteAfar k.mid k.pa k.handle true else s
      let s := if k.take.isSome then s.foremanTook else s
      let s := { s with cur := s.cur.passed }
      if k.take.isSome ∧ k.mid = s.mid then s.afterTakeAt s.cix (.qTake false) (.done st 0 item) k.pa else s

/-! ### A cell operation -/

/-- The granule that a cell operation names: one that waits for its answer has it already (R269). -/
def State.cellTarget (s : State) (va : Word64) : Except FaultInfo Target :=
  match s.cur.blocked.bind fun b => b.target.filter fun t => decide (t.va = va) with
  | some t => .ok t
  | none => s.translate s.cix (coreCluster s.cur.place) va .cell
/-- A cell operation of the issuing strand (R284): the checks at issue, the release it carries, and its effect at the home. -/
def State.cellOp (s : State) (f : FormY) (op : CellOp) (take : Option (Src × BitVec 6 × BitVec 6)) (la len : Nat) (w : CellWrite)
    (parking : CellWrite) : State :=
  let hnd := s.rdG f.gh
  let va := (hnd.setWidth 56).setWidth 64
  if va.toNat % 32 ≠ 0 then s.raise (faultAt .align va 0)
  else match s.cellTarget va with
    | .error e => s.raise e
    | .ok t =>
      let act (s : State) : State :=
        if t.mid ≠ s.mid then
          if s.peerLost t.mid ∧ s.cur.blocked = none then s.endCell f.gst op w .dead 0 0 []
          else s.askPeer t false f.ls (if mutating op then [(s.issuer f.ls).rel s] else []) (.cell hnd f.f t.leaf.bits op) fun
            | .status st v item =>
              let s := if CellOp.isLock op ∧ (st = .ok ∨ st = .abandoned) then s.noteAfar t.mid t.pa hnd (op != .lckGive) else s
              s.endCell f.gst op w st v item s.answerRels
            | .fault c info => (if info.getLsbD 8 ∧ c = .pagePerm then s.meetError t else s).raise { code := c, addr := va, info := info }
            | .parked v =>
              let t' := (parking s .ok v 0).parkStrand t hnd f op take la len
              (match s.cur.blocked.bind Blocked.woken with
              | some (res, rels) => t'.waitEnds res rels
              | none => t')
            | .refused .part => s.endCell f.gst op w .dead 0 0 []
            | .refused .incarn => s.endCell f.gst op w .dead 0 0 []
            | _ => s.refusePerm va .cell
        else match s.part? s.cix with
          | none => s.stall
          | some p =>
            match cellOperation s p (s.issuer f.ls) hnd f.f t op with
            | none => s.stall
            | some (s, .done st v item) =>
              (s.endCell f.gst op w st v item (s.granule t.pa).rels).afterTakeAt s.cix op (.done st v item) t.pa
            | some (s, .fault e) => s.raise e
            | some (s, .parked v) => (parking s .ok v 0).parkStrand t hnd f op take la len
      if s.cur.blocked.isSome then act s
      else if mutating op then s.waitRelease act else s.waitAcks (fun _ => true) act

def noWrite : CellWrite := fun s _ _ _ => s
/-- A register receives the value when the status is OK. -/
def valueOnOk (r : BitVec 6) : CellWrite := fun s st v _ => if st = .ok then s.wrG r v else s
/-- The frame of a cell operation that takes no item and never parks. -/
def simpleCell (f : FormY) (s : State) (op : State → CellOp) (w : CellWrite) : Host.Outcome State Fault Refusal :=
  issue f.grd s fun s => s.cellOp f (op s) none 0 0 w noWrite
def waitCell (f : FormY) (s : State) (op : State → CellOp) (w : CellWrite) : Host.Outcome State Fault Refusal :=
  issueWait f.grd f.ls s fun s => s.cellOp f (op s) none 0 0 w noWrite

/-! ### CELL (R288-R290) -/

/-- CELL.INIT at the home; a barrier of 0 or of 2^32 and more is refused (R300). -/
def initBody (f : FormY) (s : State) : State :=
  let arg := s.rdG f.gv2
  if f.imm.toNat % 8 = 2 ∧ (arg = 0 ∨ 2 ^ 32 ≤ arg.toNat) then s.raiseCode .illegalOp
  else s.cellOp f (.init f.imm arg) none 0 0 (valueOnOk f.gv1) noWrite
/-- LNCH is the foreman's alone, whatever the guard (R308, R57). -/
def execCellInit (f : FormY) (s : State) : Host.Outcome State Fault Refusal :=
  if f.imm.toNat % 8 = 4 ∧ f.imm.getLsbD 10 then issueForeman f.grd s (initBody f) else issue f.grd s (initBody f)
def execCellKill (f : FormY) (s : State) : Host.Outcome State Fault Refusal := simpleCell f s (fun _ => .kill) noWrite
/-- CELL.QRY writes its word also on STALE (R290). -/
def execCellQry (f : FormY) (s : State) : Host.Outcome State Fault Refusal :=
  simpleCell f s (fun _ => .qry) fun s st v _ => if st = .ok ∨ st = .stale then s.wrG f.gv1 v else s

/-! ### CTR (R292-R294) -/

def execCtrAdd (f : FormY) (s : State) : Host.Outcome State Fault Refusal :=
  simpleCell f s (fun s => .ctrAdd (s.rdG f.gv1 + immWord f.imm)) (valueOnOk f.gv2)
def execCtrRd (f : FormY) (s : State) : Host.Outcome State Fault Refusal := simpleCell f s (fun _ => .ctrRd) (valueOnOk f.gv1)
def execCtrWge (f : FormY) (s : State) : Host.Outcome State Fault Refusal :=
  waitCell f s (fun s => .ctrWge (s.rdG f.gv1 + f.imm.setWidth 64)) noWrite

/-! ### LCK, CND (R296, R298) -/

def execLckTake (f : FormY) (s : State) : Host.Outcome State Fault Refusal := waitCell f s (fun _ => .lckTake) noWrite
def execLckTry (f : FormY) (s : State) : Host.Outcome State Fault Refusal := simpleCell f s (fun _ => .lckTry) noWrite
def execLckGive (f : FormY) (s : State) : Host.Outcome State Fault Refusal := simpleCell f s (fun _ => .lckGive) noWrite
def execCndWait (f : FormY) (s : State) : Host.Outcome State Fault Refusal := waitCell f s (fun _ => .cndWait) noWrite
def execCndSig (f : FormY) (s : State) : Host.Outcome State Fault Refusal := simpleCell f s (fun _ => .cndSig) (valueOnOk f.gv1)
def execCndAll (f : FormY) (s : State) : Host.Outcome State Fault Refusal := simpleCell f s (fun _ => .cndAll) (valueOnOk f.gv1)

/-! ### BAR (R302-R305) -/

def execBarArr (f : FormY) (s : State) : Host.Outcome State Fault Refusal := simpleCell f s (fun _ => .barArr) (valueOnOk f.gv1)
def execBarWt (f : FormY) (s : State) : Host.Outcome State Fault Refusal :=
  waitCell f s (fun s => .barWt (lo32 (s.rdG f.gv1))) noWrite
def execBarDrop (f : FormY) (s : State) : Host.Outcome State Fault Refusal := simpleCell f s (fun _ => .barDrop) (valueOnOk f.gv1)
def execBarAdj (f : FormY) (s : State) : Host.Outcome State Fault Refusal :=
  simpleCell f s (fun s => .barAdj (s.rdG f.gv1 + immWord f.imm)) noWrite

/-- Is a g register named by a live set of the strand's kernel? -/
def State.liveG (s : State) (ls : BitVec 8) (r : BitVec 6) : Bool :=
  (((s.kernelOf s.cur).bind fun k => k.lives[ls.toNat]?).map fun l => l.g.getLsbD r.toNat).getD false
def State.setAp (s : State) (b : Bool) : State := { s with cur := { s.cur with ap := b } }
/-- BAR.ARW (R304): arrives and waits; with AP set the arrival is made already, and it only waits. -/
def execBarArw (f : FormY) (s : State) : Host.Outcome State Fault Refusal :=
  if s.cur.status = .run then
    .next (if s.liveCount ≤ f.ls.toNat ∨ f.gv1 = 0 ∨ s.liveG f.ls f.gv1 = false then s.raiseCode .illegalOp
      else if guardHolds f.grd s = false then s.done
      else if s.cur.ap then
        s.cellOp f (.barWt (lo32 (s.rdG f.gv1))) none 0 0 (fun s _ _ _ => s.setAp false) noWrite
      else s.cellOp f .barArw none 0 0 (fun s st v _ => (if st = .ok then s.wrG f.gv1 v else s).setAp false)
        (fun s _ v _ => (s.wrG f.gv1 v).setAp true))
  else .fault .noStrand

/-! ### Queues (R311-R317, R324) -/

/-- The length of an item in bytes (R311). -/
def itemLen (f : FormY) : Nat := match f.src with
  | .one => 8
  | .two => 16
  | .ls => 8 * 2 ^ (f.imm.toNat % 4)
/-- The local-store operand of SRC = ls: aligned, below the entry's store, clear of queued commands (R311). -/
def State.itemStore (s : State) (f : FormY) (kind : Kind) (k : Nat → State) : State :=
  let a := s.rdG f.gl
  let n := itemLen f
  if f.src ≠ .ls then k 0
  else if a.toNat % n ≠ 0 then s.raise (faultAt .align a 0)
  else if s.storeLimit s.cur < a.toNat + n then s.raise (faultAt .pagePerm a kind.code)
  else if s.storeBusy a.toNat n (decide (kind = .write)) then s.stall else k a.toNat
/-- The item a put sends. -/
def State.itemOf (s : State) (f : FormY) (a : Nat) : LineBits := match f.src with
  | .one => (s.rdG f.gv1).setWidth 512
  | .two => BitVec.ofNat 512 ((s.rdG f.gv1).toNat + (s.rdG f.gv2).toNat * 2 ^ 64)
  | .ls => BitVec.ofNat 512 (s.readStore s.cur.place a (itemLen f))
def putBody (f : FormY) (tries : Bool) (s : State) : State :=
  s.itemStore f .read fun a => s.cellOp f (.qPut (s.itemOf f a) (itemLen f) tries) none 0 0 noWrite noWrite
def takeBody (f : FormY) (tries : Bool) (s : State) : State :=
  let dest := (f.src, f.gv1, f.gv2)
  s.itemStore f .write fun a =>
    s.cellOp f (.qTake tries) (some dest) a (itemLen f) (fun s st _ item => if st = .ok then s.putItem dest a (itemLen f) item else s) noWrite
def execQPut (f : FormY) (s : State) : Host.Outcome State Fault Refusal := issueWait f.grd f.ls s (putBody f false)
def execQTake (f : FormY) (s : State) : Host.Outcome State Fault Refusal := issueWait f.grd f.ls s (takeBody f false)
def execQTryput (f : FormY) (s : State) : Host.Outcome State Fault Refusal := issue f.grd s (putBody f true)
def execQTrytake (f : FormY) (s : State) : Host.Outcome State Fault Refusal := issue f.grd s (takeBody f true)
def execQJoin (f : FormY) (s : State) : Host.Outcome State Fault Refusal := simpleCell f s (fun _ => .qJoin) noWrite
def execQClose (f : FormY) (s : State) : Host.Outcome State Fault Refusal := simpleCell f s (fun _ => .qClose) noWrite

/-- The limits of a governor (R324). -/
def governorOk (x : Word64) : Bool :=
  x == 0 || (decide (1 ≤ fieldNat x 0 16) && decide (fieldNat x 16 16 < fieldNat x 0 16) && decide (1 ≤ fieldNat x 32 8) && fieldNat x 40 24 == 0)
/-- The governor form of Q.JOIN: the foreman's (R324). -/
def execQJoinGovernor (f : FormY) (s : State) : Host.Outcome State Fault Refusal := issueForeman f.grd s fun s =>
  if governorOk (s.rdG f.gv2) = false then s.raiseCode .illegalOp
  else s.itemStore f .read fun a => s.cellOp f (.qGovern (s.rdG f.gv1) (s.rdG f.gv2) (s.itemOf f a)) none 0 0 noWrite noWrite

end Sys2Proof.Machine
end

