-- ==== Sys2Proof/Machine/Stop.lean ====
section
/-! DEFINITION. What ends with a strand: its queued commands, its copy jobs, its parks (spec/05_strand.md R96, R105; spec/08_tile.md
R168; spec/11_copy.md R232, R236; spec/22_hypothesis.md R392), groups that retire (spec/18_group.md R343), and posts (R234). -/

namespace Sys2Proof.Machine

/-- A post on its way to its escapement (R234). -/
def State.post (s : State) (cix : Nat) (source : PostSource) (party : Party) (view : View) (handle : Word64) (hyp : BitVec 20) (op : CellOp) : State :=
  { s with posts := s.posts ++ [{ id := s.fresh, cix := cix, source := source, handle := handle, hyp := hyp, op := op, party := party, view := view
                                  sent := none }], fresh := s.fresh + 1 }

def Job.source (s : State) (j : Job) : PostSource := .job j.jid (locWord s.mid j.place) j.who.grp.lid j.who.sidx
/-- A job's post, unless GK named g0 (R234). -/
def State.postJob (s : State) (j : Job) (op : CellOp) : State :=
  if j.form.gk = 0 then s else s.post j.who.grp.cix (Job.source s j) (.job j.n) (View.raise j.view (.job j.n) s.fresh) j.handle j.hyp op
def State.updJob (s : State) (n : Nat) (f : Job → Job) : State :=
  { s with jobs := s.jobs.map fun j => if j.n = n then f j else j }
/-- A job that has ended goes to the end of the list; the last 16 of its strand are remembered (R243), and its launch keeps what it has done. -/
def State.closeJob (s : State) (j : Job) (st : JobStatus) : State :=
  let rest := s.jobs.filter fun x => x.n != j.n
  let ended := rest.filter fun x => !x.live && decide (x.who = j.who)
  let kept := if 16 ≤ ended.length then rest.filter (fun x => some x.n != (ended.head?).map Job.n) else rest
  let done (l : Launch) : Launch := if l.lid = j.who.grp.lid then { l with jobsView := View.join l.jobsView (View.raise j.view (.job j.n) s.fresh) } else l
  let s := s.updPart j.who.grp.cix fun p => { p with launches := p.launches.map done }
  { s with jobs := kept ++ [{ j with st := st, pending := [] }], net := s.net.filter fun r => match r.reply with
             | .copy _ => !decide (r.party = .job j.n)
             | _ => true }
/-- A job ends before it is done (R232): it poisons its counter, or adds 1 under CPYK #1. -/
def State.endJob (s : State) (add : Bool) (j : Job) : State :=
  if j.live then (s.closeJob j .ended).postJob j (if add then .ctrAdd 1 else .poison) else s
def State.endJobs (s : State) (who : StrandId) : State := (s.jobs.filter fun j => decide (j.who = who)).foldl (State.endJob · false ·) s

/-- Vector commands whose result goes to f[FD] (R140). -/
def usesFd (op : VecOp) : Bool := op == .mpop || op == .vext || op == .vred || op == .vdot
def VecCommand.fd (c : VecCommand) : Option Nat := match c.action with
  | .compute op f => if usesFd op then some f.fd.toNat else none
  | .query fd _ _ _ => some fd
  | _ => none
/-- The tag of a queued VSTG that has not stored yet. -/
def VecCommand.unsentTag (c : VecCommand) : Option (BitVec 16) := match c.action with
  | .scatter _ _ tag => some tag
  | _ => none
/-- Vector and tile commands not yet started are discarded, their pending f counts withdrawn, and the tags of stores that will not be made given back; a
started tile command runs to its end for nothing (R105, R168). -/
def Strand.discard (t : Strand) : Strand :=
  let t := t.vq.foldl (fun (t : Strand) c => match c.fd with
    | some n => t.withdraw n c.stamp
    | none => t) t
  let t := (t.tq.filter fun c => !c.running).foldl (fun (t : Strand) c => if c.op == .movc || c.op == .movcv then t.withdraw c.form.fd.toNat c.stamp else t) t
  { t with vq := [], unacked := t.unacked.filter fun u => !(t.vq.any fun c => c.unsentTag == some u)
           tq := (t.tq.filter TileCommand.running).map fun c => { c with void := true } }

/-- The record of a discarded store of a strand that has exited, marked EXT (R189). -/
def lostRecord (s : State) (t : Strand) (e : BitVec 16 × Word64 × Bool) : Record :=
  { blankRecord .pagePerm with
    ext := true, sidx := t.id.sidx, lid := BitVec.ofNat 32 t.id.grp.lid, addr := e.2.1, info := (lostFault e).info
    ghnd := groupHandle t.id.grp, loc := locWord s.mid t.place, hyp := t.hcur, clk := s.clk }
/-- A strand exits with discarded stores that it has not been told of: their records go now. -/
def State.tellLost (s : State) (t : Strand) : State :=
  t.lost.foldl (fun (s : State) e => sendRecord s t.id.grp.cix none (lostRecord s t e)) s

/-- The strand ends with a status: its parks are withdrawn, its jobs end, its commands are discarded, its record goes. -/
def State.endStrand (s : State) (id : StrandId) (st : StrandStatus) (orphan : Bool) : State :=
  match s.strand? id with
  | none => s
  | some t =>
    if t.status = .exited ∨ t.status = .exitedOrphan then (s.setStrand t.discard).endJobs id else
    let s := ((withdrawStrand s t).endJobs id).tellLost t
    match s.strand? id with
    | none => s
    | some t =>
      let s := s.setStrand { t.discard.release with status := st, orp := t.orp || orphan, park := none, blocked := none, answered := none, saved := none, stop := none, afar := [], lost := [] }
      { s with net := s.net.filter fun r => !(r.of id && r.reply != .none) }

def Strand.ended (t : Strand) : Bool := t.status == .exited || t.status == .exitedOrphan
def State.groupStrands (s : State) (g : GroupId) : List Strand := s.strands.filter fun t => decide (t.id.grp = g)
/-- What a group becomes as its strands end (R343): it retires, and its reservation is released, when every strand has ended; under a pending
pre-emption it is READY when every strand is saved or has ended. -/
def State.groupAfter (s : State) (g : Group) : Option Group :=
  let ts := s.groupStrands g.id
  if g.st ≠ .unplaced ∧ ts.all Strand.ended then none
  else if g.preempt.isSome ∧ g.st = .resident ∧ ts.all (fun t => t.ended || t.status == .ready) then some { g with st := .ready }
  else some g
def State.retire (s : State) : State := { s with groups := s.groups.filterMap s.groupAfter }

end Sys2Proof.Machine
end

