-- ==== Sys2Proof/Machine/Preempt.lean ====
section
/-! DEFINITION. Pre-emption, saving and restoring of strands (spec/18_group.md R340-R351; spec/06_scalar.md R119, R120;
spec/05_strand.md R90, R101). -/

namespace Sys2Proof.Machine

/-! ### Live sets and record sizes (R349, R350) -/

def popCount (w : Nat) (x : Nat) : Nat := countLanes (fun i => x.testBit i) w
def roundUp64 (n : Nat) : Nat := (n + 63) / 64 * 64
/-- A mask of the registers for which a test holds. -/
def regMask (w : Nat) (p : Nat → Bool) : BitVec w := BitVec.ofNat w (packLanes 1 (fun i => if p i then 1 else 0) w)
def Strand.boundMask (t : Strand) : BitVec 48 := regMask 48 fun i => (t.vr i).binding.isSome
def Strand.anchorMask (t : Strand) : BitVec 48 := regMask 48 fun i => (t.vr i).anchored
def Strand.heldMask (t : Strand) : BitVec 48 := regMask 48 fun i => (t.vr i).held
/-- The length of a record. -/
def LiveSet.size (l : LiveSet) (bound : BitVec 48) : Nat :=
  1856 + 64 * popCount 48 bound.toNat + roundUp64 (8 * (popCount 64 (l.g.toNat / 2) + popCount 4 l.f.toNat))
    + 512 * popCount 48 (l.v &&& ~~~bound).toNat + 16384 * popCount 4 l.c.toNat + l.ls.foldl (fun n r => n + r.2) 0
/-- The live set of a full save. -/
def State.fullLive (s : State) (t : Strand) : LiveSet :=
  { g := BitVec.allOnes 64, v := t.heldMask, c := 15, f := 15, ls := [(0, s.storeLimit t)] }
def emptyLive : LiveSet := { g := 0, v := 0, c := 0, f := 0, ls := [] }
/-- A live set of the strand's kernel. -/
def State.liveSet (s : State) (t : Strand) (ls : BitVec 8) : LiveSet :=
  ((s.kernelOf t).bind fun k => k.lives[ls.toNat]?).getD emptyLive
/-- The live set under which a stop point saves, and its KIND. -/
def State.stopLive (s : State) (t : Strand) : StopPoint → LiveSet × Nat
  | .point ls => (s.liveSet t ls, 1)
  | .wait ls => (s.liveSet t ls, 1)
  | .boundary => (s.fullLive t, 2)

/-! ### The save region (R255, R346) -/

def roomIn (taken : List (Nat × Nat)) (lim need at_ : Nat) : Bool :=
  decide (at_ + need ≤ lim) && taken.all fun r => decide (at_ + need ≤ r.1) || decide (r.1 + r.2 ≤ at_)
/-- The lowest place of a length between two limits that meets no range taken. -/
def findGap (taken : List (Nat × Nat)) (base lim need : Nat) : Option Nat :=
  ((base :: taken.map fun r => r.1 + r.2).filter fun x => decide (base ≤ x) && roomIn taken lim need x).foldl
    (fun best x => some (match best with
      | none => x
      | some y => Nat.min x y)) none
/-- The window images of a time-shared part, WIN MiB for each owned cluster (R255). -/
def State.windowBytes (s : State) (p : Part) : Nat :=
  (p.sites.map fun site => (List.range 20).foldl (fun n c => n + s.winOf { site := site, cluster := c } * 2 ^ 20) 0).foldl (· + ·) 0
/-- Where a byte of a vault window stands in the images: the windows of the owned clusters, one after the other (R252, R255). -/
def State.imageOffset (s : State) (l : ClusterLoc) (off : Nat) : List ClusterLoc → Nat
  | [] => off
  | c :: rest => if c = l then off else s.winOf c * 2 ^ 20 + s.imageOffset l off rest
/-- All clusters of a part, ascending. -/
def Part.clusters (p : Part) : List ClusterLoc := (p.sites.map fun site => (List.range 20).map fun c => ({ site := site, cluster := c } : ClusterLoc)).flatten
/-- Where an address stands while the part is not current: its windows are in their images. -/
def State.imagePa (s : State) (p : Part) (pa : Nat) : Nat := match vaultOf pa with
  | some (l, off) => (regionOf p.csavb p.csavl).1 + s.imageOffset l off p.clusters
  | none => pa
/-- Where reservations begin: a time-shared part keeps its windows and its foreman's record before them. -/
def State.saveHead (s : State) (p : Part) : Nat := if p.ts then s.windowBytes p + 4 * 65536 else 0
/-- A reservation of the groups' records, whole or not at all. -/
def State.reserve (s : State) (g : GroupId) (need : Nat) : Option State :=
  match s.part? g.cix with
  | none => none
  | some p =>
    let region := regionOf p.csavb p.csavl
    let taken := (s.groups.filter fun x => x.id.cix == g.cix).filterMap fun x => x.reserve.map fun r => (r.1, r.2.1)
    (findGap taken (s.saveHead p) region.2 need).map fun off => s.updGroup g fun x => { x with reserve := some (off, need, 0) }

/-! ### Writing a record (R349, R410) -/

/-- Fields of a record: offset, bytes, value. -/
abbrev RecordField := Nat × Nat × Nat

def bindStateCode (b : Binding) : Nat := match b.st with
  | .resident => 1
  | .stale => 4
  | _ => 2
/-- A binding entry of 64 bytes at an offset (R410). -/
def bindingFields (at_ : Nat) (b : Binding) : List RecordField :=
  [(at_, 1, b.recipe + b.capn * 16), (at_ + 1, 1, bindStateCode b),
   (at_ + 2, 1, (match b.nested with
      | some v => v + 64
      | none => 0) + (if b.page.isSome then 128 else 0)), (at_ + 3, 1, 0),
   (at_ + 4, 4, (b.page.map fun p => p.2.toNat).getD 0), (at_ + 8, 8, (b.page.map fun p => p.1.toNat).getD 0)]
  ++ (b.caps.zipIdx.map fun c => (at_ + 16 + 8 * c.2, 8, c.1.toNat)) ++ [(at_ + 48, 8, b.luta.toNat), (at_ + 56, 8, b.lutb.toNat)]
/-- Values of n bytes each, one after the other. -/
def sequenceFields (at_ n : Nat) (vs : List Nat) : List RecordField := vs.zipIdx.map fun v => (at_ + n * v.2, n, v.1)
/-- Registers of a mask, ascending. -/
def maskRegs (w : Nat) (m : BitVec w) : List Nat := (List.range w).filter fun i => m.getLsbD i

/-- WAKE and IADDR: what a wake has brought (R349, R351). -/
def wakeFields (t : Strand) (len : Nat) : List RecordField :=
  let k := t.park
  let res := k.bind Park.result
  let takes := (k.bind Park.take).isSome
  let item : Nat × Nat := match res with
    | some (.status st x) => if takes ∧ st = .ok then (1, x.toNat) else (0, 0)
    | _ => (0, 0)
  let wst := match res with
    | some (.status st _) => statusCode st
    | some .poisoned => 0x80
    | none => 0
  let n := Nat.log2 ((k.map Park.len).getD 8) - 3
  [(0x30, 8, wst + (if res.isSome then 256 else 0) + item.1 * 512 + (if item.1 = 1 then n * 1024 else 0) + len / 64 * 2 ^ 32),
   (0x38, 8, (k.map fun k => if k.take.isSome then k.la else 0).getD 0), (0x700, 64, item.2)]
def miscWord (t : Strand) (kind : Nat) (ls : BitVec 8) : Nat :=
  t.k.toNat + t.vflags.toNat * 2 ^ 8 + t.bud * 2 ^ 16 + t.weight * 2 ^ 24
    + (regMask 4 fun i => (t.f' i).full).toNat * 2 ^ 28 + kind * 2 ^ 32 + ls.toNat * 2 ^ 40
def recordFields (t : Strand) (kind : Nat) (ls : BitVec 8) (live : LiveSet) (store : List Host.Cell) (len : Nat) : List RecordField :=
  let bound := t.boundMask
  let gs := (maskRegs 64 live.g).filter (· ≠ 0)
  let fs := maskRegs 4 live.f
  let vs := maskRegs 48 (live.v &&& ~~~bound)
  let cs := maskRegs 4 live.c
  let bs := (maskRegs 48 bound).filterMap fun i => (t.vr i).binding
  let gAt := 0x740 + 64 * bs.length
  let vAt := gAt + roundUp64 (8 * (gs.length + fs.length))
  let cAt := vAt + 512 * vs.length
  let lsAt := cAt + 16384 * cs.length
  let starts := live.ls.zipIdx.map fun r => (r.1, lsAt + (live.ls.take r.2).foldl (fun n x => n + x.2) 0)
  [(0, 8, t.pc.toNat), (8, 8, t.ssw.toNat), (0x10, 8, miscWord t kind ls),
   (0x18, 8, t.hcur.toNat + t.seqTag.toNat * 2 ^ 32 + t.jseq.toNat * 2 ^ 48), (0x20, 8, t.luta.toNat), (0x28, 8, t.lutb.toNat),
   (0x40, 8, live.g.toNat), (0x48, 6, live.v.toNat), (0x4E, 2, live.c.toNat + live.f.toNat * 16)]
  ++ (List.range 4).map (fun i => (0x50 + 4 * i, 4, ((live.ls[i]?).map fun r => r.1 / 64 + r.2 / 64 * 65536).getD 0))
  ++ [(0x60, 8, bound.toNat), (0x68, 8, t.anchorMask.toNat), (0x70, 16, 0)]
  ++ ((List.range 4).map fun i => match t.loops.reverse[i]? with
        | some e => [(0x80 + 32 * i, 8, e.start), (0x88 + 32 * i, 8, e.final), (0x90 + 32 * i, 8, e.count), (0x98 + 32 * i, 8, 0)]
        | none => [(0x80 + 32 * i, 32, 0)]).flatten
  ++ sequenceFields 0x100 64 (t.d.toList.map BitVec.toNat) ++ sequenceFields 0x500 64 (t.m.toList.map BitVec.toNat)
  ++ wakeFields t len
  ++ (bs.zipIdx.map fun b => bindingFields (0x740 + 64 * b.2) b.1).flatten
  ++ [(gAt, vAt - gAt, 0)]
  ++ sequenceFields gAt 8 (gs.map fun i => ((t.g[i]?).getD 0).toNat)
  ++ sequenceFields (gAt + 8 * gs.length) 8 (fs.map fun i => (t.f' i).value.toNat)
  ++ sequenceFields vAt 512 (vs.map fun i => (t.v' i).toNat) ++ sequenceFields cAt 16384 (cs.map fun i => (t.c' i).toNat)
  ++ starts.map fun r => (r.2, r.1.2, readNat store r.1.1 r.1.2)
def writeFields (m : List Host.Cell) (base : Nat) : List RecordField → List Host.Cell
  | [] => m
  | (off, n, v) :: rest => writeFields (writeNat m (base + off) v n) base rest

/-- The bytes of a local store that a live set names. -/
def keepStore (ls : List (Nat × Nat)) (store : List Host.Cell) : List Host.Cell :=
  store.filter fun c => ls.any fun r => decide (r.1 ≤ c.1) && decide (c.1 < r.1 + r.2)

/-! ### Saving a strand (R105, R343, R347) -/

/-- A strand's copy queue has drained: its jobs are accepted, and those with a footprint in its local store have ended (R105, R236). -/
def State.jobsDrained (s : State) (t : Strand) : Bool := !s.jobs.any fun j => j.live && decide (j.who = t.id) && (j.st == .queued || j.inStore)
/-- Queues, loads and tags of a strand have drained, its jobs are accepted, and those with a footprint in its local store have ended
(R105, R216, R236). -/
def State.canSave (s : State) (t : Strand) : Bool :=
  t.vq.isEmpty && t.tq.isEmpty && t.unacked.isEmpty && t.blocked.isNone
    && s.jobsDrained t && !s.net.any fun r => r.of t.id && !r.idle
/-- The loop of strands' fields that leave a core: k registers, loops and the rest stay in the record; the binding states go to
DROPPED, STALE staying STALE (R403). -/
def Residency.saved (r : Residency) : Residency :=
  { r with entry := false, binding := r.binding.map fun b => { b with st := if b.st = .stale then .stale else .dropped } }
/-- A record written at an address, and the strand marked. -/
def State.writeRecord (s : State) (t : Strand) (st : StrandStatus) (kind : Nat) (ls : BitVec 8) (live : LiveSet) (atWait : Bool) (addr : Nat) : State :=
  let store := (s.core t.place).store
  let len := live.size t.boundMask
  let rec_ : Saved := { kind := kind, ls := ls, live := live, addr := addr, len := len, store := keepStore live.ls store, atWait := atWait }
  ({ s with mem := writeFields s.mem addr (recordFields t kind ls live store len) } : State).setStrand
    { t with status := st, saved := some rec_, stop := none, byTransfer := false
             vres := Vector.ofFn fun i => (t.vr i.val).saved }
/-- The record's bytes after a wake has brought its result. -/
def State.rewriteWake (s : State) (t : Strand) : State :=
  match t.saved with
  | some r => { s with mem := writeFields s.mem r.addr (wakeFields t r.len) }
  | none => s

/-- The most that a full save of a strand that runs on can come to take, whatever registers it holds and binds until it stops (R101, R349). -/
def State.fullMost (s : State) (t : Strand) : Nat := 1856 + 576 + 512 * Nat.min t.bud 48 + 64 * (48 - t.bud) + 4 * 16384 + s.storeLimit t
/-- What a reservation counts for a strand: the exact size when PARKED, the full save once it has stopped, and for one that still runs the most that its
full save can take, so that no record ever lacks room (R346, R347; assumption 78). -/
def State.needOf (s : State) (t : Strand) : Nat :=
  if t.ended ∨ t.saved.isSome then 0 else
  match t.status, t.stop, t.park with
  | .parked, _, some k => (s.liveSet t k.ls).size t.boundMask
  | _, some p, _ => Nat.max ((s.stopLive t p).1.size t.boundMask) ((s.fullLive t).size t.boundMask)
  | _, _, _ => s.fullMost t
def State.needOfGroup (s : State) (id : GroupId) : Nat := (s.groupStrands id).foldl (fun n t => n + s.needOf t) 0
/-- A strand saved inside its group's reservation, whose excess is returned (R347). -/
def State.saveStrand (s : State) (t : Strand) (st : StrandStatus) (kind : Nat) (ls : BitVec 8) (live : LiveSet) (atWait : Bool) : State :=
  match s.group? t.id.grp, s.part? t.id.grp.cix with
  | some g, some p =>
    match g.reserve with
    | some (off, len, used) =>
      let n := live.size t.boundMask
      let rest := (((s.groupStrands g.id).filter fun u => decide (u.id ≠ t.id)).map s.needOf).foldl (· + ·) 0
      if len < used + n then s else
      (s.writeRecord t st kind ls live atWait ((regionOf p.csavb p.csavl).1 + off + used)).updGroup g.id fun g =>
        { g with reserve := some (off, Nat.max (used + n) (Nat.min len (used + n + rest)), used + n) }
    | none => s
  | _, _ => s

/-- Where a stopped or parked strand of a group under a pending pre-emption is saved (R347). -/
def State.trySave (s : State) (id : StrandId) : State :=
  match s.strand? id with
  | none => s
  | some t =>
    if s.canSave t = false then s
    else match t.status, t.stop, t.park with
      | .run, some p, _ =>
        if t.lost.isEmpty = false then
          s.onStrand id fun s => match s.cur.lost with
            | e :: _ => ({ s with opnd := none } : State).raise (lostFault e)
            | [] => s
        else
          let l := s.stopLive t p
          let atWait := match p with
            | .wait _ => true
            | _ => false
          (s.saveStrand t .ready l.2 t.pls l.1 atWait).retire
      | .parked, _, some k => (s.saveStrand t .ready 1 k.ls (s.liveSet t k.ls) false).retire
      | _, _, _ => s
/-- All strands of a group that can be saved are. -/
def State.trySaves (s : State) (id : GroupId) : State :=
  (s.groupStrands id).foldl (fun s t => s.trySave t.id) s
/-- Is there a strand to save: parked, or stopped? The engine reserves when the first comes (R347, R413; assumption 78). -/
def State.savesSome (s : State) (id : GroupId) : Bool := (s.groupStrands id).any fun t => t.status == .parked || t.stop.isSome
/-- A reservation attempt of a pending pre-emption; its failure is told once (R347). -/
def State.tryReserve (s : State) (g : Group) : State :=
  if g.reserve.isSome ∨ s.savesSome g.id = false then s
  else match s.reserve g.id (s.needOfGroup g.id) with
    | some s => s
    | none =>
      if g.fullSent then s
      else
        let r := { blankRecord .saveFull with lid := BitVec.ofNat 32 g.id.lid, ghnd := groupHandle g.id, clk := s.clk }
        (sendRecord s g.id.cix none r).updGroup g.id fun g => { g with fullSent := true }
/-- A pre-emption becomes pending (R119, R347); a frozen group's waits for the thaw (R344). -/
def State.preempt (s : State) (id : GroupId) (overrun : Bool) : State :=
  match s.group? id with
  | none => s
  | some g =>
    let s := s.updGroup id fun g => { g with preempt := some (g.preempt.getD s.clk.toNat), overrun := g.overrun || overrun }
    if g.st = .resident ∧ g.preempt = none then (s.tryReserve g).trySaves id else s
def State.preemptPending (s : State) (id : GroupId) : Bool := ((s.group? id).map fun g => g.preempt.isSome).getD false

/-- The issuing strand stops under a pending pre-emption with a resume PC, and is saved when it can be. -/
def State.stopAt (s : State) (p : StopPoint) (pc : BitVec 56) : State :=
  let pls := match p with
    | .point ls => ls
    | .wait ls => ls
    | .boundary => s.cur.pls
  let s := ({ s with cur := { s.cur with stop := some p, pc := pc, pls := pls, byTransfer := false }, last := .stopped } : State).dropReaderChunks
  match s.group? s.cur.id.grp with
  | some g => (s.tryReserve g).trySave s.cur.id
  | none => s

/-! ### Free cores (R340) -/

/-- The place a strand occupies: until it is saved with its group, or has exited and its queues have drained (R96, R340). -/
def State.occupies (s : State) (t : Strand) : Bool :=
  if t.ended then !t.vq.isEmpty || !t.tq.isEmpty || !s.jobsDrained t
  else (t.fmn && t.saved.isNone) || t.onCore || (match s.group? t.id.grp with
    | some g => t.status == .ready && (g.st == .resident || g.st == .frozen || g.st == .saving)
    | none => false)
/-- The cores of a part that no strand occupies; a site that drains for its retirement offers none (R438). -/
def State.freeCores (s : State) (p : Part) : List CoreLoc :=
  p.logical.filter fun c => p.draining != some c.site && !s.strands.any fun t => decide (t.place = c) && s.occupies t
/-- The first cluster, or site, of a list of cores with n of them free, and its n lowest. -/
def firstFit (free : List CoreLoc) (same : CoreLoc → CoreLoc → Bool) (n : Nat) : List CoreLoc → Option (List CoreLoc)
  | [] => none
  | c :: rest =>
    let here := free.filter (same c)
    if n ≤ here.length then some (here.take n) else firstFit free same n rest
/-- The cores that the deal gives n strands of a group of SCNT. -/
def dealCores (p : Part) (free : List CoreLoc) (scnt n : Nat) : Option (List CoreLoc) :=
  firstFit free (fun a b => if scnt ≤ 8 then decide (coreCluster a = coreCluster b) else a.site == b.site) n p.logical
/-- Registers that the record of a strand restores (R101). -/
def Strand.restores (t : Strand) : Nat := match t.saved with
  | some r => popCount 48 (r.live.v &&& ~~~t.boundMask).toNat
  | none => 0
/-- Room in a half for a strand that arrives (R101). -/
def State.budRoom (s : State) (c : CoreLoc) : Nat := 144 - s.budSum (coreHalf c)
/-- Every strand of a group finds budget room on its core, those before it in the group being there (R101). -/
def State.budgetFits (s : State) : List (Strand × CoreLoc) → Bool
  | [] => true
  | (t, c) :: rest =>
    let room := s.budRoom c
    decide (t.restores ≤ room) && ((s.setStrand { t with place := c, status := .run, saved := none, bud := Nat.min t.bud room }).budgetFits rest)
/-- The strands of a group that have not exited, in ascending SIDX order. -/
def State.liveStrands (s : State) (g : GroupId) : List Strand :=
  (List.range 64).filterMap fun i => (s.strand? { grp := g, sidx := i }).bind fun t => if t.ended then none else some t
/-- Where a group of SCNT that places n strands goes (R340), if it fits: on free cores and, a READY one, within the budgets there (R101). -/
def State.placeOf (s : State) (p : Part) (g : GroupId) (scnt n : Nat) : Option (List CoreLoc) :=
  (dealCores p (s.freeCores p) scnt n).filter fun cores =>
    ((s.group? g).map Group.st).getD .unplaced != .ready || s.budgetFits ((s.liveStrands g).zip cores)

/-! ### EXIT, YIELD and PRE.POINT (R117, R119, R120) -/

/-- EXIT (R117): not for the foreman. -/
def execExit (f : FormB) (s : State) : Host.Outcome State Fault Refusal := issue f.grd s fun s =>
  if s.cur.fmn then s.raiseCode .illegalOp
  else
    let s := s.tellLost s.cur
    ({ s with cur := { s.cur.release with status := .exited, lost := [] }, last := .stopped } : State).retire

/-- The number of groups of a launch, and the least index from n on that has not been dealt, held or dropped (R342, R363). -/
def Launch.total (l : Launch) : Nat := l.nx * l.ny * l.nz
def Launch.freeFrom (l : Launch) : Nat → Nat → Option Nat
  | 0, _ => none
  | fuel + 1, n =>
    if l.total ≤ n then none
    else if l.heldBack.contains n || l.dropped.contains n then l.freeFrom fuel (n + 1) else some n
def Launch.nextFree (l : Launch) : Option Nat := l.freeFrom (l.heldBack.length + l.dropped.length + 1) l.next
/-- The queue that a launch was taken from, while it lives (R318). -/
def Part.queueOf (p : Part) (l : Launch) : Option LaunchQueue := p.queues.find? fun q => q.lqi == l.lqi && q.born == l.born
/-- A launch's queue has budget left (R322); one whose queue was killed is charged to none. -/
def Part.hasBudget (p : Part) (l : Launch) : Bool := ((p.queueOf l).map fun q => q.remain != 0).getD true
/-- The least of a group list by index. -/
def lowestGroup : List Group → Option Group
  | [] => none
  | g :: rest => match lowestGroup rest with
    | none => some g
    | some h => if h.id.lgi < g.id.lgi then some h else some g
/-- The groups of a launch that may be placed now, READY ones before unplaced ones: how many strands each must place. Unplaced groups come in ascending
index, those that a thaw has released among them (R327). -/
def State.placeable (s : State) (p : Part) (l : Launch) : List (GroupId × Nat) :=
  let mine := s.groups.filter fun g => g.id.cix == p.cix && g.id.lid == l.lid && !g.held && !g.overrun
  ((mine.filter fun g => g.st == .ready).map fun g => (g.id, countWhere (fun t => !t.ended) (s.groupStrands g.id)))
    ++ (match lowestGroup (mine.filter fun g => g.st == .unplaced), if l.st = .placing then l.nextFree else none with
      | none, none => []
      | some g, none => [(g.id, l.scnt)]
      | none, some n => [({ cix := p.cix, lid := l.lid, lgi := n }, l.scnt)]
      | some g, some n => [(if g.id.lgi < n then g.id else { cix := p.cix, lid := l.lid, lgi := n }, l.scnt)])
/-- Launches that have ended with strands left parked (R336), of which a wait has completed since: what the scheduler needs of them to restore the
group. -/
def leftLaunch (t : Strand) : Launch :=
  { lid := t.id.grp.lid, lqi := 64, born := 0, st := .running, kimg := 0, kid := t.kid, ent := t.ent, dyn := false, flq := none, scnt := t.scnt
    nx := t.nx.toNat, ny := t.ny.toNat, nz := t.nz.toNat, hyp := 0, ctrh := 0, args := [], family := none, governed := none, govGen := 0, view := []
    jobsView := [], next := t.nx.toNat * t.ny.toNat * t.nz.toNat, heldBack := [], dropped := [] }
def State.leftLaunches (s : State) (p : Part) : List Launch :=
  (s.groups.filter fun g => g.id.cix == p.cix && g.st == .ready && !p.launches.any fun l => l.lid == g.id.lid).filterMap fun g =>
    (s.groupStrands g.id).head?.map leftLaunch
/-- Groups of a part waiting for cores: how many strands each must place, and its SCNT. -/
def State.waiting (s : State) (p : Part) : List (GroupId × Nat × Nat) :=
  ((p.launches.filter p.hasBudget ++ s.leftLaunches p).map fun l => (s.placeable p l).map fun g => (g.1, g.2, l.scnt)).flatten
/-- A YIELD is granted when another group of the part waits that free cores cannot take. -/
def State.yieldGranted (s : State) : Bool :=
  match s.part? s.cix with
  | none => false
  | some p => (s.waiting p).any fun w => decide (w.1 ≠ s.cur.id.grp) && (s.placeOf p w.1 w.2.2 w.2.1).isNone

/-- The strand stops behind a PRE.POINT or YIELD, where R109 has it go on (assumption 60). -/
def State.stopBehind (s : State) (ls : BitVec 8) : State :=
  let t := s.cur.passed
  ({ s with cur := { s.cur with loops := t.loops } } : State).stopAt (.point ls) t.pc
/-- PRE.POINT (R119). -/
def execPrePoint (f : FormB) (s : State) : Host.Outcome State Fault Refusal := issueWait f.grd f.ls s fun s =>
  if s.preemptPending s.cur.id.grp then s.stopBehind f.ls else s.done
/-- YIELD (R120). -/
def execYield (f : FormB) (s : State) : Host.Outcome State Fault Refusal := issueWait f.grd f.ls s fun s =>
  let s := if s.cur.fmn = false ∧ s.preemptPending s.cur.id.grp = false ∧ s.yieldGranted then s.preempt s.cur.id.grp false else s
  if s.preemptPending s.cur.id.grp then s.stopBehind f.ls else s.done

/-! ### Restoring (R90, R101, R351) -/

/-- Registers that a record does not name are free values from now on. -/
def restoreRegisters (t : Strand) (live : LiveSet) (fresh : Nat) : Strand :=
  { t with
    g := Vector.ofFn fun i => if i.val = 0 ∨ live.g.getLsbD i.val then (t.g[i.val]?).getD 0 else Config.freeBits 64 (fresh * 1024 + i.val)
    v := Vector.ofFn fun i =>
      if live.v.getLsbD i.val ∧ (t.vr i.val).binding.isNone then t.v' i.val
      else if (t.vr i.val).binding.isSome then 0 else Config.freeBits 4096 (fresh * 1024 + 64 + i.val)
    vres := Vector.ofFn fun i =>
      let r := (t.vr i.val).saved
      let held := live.v.getLsbD i.val && r.binding.isNone
      { r with held := held, entry := held }
    hollow := (List.range 48).filter fun i => !live.v.getLsbD i && (t.vr i).binding.isNone
    c := Vector.ofFn fun i => if live.c.getLsbD i.val then t.c' i.val else Config.freeBits 131072 (fresh * 1024 + 128 + i.val)
    ckind := Vector.ofFn fun i => if live.c.getLsbD i.val then (t.ckind[i.val]?).getD .clear else .clear
    f := Vector.ofFn fun i =>
      let r := t.f' i.val
      { r with value := if live.f.getLsbD i.val then r.value else Config.freeBits 64 (fresh * 1024 + 192 + i.val), producers := [] } }
/-- A strand restored from its record onto a core. -/
def State.restoreStrand (s : State) (t : Strand) (c : CoreLoc) (st : StrandStatus) : State :=
  match t.saved with
  | none => s
  | some r =>
    let room := s.budRoom c
    let t := { restoreRegisters t r.live s.fresh with
               place := c, status := st, rsm := true, recipes := ((s.kernelOf t).map Kernel.recipes).getD t.recipes, saved := none, bud := Nat.min t.bud room, stop := none, byTransfer := false }
    let core := s.core c
    let clear := core.store.filter fun x => !r.live.ls.any fun l => decide (l.1 ≤ x.1) && decide (x.1 < l.1 + l.2)
    let s := s.setCore { core with l1 := [], store := writeBytes clear r.store }
    ((s.setStrand t).trimPool (coreHalf c) 144 48).bump
/-- A strand whose wait has its result goes on; one whose wait is held parks again. Once a member's result has frozen the group, the others' wait for the
thaw (R343). -/
def State.resumeWait (s : State) (id : StrandId) : State :=
  if ((s.group? id.grp).map Group.st) = some .frozen then s else
  match (s.strand? id).bind Strand.park with
  | some k => (match k.result with
    | some res => s.onStrand id fun s => State.waitEnds { s with opnd := none } res k.rels
    | none => s)
  | none => s

end Sys2Proof.Machine
end

