-- ==== Sys2Proof/Machine/Issue.lean ====
section
/-! DEFINITION. What an issue group needs before it issues (spec/02_encoding.md R28-R39, R41): the fetch of its line and its checks, the
registers its slots name, and the frame of one issue. -/

namespace Sys2Proof.Machine

/-! ### Payloads -/

/-- The payload of a slot instruction. -/
inductive Payload
  | n (f : FormN)
  | a (f : FormA)
  | i (f : FormI)
  | m (f : FormM)
  | v (f : FormV)
  | x (f : FormX)
  | c (f : FormC)
  | y (f : FormY)
  | b (f : FormB)
  | s (f : FormS)
  deriving DecidableEq, Repr

/-- The payload of an instruction; a step of another agent has none. -/
def payloadOf (i : Instr) : Option Payload :=
  match i with
  | .nop f => some (.n f)
  | .br f | .bri f | .call f | .calli f | .ret f | .loop f | .lexit f | .exit f | .trap f | .brk f | .prePoint f | .yield f => some (.b f)
  | .add f | .sub f | .mul f | .mulh f | .mulhs f | .div f | .divs f | .rem f | .rems f | .madd f | .and f | .or f | .xor f | .andn f
  | .orn f | .shl f | .shr f | .shra f | .ror f | .min f | .max f | .mins f | .maxs f | .clz f | .ctz f | .popc f | .brev f | .bswap f
  | .bfx f | .bfi f | .cmp f | .kop f | .sel f | .lea f | .addi f | .subImm f | .mulImm f | .mulhImm f | .mulhsImm f | .divImm f
  | .divsImm f | .remImm f | .remsImm f | .maddImm f | .andImm f | .orImm f | .xorImm f | .andnImm f | .ornImm f | .shlImm f | .shrImm f
  | .shraImm f | .rorImm f | .minImm f | .maxImm f | .minsImm f | .maxsImm f | .bfxImm f | .bfiImm f | .cmpi f | .leaPc f | .fadd f
  | .fsub f | .fmul f | .ffma f | .fdiv f | .fsqrt f | .fmin f | .fmax f | .fcmp f | .fcvt f | .fclass f | .fsgn f | .fget f | .fpeek f => some (.a f)
  | .movi f | .movh f => some (.i f)
  | .ld f | .lds f | .st f | .atom f | .cas f | .pref f | .vldg f | .vstg f | .seal f | .unseal f | .l1inv f | .l1invAll f | .ldl f
  | .stl f | .ldn f | .stn f | .vld f | .vst f | .fence f | .fenceXp f | .wack f | .seq f => some (.m f)
  | .cellInit f | .cellKill f | .cellQry f | .ctrAdd f | .ctrRd f | .ctrWge f | .barArr f | .barWt f | .barArw f | .barDrop f | .barAdj f
  | .lckTake f | .lckTry f | .lckGive f | .cndWait f | .cndSig f | .cndAll f | .qPut f | .qTake f | .qTryput f | .qTrytake f | .qJoin f
  | .qJoinGovernor f | .qClose f | .hypOpen f | .hypEnter f | .hypLeave f | .hypRsv f | .hypQry f => some (.y f)
  | .vadd f | .vsub f | .vmul f | .vfma f | .vfms f | .vmin f | .vmax f | .vabs f | .vneg f | .vrcp f | .vrsq f | .vsqrt f | .vexp2 f
  | .vlog2 f | .vtanh f | .viadd f | .visub f | .vimul f | .vand f | .vor f | .vxor f | .vshl f | .vshr f | .vshra f | .vcmp f | .vsel f
  | .mop f | .mpop f | .vmov f | .vbcast f | .vext f | .vperm f | .vshuf f | .vslide f | .vzip f | .vred f | .vscan f | .vdot f | .vcvt f
  | .vqnt f | .vdq f | .vlut f | .vmac f | .vclamp f | .rcpBind f | .rcpFree f | .rcpDrop f | .rcpAnch f | .rcpQry f => some (.v f)
  | .mma f | .mmaz f | .mzero f | .movc f | .movcv f | .mdesc f | .mgeo f | .lutld f | .mwait f | .mwt f => some (.x f)
  | .cpy f | .cpyc f | .cpym f | .cpyg f | .cpys f | .cpyr f | .cpyq f | .cpyk f => some (.c f)
  | .srd f | .swr f | .geo f | .clk f | .id f | .winRd f | .winWr f | .grpFrz f | .grpThaw f | .grpKill f | .tlbInv f => some (.s f)
  | .vectorCommandRun _ | .tileCommandStart _ | .tileCommandRetire _ | .copyJobStart _ | .copyChunk _ _ | .copyJobDone _
  | .resolveApply _ _ _ | .resolveComplete _ _ | .scrubPassEnd _ | .tlbInvSiteAck _ _ _ | .pageWalk _ _ _ | .homeRead _ | .homeWrite _
  | .storeAck _ | .loadReturn _ | .blockingResponse _ _ | .writebackDrain _ | .replicaDrop _ _ | .unsealComplete _ | .cellOperation _
  | .hotLineFill _ _ | .wake _ | .hqput _ _ _ _ | .hqsRead _ _ _ | .launchTake _ _ | .kernelLoad _ _ | .groupPlace _ | .launchEnd _ _
  | .quiescenceSweep _ _ | .replenishment _ _ | .overrun _ _ | .swap _ | .saveComplete _ | .graceExpiry _ | .saveRetry _
  | .faultRecordDelivery _ | .double _ | .create _ | .lock _ | .start _ | .stop _ | .release _ | .invalidCommand _ _ | .stopDrainComplete _
  | .scrubComplete _ | .partError _ _ | .registerWrite _ _ | .vbndWrite _ _ | .lockInterfaceRequest _ | .startInterfaceRequest _
  | .stopInterfaceRequest _ | .challenge _ _ | .getMeasurements _ | .sharedKeyInstall _ _ | .timeShareSwitch _ | .firmwareLoad _
  | .liveUpdate _ | .sretGo _ | .retirementDrainComplete _ | .grant _ _ _ | .thermalTrip _ | .thermalClear _ | .retentionSleep _
  | .sliceWake _ | .softError _ | .flitReplay _ _ | .train _ | .fencePort _ | .down _ | .signalDetected _ | .lanesTrained _ _
  | .portAuth _ _ _ _ | .frameReceive _ _ | .retrainComplete _ _ _ _ | .keyUpdate _ _ | .peerLost _ | .packetForward _
  | .millMergeForward _ | .cxlMemRead _ _ | .cxlMemWrite _ _ | .hostSnoop _ _ | .atomicProxy _ | .coldReset | .warmReset | .laneError _
  | .hbmMissReturn _ _ => none

/-! ### Issue classes and pairs (R33-R36) -/

inductive IssueClass | s | m | q | b | n
  deriving DecidableEq, Repr
/-- The issue class of a slot instruction (R35). -/
def issueClass (i : Instr) : IssueClass :=
  match payloadOf i with
  | some (.n _) => .s
  | some (.a _) => .s
  | some (.i _) => .s
  | some (.m _) => (match i with
    | .fence _ => .n
    | .fenceXp _ => .n
    | .wack _ => .n
    | .seq _ => .n
    | _ => .m)
  | some (.v _) => .q
  | some (.x _) => .q
  | some (.c _) => .q
  | some (.b _) => (match i with
    | .exit _ => .n
    | .trap _ => .n
    | .brk _ => .n
    | .prePoint _ => .n
    | .yield _ => .n
    | _ => .b)
  | _ => .n
/-- The dispatch queue of a class Q instruction: vector, tile, copy (R36, R165). -/
def queueOf (i : Instr) : Nat :=
  match payloadOf i with
  | some (.v _) => 0
  | some (.x _) => 1
  | _ => 2
/-- May two instructions stand in one pair (R36)? -/
def pairLegal (a b : Instr) : Bool :=
  match issueClass a, issueClass b with
  | .s, .n => false
  | .s, _ => true
  | .m, .s => true
  | .m, .q => true
  | .m, .b => true
  | .q, .s => true
  | .q, .m => true
  | .q, .q => queueOf a != queueOf b
  | .q, .b => true
  | _, _ => false

/-! ### The fetch line (R28-R31) -/

def lineWord (l : LineBits) : BitVec 32 := l.extractLsb' 0 32
def lineSlot (l : LineBits) (i : Nat) : SlotBits := l.extractLsb' (32 + 96 * i) 96
/-- XOR of the low w bits of a number. -/
def parityBit (w x : Nat) : Bool := popCount w x % 2 == 1
/-- Does line-word bit 16 + k hold the parity of what it covers (R29, R30)? -/
def parityGood (l : LineBits) (k : Nat) : Bool :=
  (lineWord l).getLsbD (16 + k) ==
    (if k < 15 then parityBit 32 (l.extractLsb' (32 + 32 * k) 32).toNat else parityBit 16 ((lineWord l).extractLsb' 0 16).toNat)
/-- The mismatches, as INFO of PARITY has them (R352). -/
def parityBad (l : LineBits) : BitVec 16 := regMask 16 fun k => !parityGood l k
/-- First slots of the pairs of a template (R33). -/
def pairTemplate (n : Nat) : Option (List Nat) :=
  match n with
  | 0 => some []
  | 1 => some [0]
  | 2 => some [1]
  | 3 => some [2]
  | 4 => some [3]
  | 5 => some [0, 2]
  | 6 => some [0, 3]
  | 7 => some [1, 3]
  | _ => none
/-- The pairs of a line whose word is legal (R31 step 3). -/
def linePairs (l : LineBits) : Option (List Nat) :=
  if (lineWord l).extractLsb' 10 6 = 0 then pairTemplate ((lineWord l).extractLsb' 5 5).toNat else none

/-! ### Registers of an instruction (R189, R355) -/

def pairOf (sz : Sz) (r : BitVec 6) : List (BitVec 6) := if sz = .q then [r, nextReg r] else [r]
/-- The g registers that an instruction reads. -/
def readsG (i : Instr) : List (BitVec 6) :=
  match payloadOf i with
  | some (.a f) => (match i with
    | .madd _ => [f.ga, f.gb, f.gd]
    | .maddImm _ => [f.ga, f.gd]
    | .bfi _ => [f.ga, f.gb, f.gd]
    | .bfiImm _ => [f.ga, f.gd]
    | .ffma _ => [f.ga, f.gb, f.gd]
    | _ => [f.ga, f.gb])
  | some (.i f) => (match i with
    | .movh _ => [f.gd]
    | _ => [])
  | some (.m f) => (match i with
    | .st _ => f.gb :: pairOf f.sz f.gt
    | .cas _ => f.gb :: (pairOf f.sz f.gt ++ pairOf f.sz f.gx)
    | .stl _ => f.gb :: pairOf f.sz f.gt
    | .stn _ => f.gb :: f.gx :: pairOf f.sz f.gt
    | .wack _ => [f.gt]
    | .vldg _ => [f.gb]
    | .vstg _ => [f.gb]
    | _ => [f.gb, f.gx])
  | some (.v f) => (match i with
    | .rcpBind _ => (List.range (f.imm.extractLsb' 4 3).toNat).map fun j => f.gs + BitVec.ofNat 6 j
    | _ => [f.gs])
  | some (.x f) => (match i with
    | .mgeo _ => [f.gl]
    | _ => [f.gl, f.gw, f.gc])
  | some (.c f) => (match i with
    | .cpyq _ => [f.gp]
    | .cpyk _ => [f.gp]
    | _ => [f.gs, f.gd, f.gn, f.gk, f.gp])
  | some (.y f) => (match i with
    | .cellInit _ => [f.gh, f.gv2]
    | .ctrAdd _ => [f.gh, f.gv1]
    | .ctrWge _ => [f.gh, f.gv1]
    | .barWt _ => [f.gh, f.gv1]
    | .barArw _ => [f.gh, f.gv1]
    | .barAdj _ => [f.gh, f.gv1]
    | .qPut _ => [f.gh, f.gv1, f.gv2, f.gl]
    | .qTryput _ => [f.gh, f.gv1, f.gv2, f.gl]
    | .qJoinGovernor _ => [f.gh, f.gv1, f.gv2, f.gl]
    | .hypEnter _ => [f.gv1]
    | .hypRsv _ => [f.gh, f.gv1]
    | .hypQry _ => [f.gv1]
    | _ => [f.gh, f.gl])
  | some (.b f) => [f.ga]
  | some (.s f) => (match i with
    | .swr _ => [f.gd]
    | .winWr _ => [f.gd, f.ga, f.gb]
    | _ => [f.ga, f.gb])
  | _ => []
/-- The g registers that its fields name. -/
def namesG (i : Instr) : List (BitVec 6) :=
  readsG i ++ (match payloadOf i with
  | some (.a f) => [f.gd]
  | some (.i f) => [f.gd]
  | some (.m f) => (match i with
    | .vld _ => []
    | .vst _ => []
    | .vldg _ => []
    | .vstg _ => []
    | _ => pairOf f.sz f.gt)
  | some (.x f) => [f.gc]
  | some (.c f) => [f.gd]
  | some (.y f) => [f.gv1, f.gv2, f.gst]
  | some (.b f) => [f.glk]
  | some (.s f) => [f.gd]
  | _ => [])
/-- The g registers that an instruction writes which can stand beside a load in a pair: none is a load itself (R36). -/
def writesG (i : Instr) : List (BitVec 6) :=
  (match payloadOf i with
  | some (.a f) => [f.gd]
  | some (.i f) => [f.gd]
  | some (.b f) => [f.glk]
  | some (.x f) => (match i with
    | .mgeo _ => [f.gc]
    | _ => [])
  | some (.c f) => (match i with
    | .cpyq _ => [f.gd]
    | _ => [])
  | _ => []).filter fun n => n != 0
/-- The v registers that an instruction reads, partly written ones included. -/
def readsV (i : Instr) : List Nat :=
  match i with
  | .vst f => [f.gt.toNat]
  | .vstg f => [f.gt.toNat, f.gx.toNat]
  | .vldg f => slotSources i ++ if f.me then [f.gt.toNat] else []
  | .vld f => if f.me then [f.gt.toNat] else []
  | i => match slotTarget.recipeForm i with
    | some (op, f) => vecSources op f
    | none => []
/-- The live-set index of a wait instruction (R67, R283). -/
def waitSet (i : Instr) : Option (BitVec 8) :=
  match i with
  | .ctrWge f | .barWt f | .barArw f | .lckTake f | .cndWait f | .qPut f | .qTake f => some f.ls
  | _ => none
def guardOf (i : Instr) : Guard :=
  match payloadOf i with
  | some (.n f) => f.grd
  | some (.a f) => f.grd
  | some (.i f) => f.grd
  | some (.m f) => f.grd
  | some (.v f) => f.grd
  | some (.x f) => f.grd
  | some (.c f) => f.grd
  | some (.y f) => f.grd
  | some (.b f) => f.grd
  | some (.s f) => f.grd
  | none => { inv := false, k := 0 }

/-- A load in flight that will write a register. -/
def Request.fills (r : Request) (n : BitVec 6) : Bool := match r.reply with
  | .regs gt size _ => (gt == n || (size == 16 && nextReg gt == n)) && !r.skip.contains n
  | _ => false
/-- The uncorrectable load whose register an instruction is the first to read (R189, R355). -/
def Strand.spoiledRead (t : Strand) (i : Instr) : Option FaultInfo :=
  match t.spoiled.find? fun e => e.1 != 0 && (readsG i).contains e.1 with
  | some e => some (spoiledFault e)
  | none => (t.spoiledV.find? fun e => (readsV i).contains e.1).map fun e => spoiledFault (0, e.2)

/-- What stands before an instruction's own effect: a register whose load is out (R189), an uncorrectable load read (R355), a wait that a
pending pre-emption does not let issue (R347), unless it has issued and waits for its answer. A wait of an index that no live set has, which is also the
first reader of such a register, reports the load (assumption 79, DESIGN CHOICE: no rule orders the two faults). -/
def beforeIssue (i : Instr) (s : State) : Option State :=
  if guardHolds (guardOf i) s = false then none
  else if s.net.any (fun r => r.of s.cur.id && s.isEarlier r.id && (namesG i).any fun n => n != 0 && r.fills n) then some s.stall
  else match s.src.spoiledRead i with
    | some f => some (s.raise f)
    | none => match waitSet i with
      | some ls =>
        if s.preemptPending s.cur.id.grp ∧ ls.toNat < s.liveCount ∧ s.cur.blocked = none then some (s.stopAt (.wait ls) s.cur.pc) else none
      | none => none

/-! ### Time (R321) -/

/-- Cores that hold, in RUN or PARKED, a strand of a launch taken from a queue. -/
def State.coresCharged (s : State) (p : Part) (q : LaunchQueue) : Nat :=
  countWhere (fun t => decide (t.id.grp.cix = p.cix) && (t.status == .run || t.status == .parked) && !t.fmn
    && p.launches.any fun l => l.lid == t.id.grp.lid && decide (p.queueOf l = some q)) s.strands
def chargeQueue (s : State) (p : Part) (n : Nat) (q : LaunchQueue) : LaunchQueue :=
  if q.remain = BitVec.allOnes 64 then q
  else { q with remain := BitVec.ofNat 64 (q.remain.toNat - n * s.coresCharged p q) }
/-- n cycles pass: CLK counts, and queues of current parts are charged. -/
def State.advance (s : State) (n : Nat) : State :=
  { s with clk := s.clk + BitVec.ofNat 64 n
           parts := s.parts.map fun p => if p.current then { p with queues := p.queues.map (chargeQueue s p n) } else p }

/-! ### One issue group -/

/-- The meanings that an issue group runs. -/
abbrev Run := Instr → State → Host.Outcome State Fault Refusal

/-- After a group of the indices lo to hi: where the strand stands (R32, R109). -/
def finishGroup (lo hi : Nat) (s : State) : State :=
  match s.last with
  | .seq =>
    let r := loopReturn lo hi (hi + 1) s.cur.loops
    { s with cur := { s.cur with pc := pcOf r.1, loops := r.2, byTransfer := false, blocked := none, answered := none } }
  | .skip index =>
    let r := loopReturn lo hi index s.cur.loops
    { s with cur := { s.cur with pc := pcOf r.1, loops := r.2, byTransfer := false, blocked := none, answered := none } }
  | .transfer pc => { s with cur := { s.cur with pc := pc, byTransfer := true, blocked := none, answered := none } }
  | _ => s

/-- An instruction that issues alone. -/
def issueSingle (run : Run) (i : Instr) (s : State) : Host.Outcome State Fault Refusal :=
  match beforeIssue i s with
  | some t => .next t
  | none => match run i s with
    | .next t => .next (finishGroup s.here s.here t)
    | o => o

/-- The pair that the strand is to issue: its operands are what they are now, and what it asks for from here on is its own. -/
def State.beginPair (s : State) : State := { s with opnd := some { before := s.cur, since := s.fresh } }
/-- What a strand has asked for with the instruction of a PC. -/
def Strand.blockedAt (t : Strand) (pc : BitVec 56) : Option Blocked := (t.blocked.toList ++ t.answered.toList).find? fun b => b.pc == pc
/-- A state of the pair of s, standing at the slot of a PC. -/
def State.atSlot (s : State) (pc : BitVec 56) (t : State) : State := { t with cur := { t.cur with pc := pc, blocked := s.cur.blockedAt pc } }
/-- One slot of a pair. -/
def runSlot (run : Run) (i : Instr) (s : State) : Host.Outcome State Fault Refusal :=
  match beforeIssue i s with
  | some t => .next t
  | none => run i s
/-- A pair that stalls leaves no effect but what its slots have asked of their homes, and places in the vector queue. -/
def stallPair (s t : State) : State :=
  let others := (s.cur.blocked.toList ++ s.cur.answered.toList).filter fun b => t.cur.blocked.map Blocked.pc != some b.pc
  let all := t.cur.blocked.toList ++ others
  { t with cur := { s.cur with blocked := all.head?, answered := all[1]?, vq := t.cur.vq }, opnd := none, last := .stall }
def isFaulted : Completion → Bool
  | .faulted _ => true
  | _ => false
/-- A fault of the second slot leaves no effect of the first (R355). -/
def faultPair (s t : State) (f : FaultInfo) : State :=
  if isFaulted t.last then { t with opnd := none } else { s.raise f with opnd := none }
/-- A second slot that stalls: alone, it faults, or stalls and has asked; one that only its first slot holds up leaves nothing. -/
def stallSecond (s t : State) : State :=
  match t.last with
  | .faulted _ => { t with opnd := none }
  | .stall => stallPair s t
  | _ => { s with last := .stall }
/-- Registers that the second slot has written stay as they are when the load of the first returns (R37). -/
def State.keepFrom (s : State) (since : Nat) (written : List (BitVec 6)) : State :=
  { s with net := s.net.map fun r => if since ≤ r.id ∧ r.of s.cur.id then { r with skip := written } else r }

/-- Two instructions that issue together (R37, R355): each reads its operands as they were before the pair. While the first waits for its response, whose
fault would be the one reported, a fault of the second is none yet. -/
def issuePair (run : Run) (a b : Instr) (s : State) : Host.Outcome State Fault Refusal :=
  let s0 := s.beginPair
  let pc := pcNext s.cur.pc
  match runSlot run a (s.atSlot s.cur.pc s0) with
  | .fault r => .fault r
  | .refused r => .refused r
  | .next t1 =>
    match t1.last with
    | .faulted _ => .next { t1 with opnd := none }
    | .seq =>
      (match runSlot run b (s.atSlot pc t1) with
      | .fault r => .fault r
      | .refused r => .refused r
      | .next t2 => match t2.last with
        | .faulted f => (match runSlot run b (s.atSlot pc s0) with
          | .next t3 => .next (faultPair (s.atSlot pc s0) t3 f)
          | o => o)
        | .stall => (match runSlot run b (s.atSlot pc s0) with
          | .next t3 => .next (stallSecond s t3)
          | o => o)
        | _ =>
          let t2 := t2.keepFrom s.fresh (if guardHolds (guardOf b) s then writesG b else [])
          .next { finishGroup s.here (s.here + 1) t2 with opnd := none })
    | _ =>
      if t1.cur.blocked.isSome ∧ s.cur.blockedAt s.cur.pc = none then
        match runSlot run b (s.atSlot pc s0) with
        | .next t2 => (match t2.last with
          | .stall => .next (stallPair s t2)
          | _ => .next (stallPair s t1))
        | o => o
      else .next (stallPair s t1)

/-- ILLEGAL_OP of a pair (R36): PAIR set, PC and RPC the first slot. -/
def State.raiseIllegalPair (s : State) : State := { s.beginPair.raiseCode .illegalOp with opnd := none }

/-- The issue group that the PC names in a line (R31 steps 2 to 5, R34). An error of parity is one that the scrivener takes (R439). A fault of steps 2 to 4 at the first slot of a pair is the slot's, whose
pair is not yet known to be one: PAIR is clear, RPC the PC (assumption 65, DEDUCED); and so it is in step 1. -/
def issueLine (run : Run) (l : LineBits) (s : State) : Host.Outcome State Fault Refusal :=
  let slot := s.cur.pc.toNat % 8
  if parityBad l ≠ 0 then .next ((s.scrivener s.cur.place.site 9 0 s.cix 0 (locWord s.mid s.cur.place) (lineAddrOf s.cur.pc) 0).raise { code := .parity, addr := lineAddrOf s.cur.pc, info := (parityBad l).setWidth 64 })
  else match linePairs l with
    | none => .next (s.raiseCode .illegalOp)
    | some pairs =>
      if s.cur.byTransfer ∧ (lineWord l).getLsbD slot = false then
        .next (s.raise { code := .cfi, addr := s.cur.pc.setWidth 64, info := 0 })
      else if pairs.contains slot then
        match decodeSlot (lineSlot l slot), decodeSlot (lineSlot l (slot + 1)) with
        | .ok a, .ok b => if pairLegal a b then issuePair run a b s else .next s.raiseIllegalPair
        | _, _ => .next s.raiseIllegalPair
      else match decodeSlot (lineSlot l slot) with
        | .ok i => issueSingle run i s
        | .error _ => .next (s.raiseCode .illegalOp)
where
  lineAddrOf (pc : BitVec 56) : Word64 := BitVec.ofNat 64 (pc.toNat / 64 * 64)

/-- A code line of another module: asked for once, then kept while the strand stays in it. -/
def fetchPeer (run : Run) (t : Target) (s : State) : Host.Outcome State Fault Refusal :=
  let here := match s.cur.line with
    | some (m, pa, gen, l) => if m = t.mid ∧ pa = t.pa ∧ gen = t.leaf.sgen then some l else none
    | none => none
  match here with
  | some (some l) => issueLine run l s
  | some none => .next s.stall
  | none =>
    if s.peerLost t.mid then .next (s.refusePerm t.va .execute)
    else .next { s with cur := { s.cur with line := some (t.mid, t.pa, t.leaf.sgen, none) }
                        out := s.out ++ [.request t.mid (.strand s.cur.id) (s.packet t.mid 0 t.pa s.cur.hcur (some t.leaf) (.read 64))]
                        last := .stall, fresh := s.fresh + 1 }

/-- A blocked instruction keeps the line it was begun from: it has issued, and what becomes of its page is no matter to it. -/
def keepLine (mid pa : Nat) (gen : BitVec 32) (l : LineBits) (o : Host.Outcome State Fault Refusal) : Host.Outcome State Fault Refusal :=
  match o with
  | .next u => .next (if u.cur.blocked.isSome then { u with cur := { u.cur with line := some (mid, pa, gen, some l) } } else u)
  | o => o

/-- The issuing strand begins the slot its PC names (R31 step 1). -/
def issueFetch (run : Run) (s : State) : Host.Outcome State Fault Refusal :=
  let va : Word64 := BitVec.ofNat 64 (s.cur.pc.toNat / 64 * 64)
  match s.translate s.cix (coreCluster s.cur.place) va .execute with
  | .error f => .next (s.raise f)
  | .ok t =>
    if t.leaf.st ≠ .sealed then .next (s.raise (faultAt .pagePerm va Kind.execute.code))
    else if t.mid ≠ s.mid then fetchPeer run t s
    else if s.isBad t.pa then .next (s.badAccess t .execute)
    else match s.part? s.cix with
      | none => .next s
      | some p =>
        let l : LineBits := BitVec.ofNat 512 (s.homeBytes p t.leaf.hsh t.pa 64 (if t.leaf.hyp then s.cur.hcur else 0))
        keepLine t.mid t.pa t.leaf.sgen l (issueLine run l s)

/-- The issuing strand goes on with its blocked instruction, or begins the slot its PC names. An instruction that merely stalls (FGET, a full queue, a
scoreboard) has not begun: it begins its slot anew at each attempt, with the fetch and every check (assumption 57, DESIGN CHOICE). -/
def issueHere (run : Run) (s : State) : Host.Outcome State Fault Refusal :=
  match s.cur.blocked, s.cur.line with
  | some _, some (mid, pa, gen, some l) => keepLine mid pa gen l (issueLine run l s)
  | _, _ => issueFetch run s

/-- A strand may issue: it runs, is not stopped under a pre-emption, and its part's agents let it. -/
def Strand.issues (t : Strand) : Bool := t.status == .run && t.stop.isNone

/-- The vector unit does not wait for an instruction that stalls for anything but what it reads its sources from (R97, R104). -/
def State.ungrant (s : State) : State :=
  if s.net.any fun r => r.of s.cur.id && r.reply == .replay && !r.done then s
  else { s with cur := { s.cur with vq := s.cur.vq.map fun c => if c.granted then { c with action := .held false } else c } }
/-- After an attempt to issue: what an instruction asked for is gone once it has issued or ended, and a strand whose group has been frozen meanwhile
freezes at this boundary (R354). -/
def State.afterAttempt (s : State) : State :=
  let s := if s.last = .stall then s.ungrant else s.dropReaderChunks
  if ((s.group? s.cur.id.grp).map Group.st) = some .frozen then { s with cur := freezeStrand s.cur.id.grp s.cur } else s
/-- A strand that ran when its group froze, in the cycle of the freeze: a fault of the instruction that it began in that cycle is its own, and sends a
record too; the group is frozen already (R354). -/
def sameCycle (run : Run) (s : State) : Option State :=
  (s.group? s.cur.id.grp).bind fun g =>
    if g.st = .frozen ∧ s.cur.status = .frozen ∧ g.running.contains s.cur.id.sidx ∧ s.clk.toNat = g.frozenAt + 1 then
      let s' := s.updGroup g.id fun g => { g with running := g.running.filter fun n => n != s.cur.id.sidx }
      match issueHere run { s' with cur := { s'.cur with status := .run }, clk := BitVec.ofNat 64 g.frozenAt } with
      | .next t => (match t.last with
        | .faulted _ => some { t with clk := s.clk }
        | _ => none)
      | _ => none
    else none
/-- A strand is made the issuing one and issues one group; a cycle passes. -/
def issueStrand (run : Run) (id : StrandId) (s : State) : Host.Outcome State Fault Refusal :=
  let s := { s.focus id with opnd := none }
  if s.cur.id ≠ id then .next (s.advance 1)
  else if s.cur.issues = false then .next ((sameCycle run s).getD (s.advance 1))
  else match issueHere run s with
    | .next t => .next (t.afterAttempt.advance 1)
    | o => o

end Sys2Proof.Machine
end

