-- ==== Sys2Proof/Machine/Vector.lean ====
section
/-! DEFINITION. Vector commands at issue and in the vector unit (spec/07_vector.md R140-R142), vector memory commands (spec/09_line.md
R204, R205), and the recipe instructions (spec/23_recipe.md R403-R407). -/

namespace Sys2Proof.Machine

/-! ### Destinations (R99, R100, R140) -/

def State.anchorFault (s : State) (v : Nat) : State := s.raise { code := .rcpAnchor, addr := 0, info := BitVec.ofNat 64 v }
/-- A v register becomes held by a write: its binding goes. Its entry of the pool is the unit's matter (R403). -/
def State.holdReg (s : State) (v : Nat) : State :=
  let t := s.cur.unbind v s.fresh
  { s with cur := t.setVr v { t.vr v with held := true } }
/-- The checks of destinations, n registers being held so far: the first that fails. -/
def State.destFault (s : State) : Nat → List Nat → Option State
  | _, [] => none
  | n, v :: rest =>
    let r := s.cur.vr v
    if r.anchored ∨ s.cur.pinned v then some (s.anchorFault v)
    else if r.held = false ∧ s.cur.bud ≤ n then some (s.raise { code := .regBudget, addr := 0, info := BitVec.ofNat 64 (v + s.cur.bud * 256) })
    else s.destFault (if r.held then n else n + 1) rest
/-- Registers that an instruction makes held, all checked first. -/
def State.holdDests (s : State) (vs : List Nat) (k : State → State) : State :=
  match s.destFault s.cur.heldCount vs with
  | some t => t
  | none => k (vs.foldl State.holdReg s)
/-- The destinations of an instruction: what an error or a restore left there is to be rewritten. -/
def State.takeDests (s : State) (vs : List Nat) (k : State → State) : State :=
  s.holdDests vs fun s => k { s with cur := { s.cur with spoiledV := s.cur.spoiledV.filter fun e => !vs.contains e.1
                                                         hollow := s.cur.hollow.filter fun v => !vs.contains v } }
def State.takeDest (s : State) (v : Nat) (k : State → State) : State := s.takeDests [v] k

/-! ### Effect of a computation -/

/-- What a command reads of a strand: its registers when it starts, its captures, and bound values read at issue. -/
def vecInputs (t : Strand) (f : FormV) (got : List (Nat × VecBits)) (scalar luta lutb : Word64) : VecIn :=
  { vd := sourceValue t got f.vd.toNat, va := sourceValue t got f.va.toNat, vb := sourceValue t got f.vb.toNat, msk := t.m' f.msk.toNat
    md := t.m' f.vd.toNat, ma := t.m' f.va.toNat, mb := t.m' f.vb.toNat, scalar := scalar, luta := luta, lutb := lutb }
/-- What it leaves. -/
def Strand.takeOut (t : Strand) (f : FormV) (stamp : Nat) (o : VecOut) : Strand :=
  let t := match o.vd with
    | some x => t.setV f.vd.toNat x
    | none => t
  let t := match o.vb with
    | some x => t.setV f.vb.toNat x
    | none => t
  let t := match o.md with
    | some x => t.setM f.vd.toNat x
    | none => t
  let t := match o.fd with
    | some x => t.deliver f.fd.toNat stamp x
    | none => t
  { t with vflags := t.vflags ||| o.flags }
/-! ### VLD, VST in the unit (R204) -/

/-- Bytes of a register and of the local store mixed under a byte mask. -/
def mixBytes (mask : LineBits) (me : Bool) (new old : Nat) : VecBits :=
  BitVec.ofNat 4096 (packLanes 8 (fun i => laneOf 8 (if !me || mask.getLsbD i then new else old) i) 512)
def runVld (t : Strand) (f : FormM) (addr : Nat) (old : VecBits) (store : List Host.Cell) : Strand :=
  t.setV f.gt.toNat (mixBytes (t.m' f.msk.toNat) f.me (readNat store addr 512) old.toNat)
def runVst (t : Strand) (f : FormM) (addr : Nat) (x : VecBits) (store : List Host.Cell) : List Host.Cell :=
  writeNat store addr (mixBytes (t.m' f.msk.toNat) f.me x.toNat (readNat store addr 512)).toNat 512

/-! ### VLDG, VSTG in the unit (R205) -/

/-- A chunk of 16 bytes put into a register. -/
def Strand.putChunk (t : Strand) (v j x : Nat) : Strand :=
  t.setV v (spliceBytes (t.v' v) (16 * j) ((List.range 16).map fun i => x / 256 ^ i % 256))
/-- The chunks of a VLDG sent toward their homes; one that the L1 serves is there at once. -/
def sendGather (f : FormM) (c : VecCommand) (s : State) : List (Nat × Target) → List Nat → State × List Nat
  | [], out => (s, out)
  | (j, t) :: rest, out =>
    match s.l1FindAs c.hyp t with
    | some l =>
      let r := s.serveCopy l t 16 c.hyp c.view
      sendGather f c { r.1 with cur := r.1.cur.putChunk f.gt.toNat j r.2 } rest out
    | none => sendGather f c (s.sendAs c.hyp c.view [] t (.read 16) (.chunk c.stamp j) none (loadAccess t 16)) rest (out ++ [j])
/-- The chunks of a VSTG sent in ascending order, under the HCUR captured (R381, R397). -/
def sendScatter (c : VecCommand) (x : VecBits) (tag : BitVec 16) (s : State) : List (Nat × Target) → State
  | [] => s
  | (j, t) :: rest =>
    let d := x.extractLsb' (128 * j) 128
    sendScatter c x tag ((s.l1Store t c.hyp 16 d.toNat).sendAs c.hyp c.view c.rels t (.write 16 d) .none (some tag) (.write 16 d)) rest

/-! ### Recipe commands in the unit (R405-R408) -/

/-- A register released by the command of a stamp: it reads zero until written, and its entry is freed, once the unit has come to it. -/
def Strand.releaseReg (t : Strand) (v stamp : Nat) : Strand :=
  let t := t.unbind v stamp
  { t.setVr v { t.vr v with held := false, anchored := false, binding := none } with hollow := t.hollow.filter fun u => u != v }
/-- The unit runs a command that releases a register: its entry is freed. -/
def Strand.freeEntry (t : Strand) (stamp v : Nat) : Strand := (t.replaced v stamp).setEntry v false
/-- The bind evaluation (R405, R408), the register's earlier entry being freed: a fault leaves the binding DROPPED; whether it is over. -/
def State.bindNow (s : State) (v : Nat) (b : Binding) : State × Bool :=
  match s.runBinding 3 b with
  | (s, .wait) => (s, false)
  | (s, .ok x fl page) =>
    let s := s.dropReplayChunks.keepReplayed v { b with page := page } x
    ({ s with cur := { s.cur with vflags := s.cur.vflags ||| fl } }, true)
  | (s, .stale _ _) => (s.dropReplayChunks, true)
  | (s, .fault _ _ page _) => ({ s.dropReplayChunks with cur := s.cur.updBinding v b.bid fun c => { c with page := page } }, true)
/-- The part of RCP.QRY's word that the unit adds: the state and the page of the binding it tells of (R407). -/
def bindingWord (b : Binding) : Word64 :=
  BitVec.ofNat 64 (((b.page.map fun p => p.2.toNat).getD 0) * 2 ^ 32 + (if b.page.isSome then 2 ^ 23 else 0) + (match b.st with
    | .resident => 1
    | .dropped => 2
    | .stale => 4))
def queryResult (t : Strand) (word : Word64) (v : Nat) (bid : Option Nat) : Word64 :=
  match bid with
  | none => word
  | some n => match (t.vr v).binding.toList.find? (fun b => b.bid == n) with
    | some b => word ||| bindingWord b
    | none => match t.past.find? fun p => p.2.2.bid == n with
      | some p => word ||| bindingWord p.2.2
      | none => word

/-! ### A command runs (R104, R142) -/

/-- The strand's next command starts; but for a VLDG that waits for its chunks, a bind evaluation that does, and the place of an instruction that
reads a bound source, it completes. A place whose strand does not stand at its instruction any more goes. -/
def runHead (s : State) : State := match s.cur.vq with
  | [] => s
  | c :: rest =>
    let pop (s : State) : State := { s with cur := { s.cur with vq := rest } }
    match c.action with
    | .compute op f =>
      let s := (vecDests op f).foldl (State.claim · c.stamp ·) s
      pop { s with cur := s.cur.takeOut f c.stamp (computeVector op f (vecInputs s.cur f c.got c.scalar c.luta c.lutb)) }
    | .load f a =>
      let s := s.claim c.stamp f.gt.toNat
      pop { s with cur := runVld s.cur f a (sourceValue s.cur c.got f.gt.toNat) s.curCore.store }
    | .store f a =>
      let k := s.curCore
      pop (s.setCore { k with store := runVst s.cur f a (sourceValue s.cur c.got f.gt.toNat) k.store })
    | .scatter f ts tag =>
      let s := sendScatter c (sourceValue s.cur c.got f.gt.toNat) tag s ts
      pop (if ts.isEmpty then { s with cur := { s.cur with unacked := s.cur.unacked.filter fun u => u != tag } } else s)
    | .gather f ts =>
      let s := s.claim c.stamp f.gt.toNat
      let s := { s with cur := s.cur.setV f.gt.toNat (sourceValue s.cur c.got f.gt.toNat) }
      let r := sendGather f c s ts []
      if r.2.isEmpty then pop r.1
      else { r.1 with cur := { r.1.cur with vq := { c with waiting := some r.2 } :: rest } }
    | .held _ =>
      if s.cur.status = .run ∧ s.cur.stop = none ∧ s.cur.pc = c.pc then
        { s with cur := { s.cur with vq := { c with action := .held true } :: rest } }
      else pop s
    | .bind v b =>
      let r := State.bindNow { s with cur := s.cur.freeEntry c.stamp v } v b
      if r.2 then pop r.1 else r.1
    | .zero v => pop { s with cur := (s.cur.freeEntry c.stamp v).setV v 0 }
    | .drop v bid => pop (match s.cur.bindings.find? fun x => x.2.bid == bid with
      | some x => if x.2.st = .resident then { s with cur := s.cur.dropEntry v x.2 } else s
      | none => s)
    | .anchor v => pop (s.claim c.stamp v)
    | .query fd word v bid => pop { s with cur := s.cur.deliver fd c.stamp (queryResult s.cur word v bid) }

/-! ### At issue (R140, R141) -/

/-- The PC of the issue group: the place in the queue of its instructions that read bound sources. -/
def State.groupPc (s : State) : BitVec 56 := s.src.pc
def VecCommand.holdsAt (c : VecCommand) (pc : BitVec 56) : Bool := match c.action with
  | .held _ => c.pc == pc
  | _ => false
/-- A command with the captures of the issuing strand. -/
def State.vecCommand (s : State) (a : VecAction) (ranges : List Range) (scalar : Word64) (got : List (Nat × VecBits)) : VecCommand :=
  { stamp := s.fresh, action := a, scalar := scalar, luta := s.src.luta, lutb := s.src.lutb, hyp := s.cur.hcur, pc := s.groupPc, ranges := ranges
    got := got, view := s.cur.view, rels := s.storeRels none, waiting := none }
/-- A vector command enqueued with its captures. -/
def State.enqueueVec (s : State) (a : VecAction) (ranges : List Range) (scalar : Word64) : State :=
  ({ s with cur := { s.cur with vq := s.cur.vq ++ [s.vecCommand a ranges scalar []] }, fresh := s.fresh + 1 } : State).done
/-- The register whose binding or value a recipe instruction takes away. -/
def VecAction.unbinds : VecAction → Option Nat
  | .bind v _ => some v
  | .zero v => some v
  | .drop v _ => some v
  | _ => none
/-- The register that a store's command reads when it starts. -/
def VecAction.stored : VecAction → Option Nat
  | .store f _ => some f.gt.toNat
  | .scatter f _ _ => some f.gt.toNat
  | _ => none
/-- A command put into the queue: at its end, but before a recipe instruction of its own group that would take away the register it stores, which both
slots read as it was before the group (R37). -/
def State.queued (s : State) (vq : List VecCommand) (c : VecCommand) : List VecCommand :=
  let own := vq.filter fun x => !s.isEarlier x.stamp
  if own.any fun x => x.action.unbinds.isSome && x.action.unbinds == c.action.stored then (vq.filter fun x => s.isEarlier x.stamp) ++ c :: own
  else vq ++ [c]
/-- The instruction's place in the queue given up for its command: with nothing before it, that one runs as the instruction issues. -/
def State.submitVec (s : State) (a : VecAction) (ranges : List Range) (scalar : Word64) (got : List (Nat × VecBits)) : State :=
  let held := s.cur.vq.any fun c => c.holdsAt s.groupPc
  let vq := s.cur.vq.filter fun c => !c.holdsAt s.groupPc
  let t : State := { s with cur := { s.cur with vq := s.queued vq (s.vecCommand a ranges scalar got) }, fresh := s.fresh + 1 }
  (if held ∧ vq = [] then runHead t else t).done
/-- An instruction with a recipe-bound source takes a place in the queue, and holds its strand until the unit has come to it and lets it read its
sources. -/
def State.withUnit (s : State) (ranges : List Range) (k : State → State) : State :=
  match s.src.vq.find? fun c => c.holdsAt s.groupPc with
  | some c => if c.granted then k s else s.stall
  | none => if 16 ≤ s.cur.vq.length then s.stall else (s.enqueueVec (.held false) ranges 0).stall
/-- Is a source recipe-bound, as the group finds it (R37)? -/
def State.boundSource (s : State) (v : Nat) : Bool := (s.src.vr v).binding.isSome
/-- The sources of a vector command: read through the unit when one of them is bound. -/
def State.withSources (s : State) (bound : Bool) (ranges : List Range) (vs : List Nat) (k : State → List (Nat × VecBits) → State) : State :=
  if bound then s.withUnit ranges fun s => s.readSources vs [] k
  else if 16 ≤ s.cur.vq.length then s.stall else k s []

/-- A vector command (R140, R141). -/
def vecInstr (op : VecOp) (f : FormV) (s : State) : Host.Outcome State Fault Refusal := issue f.grd s fun s =>
  let scalar := s.rdG f.gs
  let bound := (vecSources op f).any s.boundSource
  if usesFd op ∧ s.cur.fBusy f.fd.toNat then s.stall
  else s.withSources bound [] (vecSources op f) fun s got =>
    s.takeDests (vecDests op f) fun s =>
      let s := if usesFd op then { s with cur := s.cur.addProducer f.fd.toNat s.fresh } else s
      s.submitVec (.compute op f) [] scalar got

/-- VADD (R144). -/
def execVadd (f : FormV) (s : State) : Host.Outcome State Fault Refusal := vecInstr .vadd f s
/-- VSUB (R144). -/
def execVsub (f : FormV) (s : State) : Host.Outcome State Fault Refusal := vecInstr .vsub f s
/-- VMUL (R144). -/
def execVmul (f : FormV) (s : State) : Host.Outcome State Fault Refusal := vecInstr .vmul f s
/-- VFMA (R144). -/
def execVfma (f : FormV) (s : State) : Host.Outcome State Fault Refusal := vecInstr .vfma f s
/-- VFMS (R144). -/
def execVfms (f : FormV) (s : State) : Host.Outcome State Fault Refusal := vecInstr .vfms f s
/-- VMIN (R144). -/
def execVmin (f : FormV) (s : State) : Host.Outcome State Fault Refusal := vecInstr .vmin f s
/-- VMAX (R144). -/
def execVmax (f : FormV) (s : State) : Host.Outcome State Fault Refusal := vecInstr .vmax f s
/-- VABS (R144). -/
def execVabs (f : FormV) (s : State) : Host.Outcome State Fault Refusal := vecInstr .vabs f s
/-- VNEG (R144). -/
def execVneg (f : FormV) (s : State) : Host.Outcome State Fault Refusal := vecInstr .vneg f s
/-- VRCP (R145). -/
def execVrcp (f : FormV) (s : State) : Host.Outcome State Fault Refusal := vecInstr .vrcp f s
/-- VRSQ (R145). -/
def execVrsq (f : FormV) (s : State) : Host.Outcome State Fault Refusal := vecInstr .vrsq f s
/-- VSQRT (R145). -/
def execVsqrt (f : FormV) (s : State) : Host.Outcome State Fault Refusal := vecInstr .vsqrt f s
/-- VEXP2 (R145). -/
def execVexp2 (f : FormV) (s : State) : Host.Outcome State Fault Refusal := vecInstr .vexp2 f s
/-- VLOG2 (R145). -/
def execVlog2 (f : FormV) (s : State) : Host.Outcome State Fault Refusal := vecInstr .vlog2 f s
/-- VTANH (R145). -/
def execVtanh (f : FormV) (s : State) : Host.Outcome State Fault Refusal := vecInstr .vtanh f s
/-- VIADD (R146). -/
def execViadd (f : FormV) (s : State) : Host.Outcome State Fault Refusal := vecInstr .viadd f s
/-- VISUB (R146). -/
def execVisub (f : FormV) (s : State) : Host.Outcome State Fault Refusal := vecInstr .visub f s
/-- VIMUL (R146). -/
def execVimul (f : FormV) (s : State) : Host.Outcome State Fault Refusal := vecInstr .vimul f s
/-- VAND (R146). -/
def execVand (f : FormV) (s : State) : Host.Outcome State Fault Refusal := vecInstr .vand f s
/-- VOR (R146). -/
def execVor (f : FormV) (s : State) : Host.Outcome State Fault Refusal := vecInstr .vor f s
/-- VXOR (R146). -/
def execVxor (f : FormV) (s : State) : Host.Outcome State Fault Refusal := vecInstr .vxor f s
/-- VSHL (R146). -/
def execVshl (f : FormV) (s : State) : Host.Outcome State Fault Refusal := vecInstr .vshl f s
/-- VSHR (R146). -/
def execVshr (f : FormV) (s : State) : Host.Outcome State Fault Refusal := vecInstr .vshr f s
/-- VSHRA (R146). -/
def execVshra (f : FormV) (s : State) : Host.Outcome State Fault Refusal := vecInstr .vshra f s
/-- VCMP (R147). -/
def execVcmp (f : FormV) (s : State) : Host.Outcome State Fault Refusal := vecInstr .vcmp f s
/-- VSEL (R148). -/
def execVsel (f : FormV) (s : State) : Host.Outcome State Fault Refusal := vecInstr .vsel f s
/-- MOP (R148). -/
def execMop (f : FormV) (s : State) : Host.Outcome State Fault Refusal := vecInstr .mop f s
/-- MPOP (R148). -/
def execMpop (f : FormV) (s : State) : Host.Outcome State Fault Refusal := vecInstr .mpop f s
/-- VMOV (R149). -/
def execVmov (f : FormV) (s : State) : Host.Outcome State Fault Refusal := vecInstr .vmov f s
/-- VBCAST (R149). -/
def execVbcast (f : FormV) (s : State) : Host.Outcome State Fault Refusal := vecInstr .vbcast f s
/-- VEXT (R149). -/
def execVext (f : FormV) (s : State) : Host.Outcome State Fault Refusal := vecInstr .vext f s
/-- VPERM (R150). -/
def execVperm (f : FormV) (s : State) : Host.Outcome State Fault Refusal := vecInstr .vperm f s
/-- VSHUF (R150). -/
def execVshuf (f : FormV) (s : State) : Host.Outcome State Fault Refusal := vecInstr .vshuf f s
/-- VSLIDE (R150). -/
def execVslide (f : FormV) (s : State) : Host.Outcome State Fault Refusal := vecInstr .vslide f s
/-- VZIP (R150). -/
def execVzip (f : FormV) (s : State) : Host.Outcome State Fault Refusal := vecInstr .vzip f s
/-- VRED (R151). -/
def execVred (f : FormV) (s : State) : Host.Outcome State Fault Refusal := vecInstr .vred f s
/-- VSCAN (R152). -/
def execVscan (f : FormV) (s : State) : Host.Outcome State Fault Refusal := vecInstr .vscan f s
/-- VDOT (R153). -/
def execVdot (f : FormV) (s : State) : Host.Outcome State Fault Refusal := vecInstr .vdot f s
/-- VCVT (R154). -/
def execVcvt (f : FormV) (s : State) : Host.Outcome State Fault Refusal := vecInstr .vcvt f s
/-- VQNT (R155). -/
def execVqnt (f : FormV) (s : State) : Host.Outcome State Fault Refusal := vecInstr .vqnt f s
/-- VDQ (R156). -/
def execVdq (f : FormV) (s : State) : Host.Outcome State Fault Refusal := vecInstr .vdq f s
/-- VLUT (R157). -/
def execVlut (f : FormV) (s : State) : Host.Outcome State Fault Refusal := vecInstr .vlut f s
/-- VMAC (R158). -/
def execVmac (f : FormV) (s : State) : Host.Outcome State Fault Refusal := vecInstr .vmac f s
/-- VCLAMP (R159). -/
def execVclamp (f : FormV) (s : State) : Host.Outcome State Fault Refusal := vecInstr .vclamp f s

/-! ### VLD, VST (R204) -/

/-- Address checks of a 512-byte local-store access. -/
def State.vecStoreAccess (s : State) (f : FormM) (kind : Kind) (k : Nat → State) : State :=
  let a := s.globalVa f
  if a.toNat % 64 ≠ 0 then s.raise (faultAt .align a 0)
  else if s.storeLimit s.cur < a.toNat + 512 then s.raise (faultAt .pagePerm a kind.code)
  else k a.toNat
def execVld (f : FormM) (s : State) : Host.Outcome State Fault Refusal := issue f.grd s fun s =>
  s.vecStoreAccess f .read fun a =>
    let v := f.gt.toNat
    let ranges : List Range := [{ base := a, len := 512, write := false }]
    s.withSources (f.me && s.boundSource v) ranges [v] fun s got =>
      s.takeDest v fun s => s.submitVec (.load f a) ranges 0 got
def execVst (f : FormM) (s : State) : Host.Outcome State Fault Refusal := issue f.grd s fun s =>
  s.vecStoreAccess f .write fun a =>
    let v := f.gt.toNat
    let ranges : List Range := [{ base := a, len := 512, write := true }]
    s.withSources (s.boundSource v) ranges [v] fun s got => s.submitVec (.store f a) ranges 0 got

/-! ### VLDG, VSTG (R205) -/

/-- v and m registers that a queued command writes. -/
def VecCommand.dests (c : VecCommand) : List Nat := match c.action with
  | .compute op f => vecDests op f
  | .load f _ => [f.gt.toNat]
  | .gather f _ => [f.gt.toNat]
  | .zero v => [v]
  | _ => []
def VecCommand.maskDests (c : VecCommand) : List Nat := match c.action with
  | .compute op f => (vecMaskDest op f).toList
  | _ => []
/-- The checks of R198 on active chunks, from chunk 32 - n on. Where a restore has left the index undefined, so are the addresses, and a chunk whose
address passes no check faults nothing: it is left out (R410, R415). -/
def State.chunkTargets (s : State) (f : FormM) (m : LineBits) (base : Word64) (index : VecBits) (undefined_ : Bool) (kind : Kind) :
    Nat → List (Nat × Target) → (State → List (Nat × Target) → State) → State
  | 0, got, k => k s got
  | n + 1, got, k =>
    let j := 31 - n
    let next (s : State) (t : Target) : State :=
      if t.leaf.sync then s.raise (faultAt .type t.va (s.granule t.pa).tag.code)
      else s.chunkTargets f m base index undefined_ kind n (got ++ [(j, t)]) k
    if chunkActive f m j = false then s.chunkTargets f m base index undefined_ kind n got k
    else match s.accessChecks (chunkAddr base index j) 16 kind with
      | .ok t => if undefined_ ∧ (t.leaf.sync ∨ t.mid ≠ s.mid) then s.chunkTargets f m base index undefined_ kind n got k
                 else s.withFrame t kind fun s => next s t
      | .error none => s.stall
      | .error (some e) => if undefined_ then s.chunkTargets f m base index undefined_ kind n got k else s.raise e
/-- Issue waits for earlier commands that write the index register, or the mask that names the active chunks; the other slot of its pair is none of
them (R37). -/
def State.indexPending (s : State) (f : FormM) : Bool :=
  s.cur.vq.any fun c => s.isEarlier c.stamp && (c.dests.contains f.gx.toNat || (f.me && c.maskDests.contains f.msk.toNat))
/-- The chunks of a VLDG or VSTG that issues: its index and its mask are read as they were before the group. -/
def State.chunksOf (s : State) (f : FormM) (got : List (Nat × VecBits)) (kind : Kind) (k : State → List (Nat × Target) → State) : State :=
  s.chunkTargets f (s.src.m' f.msk.toNat) (s.globalVa f) (sourceValue s.src got f.gx.toNat) (s.src.hollow.contains f.gx.toNat) kind 32 [] k

def execVldg (f : FormM) (s : State) : Host.Outcome State Fault Refusal := issue f.grd s fun s =>
  let v := f.gt.toNat
  if s.indexPending f then s.stall
  else s.withSources (s.boundSource f.gx.toNat || (f.me && s.boundSource v)) [] (f.gx.toNat :: (if f.me then [v] else [])) fun s got =>
    s.chunksOf f got .read fun s ts => s.takeDest v fun s => s.submitVec (.gather f ts) [] 0 got
def execVstg (f : FormM) (s : State) : Host.Outcome State Fault Refusal := issue f.grd s fun s =>
  let v := f.gt.toNat
  if s.indexPending f then s.stall
  else s.withSources (s.boundSource f.gx.toNat || s.boundSource v) [] [f.gx.toNat, v] fun s got =>
    s.chunksOf f got .write fun s ts => s.takeTag fun tag s => s.submitVec (.scatter f ts tag) [] 0 got

/-! ### The vector unit (R104, R142) -/

/-- Earlier commands of the core's other queues whose footprints conflict (R230). -/
def State.footprintClear (s : State) (t : Strand) (stamp : Nat) (ranges : List Range) : Bool :=
  !((t.vq.filter fun c => decide (c.stamp < stamp)).any fun c => rangesConflict c.ranges ranges)
    && !((t.tq.filter fun c => decide (c.stamp < stamp)).any fun c => rangesConflict c.ranges ranges)
    && !(s.jobs.any fun j => j.live && decide (j.who = t.id) && decide (j.n < stamp) && rangesConflict j.ranges ranges)
/-- A strand's instruction has been let in to read its bound sources, and has not issued since: the unit is its own until it does (R104, R141). -/
def Strand.unitHeld (t : Strand) : Bool := match t.vq.head? with
  | some c => c.granted && t.status == .run && t.stop.isNone && t.pc == c.pc
  | none => false
/-- A bind evaluation waits for chunks of other modules. -/
def State.bindWaits (s : State) (t : Strand) (c : VecCommand) : Bool := c.binds && s.net.any fun r => r.of t.id && r.reply == .replay && !r.done
/-- Is the head of a strand's vector queue ready to start? A VLDG whose chunks are out is waiting, and so are a bind evaluation whose chunks are, and an
instruction that has been let in. -/
def State.vecReady (s : State) (t : Strand) : Bool := match t.vq.head? with
  | none => false
  | some c => c.waiting.isNone && s.footprintClear t c.stamp c.ranges && !t.unitHeld && !s.bindWaits t c
/-- The turns of a cluster's units, which the spec gives no start for: cores 0, 4 and 0 are served first (assumption 18, DESIGN CHOICE). -/
def State.turns' (s : State) (l : ClusterLoc) : Turns :=
  (s.turns.find? fun x => x.loc = l).getD { loc := l, vec0 := 3, vec1 := 7, copy := 7, place := 0, credit := 0 }
def State.setTurns (s : State) (x : Turns) : State :=
  { s with turns := if s.turns.any (fun y => decide (y.loc = x.loc)) then replaceFirst (fun y => decide (y.loc = x.loc)) x s.turns
                    else x :: s.turns }
/-- The first of n places after one, in rotation over lo to lo + n - 1, that a test accepts. -/
def inRotation (lo n last : Nat) (p : Nat → Bool) : Option Nat :=
  ((List.range n).map fun i => lo + (last + 1 - lo + i) % n).find? p
/-- The strand whose commands a core holds: one that stands there, or has ended there with commands left. -/
def State.commandsAt (s : State) (c : CoreLoc) (p : Strand → Bool) : Option Strand :=
  s.strands.find? fun t => decide (t.place = c) && (t.onCore || t.ended) && p t

/-- VECTOR_COMMAND_RUN: the unit serves the ready heads of its four cores in rotation. An instruction that it has let in has its turn: nothing else starts
before that one has read its sources, or has had to stall for something else (R97, R104). -/
def execVectorCommandRun (u : HalfLoc) (s : State) : Host.Outcome State Fault Refusal :=
  let l : ClusterLoc := { site := u.site, cluster := u.cluster }
  let x := s.turns' l
  let at_ (n : Nat) : Option Strand := s.commandsAt { site := u.site, cluster := u.cluster, core := n } fun t => s.vecReady t
  if 2 ≤ u.half ∨ (s.strands.any fun t => t.unitHeld && decide (coreHalf t.place = u)) then .next s else
  match inRotation (4 * u.half) 4 (if u.half = 0 then x.vec0 else x.vec1) fun n => (at_ n).isSome with
  | none => .next s
  | some n => match at_ n with
    | none => .next s
    | some t =>
      .next ((s.setTurns (if u.half = 0 then { x with vec0 := n } else { x with vec1 := n })).onStrand t.id runHead)

/-! ### Recipe instructions (R404-R407): what is known at issue changes at issue, in program order (R403) -/

/-- The breach of R402 that a body's sources make, if any: the offending register. -/
def bodyBreach (t : Strand) (v : Nat) (body : List Instr) : Option Nat :=
  let target := bodyTarget body
  let nests (i : Instr) (u : Nat) : Bool := match i with
    | .vmov f => !f.me && f.va.toNat == u && (match (t.vr u).binding with
      | some b => (bodySources (t.body b.recipe)).all fun w => (t.vr w).binding.isNone
      | none => false)
    | _ => false
  (body.zipIdx.map fun x => (slotSources x.1).filter fun u =>
      u != target && (u == v || !((t.vr u).anchored || (x.2 == 0 && nests x.1 u)))).flatten.head?
/-- The bound source of slot 0. -/
def bodyNested (t : Strand) (body : List Instr) : Option Nat := (bodySources body).find? fun u => (t.vr u).binding.isSome

/-- A recipe instruction enqueued; it stalls while the queue is full. -/
def State.enqueueRcp (s : State) (t : Strand) (a : VecAction) : State :=
  if 16 ≤ s.cur.vq.length then s.stall else ({ s with cur := t } : State).enqueueVec a [] 0
/-- RCP.BIND (R405). Where a binding that nothing has read yet ranks among those read least recently, the spec does not say: it counts as read when its
RCP.BIND issues, and again when its bind evaluation ends (assumption 74, DESIGN CHOICE). -/
def execRcpBind (f : FormV) (s : State) : Host.Outcome State Fault Refusal := issue f.grd s fun s =>
  let v := f.vd.toNat
  let n := (f.imm.extractLsb' 0 4).toNat
  let c := (f.imm.extractLsb' 4 3).toNat
  let body := s.cur.body n
  if body.isEmpty then s.raiseCode .illegalOp
  else if (s.cur.vr v).anchored ∨ s.cur.pinned v then s.anchorFault v
  else match bodyBreach s.cur v body with
    | some u => s.anchorFault u
    | none =>
      let b : Binding :=
        { recipe := n, capn := c, caps := (List.range 4).map fun j => if j < c then s.rdG (f.gs + BitVec.ofNat 6 j) else 0
          luta := s.src.luta, lutb := s.src.lutb, page := none, nested := bodyNested s.cur body, bid := s.fresh, st := .dropped, readAt := s.fresh }
      let t := s.cur.unbind v s.fresh
      s.enqueueRcp { t.setVr v { t.vr v with held := false, anchored := false, binding := some b } with hollow := t.hollow.filter fun u => u != v } (.bind v b)
def execRcpFree (f : FormV) (s : State) : Host.Outcome State Fault Refusal := issue f.grd s fun s =>
  let v := f.vd.toNat
  if s.cur.pinned v then s.anchorFault v else s.enqueueRcp (s.cur.releaseReg v s.fresh) (.zero v)
def execRcpDrop (f : FormV) (s : State) : Host.Outcome State Fault Refusal := issue f.grd s fun s =>
  let v := f.vd.toNat
  let r := s.cur.vr v
  if r.anchored then s.anchorFault v
  else match r.binding with
    | some b => s.enqueueRcp s.cur (.drop v b.bid)
    | none => s.enqueueRcp (s.cur.releaseReg v s.fresh) (.zero v)
/-- RCP.ANCH: what is pinned is refused although it is anchored (R403, R406). -/
def execRcpAnch (f : FormV) (s : State) : Host.Outcome State Fault Refusal := issue f.grd s fun s =>
  let v := f.vd.toNat
  let r := s.cur.vr v
  if r.binding.isSome ∨ s.cur.pinned v then s.anchorFault v
  else if r.anchored then s.enqueueRcp s.cur (.anchor v)
  else if 16 ≤ s.cur.vq.length then s.stall
  else s.holdDests [v] fun s => s.enqueueRcp (s.cur.setVr v { s.cur.vr v with anchored := true }) (.anchor v)

/-- The word of RCP.QRY as it is known at issue (R407). -/
def recipeWord (t : Strand) (v : Nat) : Word64 :=
  let r := t.vr v
  let flags := (if r.held then 32 else 0) + (if t.pinned v then 16 else 0) + (if r.anchored then 8 else 0)
  match r.binding with
  | none => BitVec.ofNat 64 flags
  | some b => BitVec.ofNat 64 ((match b.nested with
        | some u => 2 ^ 22 + u * 2 ^ 16
        | none => 0)
      + b.capn * 2 ^ 12 + b.recipe * 2 ^ 8 + flags)
def execRcpQry (f : FormV) (s : State) : Host.Outcome State Fault Refusal := issue f.grd s fun s =>
  let v := f.va.toNat
  if s.cur.fBusy f.fd.toNat then s.stall
  else s.enqueueRcp (s.cur.addProducer f.fd.toNat s.fresh) (.query f.fd.toNat (recipeWord s.cur v) v ((s.cur.vr v).binding.map Binding.bid))

end Sys2Proof.Machine
end

