-- ==== Sys2Proof/Machine/HomeEvents.lean ====
section
/-! DEFINITION. Steps of homes, slices and walkers: requests performed, answers returned, lines brought in and written back
(spec/09_line.md R185-R195; spec/13_page.md R266-R270; spec/14_cell.md R277, R278, R282; spec/25_link.md R424, R429, R430). -/

namespace Sys2Proof.Machine

/-! ### Performing a request (R185, R191) -/

def RequestKind.isAtomic : RequestKind → Bool
  | .atom _ _ _ => true
  | .cas _ _ _ => true
  | _ => false
/-- Who makes a request, as records tell it and as races see it; what happens before an access of another module's party is what this module has seen
(assumption 63). -/
def requestWriter (s : State) (r : Request) : Writer :=
  let w : Writer :=
    { party := r.party, kind := 0, loc := r.loc, sig := r.sig, strand := none, hyp := r.hyp, number := r.number, view := r.view, rels := r.rels
      atomic := r.kind.isAtomic }
  match r.party with
  | .strand i => { w with strand := some i, entry := some r.target.leaf.entry }
  | .job n => { w with kind := 1, strand := (s.jobs.find? fun j => j.n == n).map Job.who }
  | .remote _ _ _ => { w with kind := 2, view := s.viewOf r.party }
  | .host => { w with kind := 3 }
  | .device => w

/-- Earlier requests of the same party to the same line come first. -/
def performable (r : Request) : List Request → Bool
  | [] => true
  | q :: rest => if q.id = r.id then true else
      !(decide (q.party = r.party) && !q.done && q.target.mid == r.target.mid && lineOf q.target.pa == lineOf r.target.pa) && performable r rest
def State.updRequest (s : State) (id : Nat) (f : Request → Request) : State :=
  { s with net := s.net.map fun r => if r.id = id then f r else r }

/-- States of the bridge's half after an access to a HOST_CACHED page (R429). -/
def State.bridgeStore (s : State) (t : Target) : State :=
  if t.leaf.plc = .hostCached then
    { s with bridge := s.bridge.filterMap fun h => if h.1 = t.pa / 64 * 64 then (match h.2 with
               | .shared => none
               | _ => some (h.1, .modified)) else some h }
  else s

/-- One element reduced at the home (R242): M := Round(M + x), or the greater or lesser. -/
def reduceElement (rop : Rop) (et : Et) (m x : Nat) : Nat :=
  let w := 8 * etBytes et
  match rop with
  | .add =>
    if etFloat et then (roundTo (formatOf et) .rne false 0 (exactAdd .rne (decodeFloat (formatOf et) m) (decodeFloat (formatOf et) x))).1
    else (m + x) % 2 ^ w
  | .max => if etFloat et then floatMinMax (formatOf et) true m x else if toSigned w m < toSigned w x then x else m
  | .min => if etFloat et then floatMinMax (formatOf et) false m x else if toSigned w x < toSigned w m then x else m
/-- Bytes of an access: a reduction's are its element's. -/
def requestBytes (k : RequestKind) : Nat := match k with
  | .reduce _ et _ => etBytes et
  | k => kindBytes k
/-- What a request leaves in memory, given what it finds. -/
def requestNew (k : RequestKind) (old : Nat) : Option Nat := match k with
  | .read _ => none
  | .write _ d => some d.toNat
  | .atom aop n x => some (atomNew aop (8 * n) old x.toNat)
  | .cas _ o x => if old = o.toNat then some x.toNat else none
  | .reduce rop et d => some (reduceElement rop et old (d.toNat % 2 ^ (8 * etBytes et)))

/-- The home performs a request: the state after it, with the old value in the request, and for a read also its line and the releases it reads
from. A read of more than 16 bytes is none of the accesses of R195. -/
def State.performHere (s : State) (p : Part) (r : Request) : State :=
  let w := requestWriter s r
  let n := requestBytes r.kind
  let t := r.target
  let tag := if t.leaf.hyp then r.hyp else 0
  let old := s.oldValue p t n r.hyp w
  let ended (s' : State) (v : Nat) : State :=
    s'.updRequest r.id fun r => { r with done := true, seen := s.fresh, value := BitVec.ofNat 128 v }
  match requestNew r.kind old with
  | some v => ended ((s.bridgeStore t).homeWrite p t n r.hyp v w) old
  | none =>
    let line := BitVec.ofNat 1024 (s.homeBytes p t.leaf.hsh (lineOf t.pa) 128 tag)
    let a := if 16 < n then ((s.useVersions p t.pa tag).bump, s.homeBytes p t.leaf.hsh t.pa n tag) else s.homeRead p t n r.hyp w
    (ended a.1 a.2).updRequest r.id fun r =>
      { r with line := setLineBytes line (t.pa % 128) a.2 n, rels := if r.kind.isAtomic then r.rels else s.readRels p tag t.pa n }
/-- An uncorrectable error that a request meets: its page is POISONED, when it is one of this module's tables, and the home's scrivener notes it
(R188). -/
def State.requestError (s : State) (p : Part) (r : Request) : State := match r.party with
  | .remote _ _ _ => s.scrivener (p.home r.target.pa).site 9 0 p.cix 0 r.loc (BitVec.ofNat 64 r.target.pa) 0
  | _ => s.meetErrorOf p r.loc r.target
/-- Granules of a request of another module that are typed by the time it is performed (R274, R307). -/
def State.typedNow (s : State) (r : Request) : Option Granule := match r.party with
  | .remote _ _ _ => if isHbm r.target.pa then s.typedIn r.target.pa (requestBytes r.kind) else none
  | _ => none
/-- A request performed, or ended by an error of its line. -/
def State.performChecked (s : State) (p : Part) (r : Request) : State :=
  if (s.typedNow r).isSome then s.updRequest r.id fun r => { r with done := true, bad := some (.type, false) }
  else if s.isBad r.target.pa then (s.requestError p r).updRequest r.id fun r => { r with done := true, bad := some (.pagePerm, true) }
  else s.performHere p r
/-- A part none of whose regions is its own to reach: what it keeps there is reached by its window's address. -/
def Part.bare (p : Part) : Part := { p with csavl := 0, cwll := 0, cvsl := 0 }
/-- A request at the homes of a part that is not current: directly against HBM, its windows in their images (R252). -/
def State.performAway (s : State) (p : Part) (r : Request) : State :=
  if (vaultOf r.target.pa).isSome then s.performChecked p.bare { r with target := { r.target with pa := s.imagePa p r.target.pa } }
  else s.performChecked p r
/-- A request reaches its home: it waits for the line, meets an error, or is performed. -/
def State.perform (s : State) (r : Request) : State :=
  if r.done ∨ r.target.mid ≠ s.mid ∨ performable r s.net = false then s else
  match s.part? r.cix with
  | none => s.updRequest r.id fun r => { r with done := true, bad := some (.pagePerm, false) }
  | some p =>
    if p.current = false then s.performAway p r else
    match s.sliceReady (p.home r.target.pa) r.target r.writes (some r.id) with
    | none => s.sliceMiss (p.home r.target.pa) r.target r.writes r.id
    | some s => s.performChecked p r
def State.request? (s : State) (id : Nat) : Option Request := s.net.find? fun r => r.id == id
/-- A request whose home is another module ends by itself only when that module is lost (R423). -/
def State.loseRequest (s : State) (r : Request) : State :=
  if r.done ∨ s.peerLost r.target.mid = false then s
  else if r.reply = .unused then { s with net := s.net.filter fun q => q.id != r.id }
  else s.updRequest r.id fun r => { r with done := true, bad := some (.pagePerm, false) }

/-- HOME_READ. -/
def execHomeRead (req : Nat) (s : State) : Host.Outcome State Fault Refusal :=
  .next (match s.request? req with
    | some r => if r.writes then s else if r.target.mid ≠ s.mid then s.loseRequest r else s.perform r
    | none => s)
/-- HOME_WRITE: a write, an atomic, a reduction. -/
def execHomeWrite (req : Nat) (s : State) : Host.Outcome State Fault Refusal :=
  .next (match s.request? req with
    | some r =>
      if r.writes = false then s
      else if r.target.mid ≠ s.mid then s.loseRequest r
      else if r.target.leaf.plc.isHostly ∧ r.kind.isAtomic then s
      else s.perform r
    | none => s)

/-! ### Answers (R189, R190) -/

/-- A tag whose every request is acknowledged; a discarded one is remembered until it is told (R189), and for a strand that has exited
the record goes at once, marked EXT. -/
def State.ackTag (s : State) (i : StrandId) (tag : BitVec 16) (bad : Option (Word64 × Bool)) : State :=
  match s.strand? i with
  | none => s
  | some t =>
    let s := match bad with
      | none => s
      | some (va, unc) =>
        if t.ended then sendRecord s i.grp.cix none (lostRecord s t (tag, va, unc))
        else s.setStrand { t with lost := (tag, va, unc) :: t.lost.filter fun e => e.1 != tag }
    match s.strand? i with
    | none => s
    | some t =>
      if s.net.any fun r => r.of i && r.tag == some tag then s
      else s.setStrand { t with unacked := t.unacked.filter fun u => u != tag }
/-- What another module is told of a request that met an error or a typed granule (R188, R189, R274). -/
def State.badAnswer (s : State) (r : Request) (kind : Kind) (b : FaultCode × Bool) : Answer :=
  .fault b.1 (BitVec.ofNat 64 (if b.1 = .type then ((s.typedNow r).map fun g => g.tag.code).getD 0 else kind.code + (if b.2 then 256 else 0)))
/-- STORE_ACK. -/
def execStoreAck (req : Nat) (s : State) : Host.Outcome State Fault Refusal :=
  .next (match s.request? req with
    | none => s
    | some r =>
      if r.done = false ∨ r.writes = false ∨ s.jobs.any (fun j => decide (r.party = .job j.n) && j.live) then s
      else
        let s' := { s with net := s.net.filter fun q => q.id != req }
        match r.party, r.tag with
        | .strand i, some tag => s'.ackTag i tag (r.bad.map fun b => (r.target.va, b.2))
        | .remote m _ _, some n =>
          { s' with out := s'.out ++ [.response m n ((r.bad.map (s.badAnswer r .write)).getD (.data (r.value.setWidth 512)))] }
        | _, _ => s')

/-- A line as a replica in a slice: with no room left another replica goes, and with none there it is not kept (R187). -/
def Slice.addReplica (x : Slice) (room : Nat) (l : L1Line) : Slice :=
  let others := x.replicas.filter fun q => q.line != l.line || q.entry != l.entry
  if x.lines.length + others.length < room then { x with replicas := l :: others }
  else if others.isEmpty then x else { x with replicas := l :: others.dropLast }
/-- A returned line put into the L1 of a core, and perhaps into a replica of its cluster (R186, R187): unless a copy read later stands there. Loads of
the line that were performed before it fill nothing any more. -/
def State.fillLine (s : State) (r : Request) (loc : CoreLoc) : State :=
  let t := r.target
  let leaf := t.leaf
  let l := copyLine t r.hyp r.seen (s.copyOf leaf (lineOf t.pa) r.line)
  if r.fill = false ∨ r.bad.isSome then s else
  let newer := (s.core loc).l1.any fun x => x.mid == l.mid && x.line == l.line && x.hyp == l.hyp && decide (r.seen < x.seen)
  let s : State := if newer then s else s.l1Put loc l
  let s : State := { s with net := s.net.map fun q =>
    if q.party = r.party ∧ q.target.mid = t.mid ∧ lineOf q.target.pa = l.line ∧ q.done ∧ q.seen < r.seen then { q with fill := false } else q }
  let c := coreCluster loc
  if leaf.repl ∧ leaf.st = .sealed ∧ leaf.hyp = false ∧ t.mid = s.mid ∧ s.pageNow leaf.entry = (.sealed, leaf.sgen)
      ∧ ((s.part? r.cix).map fun (p : Part) => p.home t.pa) ≠ some c then
    s.setSlice ((s.slice c).addReplica (s.sliceRoom c) l)
  else s
/-- A chunk of a running VLDG arrives; the command completes with its last. A chunk in error spoils the register for the instructions issued from
then on (assumption 66), unless a later command of the queue rewrites it. -/
def chunkArrives (stamp j : Nat) (v : Nat) (bad : Option (BitVec 56 × Word64)) (t : Strand) : Strand :=
  match t.vq.find? fun c => c.stamp == stamp with
  | none => t
  | some c => match c.action, c.waiting with
    | .gather f _, some out =>
      let left := out.filter fun x => x != j
      let t := t.putChunk f.gt.toNat j v
      let t := match if t.vq.any (fun d => decide (stamp < d.stamp) && d.dests.contains f.gt.toNat) then none else bad with
        | some e => { t with spoiledV := (f.gt.toNat, e) :: t.spoiledV }
        | none => t
      { t with vq := if left.isEmpty then t.vq.filter fun d => d.stamp != stamp
                     else t.vq.map fun d => if d.stamp = stamp then { d with waiting := some left } else d }
    | _, _ => t
/-- The registers of a load written, but for those that the other slot of its pair has written (R37). -/
def State.landLoad (s : State) (gt : BitVec 6) (size : Nat) (signed : Bool) (skip : List (BitVec 6)) (v : Nat) : State :=
  let old := s.cur
  let s := s.putLoad gt size signed v
  skip.foldl (fun s n => s.wrG n ((old.g[n.toNat]?).getD 0)) s
/-- A load's value, or its error, reaches the issuing strand. -/
def loadLands (r : Request) (gt : BitVec 6) (size : Nat) (signed : Bool) (s : State) : State :=
  let s := { s with opnd := none }
  match r.bad with
  | some _ =>
    let regs := (if size = 16 then [gt, nextReg gt] else [gt]).filter fun n => n != 0 && !r.skip.contains n
    { s with cur := { s.cur with spoiled := regs.map (fun n => (n, r.pc, r.target.va)) ++ s.cur.spoiled } }
  | none =>
    let s := s.landLoad gt size signed r.skip r.value.toNat
    { s with cur := s.cur.hear r.rels }
/-- LOAD_RETURN: the data of a load that does not block, or of a read that another module made. -/
def execLoadReturn (req : Nat) (s : State) : Host.Outcome State Fault Refusal :=
  .next (match s.request? req with
    | none => s
    | some r =>
      if r.done = false ∨ r.writes then s else
      let s' := { s with net := s.net.filter fun q => q.id != req }
      match r.party, r.reply with
      | .strand i, .regs gt size signed =>
        (match s.strand? i with
        | none => s'
        | some t => if t.ended then s' else (s'.fillLine r t.place).onStrand i (loadLands r gt size signed))
      | .strand i, .chunk stamp j =>
        (match s.strand? i with
        | none => s'
        | some t =>
          let v := if r.bad.isSome then (Config.freeBits 128 s.fresh).toNat else r.value.toNat
          let s' := if t.ended then s' else s'.fillLine r t.place
          (s'.setStrand ((chunkArrives stamp j v (r.bad.map fun _ => (r.pc, r.target.va)) t).hear r.rels)).bump)
      | .remote m _ _, _ =>
        (match r.tag with
        | some n =>
          let v : Answer := if r.fill then .line r.line
            else .data (if 16 < requestBytes r.kind then BitVec.ofNat 512 (r.line.toNat / 2 ^ (8 * (r.target.pa % 128)) % 2 ^ (8 * requestBytes r.kind))
                        else r.value.setWidth 512)
          { s' with out := s'.out ++ [.response m n ((r.bad.map (s.badAnswer r .read)).getD v)] }
        | none => s)
      | .job n, _ => if s.jobs.any (fun j => j.n == n && j.live) then s else s'
      | _, _ => s)

/-! ### Wakes and answers from elsewhere (R189, R282) -/

/-- A wake is delivered by the waiter's state. -/
def State.deliverWake (s : State) (id : StrandId) (res : WakeResult) (rels : List Rel) : State :=
  match s.strand? id with
  | none => s
  | some t =>
    if t.ended ∨ t.park = none then s else
    let st := ((s.group? id.grp).map Group.st).getD .resident
    if t.status = .parked ∧ st ≠ .saving then s.onStrand id fun s => State.waitEnds { s with opnd := none } res rels
    else
      let t := { t with park := t.park.map fun k => if k.result.isSome then k else { k with result := some res, rels := rels }
                        status := if t.status = .swapped then .ready else t.status }
      let s := (s.setStrand t).rewriteWake t
      if st = .swapped then s.updGroup id.grp fun g => { g with st := .ready } else s
/-- WAKE. -/
def execWake (id : Nat) (s : State) : Host.Outcome State Fault Refusal :=
  .next (match s.wakes.find? fun w => w.id == id with
    | none => s
    | some w => ({ s with wakes := s.wakes.filter fun x => x.id != id } : State).deliverWake w.who w.res w.rels)

def answerBytes : Answer → BitVec 128
  | .data b => b.setWidth 128
  | _ => 0
def answerLine : Answer → BitVec 1024
  | .line b => b
  | _ => 0
/-- How an answer that is none ends a request (R250, R274, R424). -/
def answerBad : Answer → Option (FaultCode × Bool)
  | .data _ => none
  | .line _ => none
  | .status _ _ _ => none
  | .fault c info => some (c, info.getLsbD 8)
  | _ => some (.pagePerm, false)
/-- A wait at a home on another module ends (R423: a lost peer's gives DEAD). -/
def wakeOfAnswer : Answer → WakeResult
  | .status st _ item => .status st item
  | .fault _ _ => .poisoned
  | _ => .status .dead 0
/-- The request of a party that an answer is for: out at another module, and of the packet's number (R425). -/
def State.askedOf (s : State) (q : Party) (seqNo : BitVec 16) : Option Request :=
  s.net.find? fun r => decide (r.party = q) && !r.done && r.target.mid != s.mid && BitVec.ofNat 16 r.id == seqNo
/-- A post has not been made as it was meant (R234). -/
def State.postFail (s : State) (p : Post) (sub : Byte) (code : Nat) : State :=
  let r := { blankRecord .postFail with sub := sub, addr := p.handle, clk := s.clk, hyp := p.hyp }
  match p.source with
  | .job jid loc lid sidx =>
    sendRecord s p.cix none { r with info := BitVec.ofNat 64 (jid.toNat + code * 65536), loc := loc, lid := BitVec.ofNat 32 lid, sidx := sidx }
  | .launch lid => sendRecord s p.cix none { r with info := BitVec.ofNat 64 (code * 65536), lid := BitVec.ofNat 32 lid }
  | .resolve => sendRecord s p.cix none { r with info := BitVec.ofNat 64 (code * 65536) }
  | _ => s
/-- How a post ends: a refusal and a failed check are told. -/
def State.postEnds (s : State) (x : Post) (r : CellResult) : State :=
  let s := { s with posts := s.posts.filter fun y => y.id != x.id }
  match r with
  | .done .ok _ _ => s
  | .done st _ _ => s.postFail x (BitVec.ofNat 8 (statusCode st)) 0
  | .fault f => s.postFail x 0x80 (faultCodeNat f.code)
  | .parked _ => s
/-- What another module answers to a post (R250, R277, R424). -/
def postAnswer : Answer → CellResult
  | .status st v item => .done st v item
  | .fault c info => .fault { code := c, addr := 0, info := info }
  | .refused .part => .done .dead 0 0
  | .refused .incarn => .done .dead 0 0
  | _ => .fault { code := .pagePerm, addr := 0, info := 0 }
/-- Another module has acknowledged a resolve, or the sweep that follows it (R380, R387). -/
def State.ackResolve (s : State) (seqNo : BitVec 16) : State :=
  { s with parts := s.parts.map fun p => { p with resolves := p.resolves.map fun r => { r with mods := r.mods.filter fun m => m.2 != seqNo },
                                                   hyps := p.hyps.map fun e => { e with away := e.away.filter fun m => m.2 != seqNo } } }
/-- An answer for a post, or for a resolve. -/
def State.answerPost (s : State) (q : Party) (seqNo : BitVec 16) (a : Answer) : State :=
  match s.posts.find? fun x => (x.party.unit == q.unit) && (x.sent.map Prod.snd) == some seqNo with
  | some x => s.postEnds x (postAnswer a)
  | none => s.ackResolve seqNo
/-- A release at a home on another module as this module knows it (R213): its own is what it sent; of another module's party it knows what it has
seen of that one here (assumption 63). -/
def State.releasedBy (s : State) (home : Nat) (x : Released) : List Rel :=
  if x.mid = s.mid then ((s.sentRels.find? fun e => e.1 == home && e.2.1 == x.seqNo).map fun e => e.2.2.filter fun r => r.scp == x.scp).getD []
  else
    let q : Party := .remote x.mid x.inc (match x.party with
      | .strand w _ => .strand w 0
      | p => p)
    let spot : Option Spot := match x.party with
      | .strand _ _ => some (locSpot x.loc false)
      | .job _ => some (locSpot x.loc true)
      | .unit => none
    [{ party := q, spot := spot, scp := x.scp, view := View.raise (s.viewOf q) q s.fresh }]
def State.answeredRels (s : State) (home : Nat) (l : List Released) : List Rel := (l.map (s.releasedBy home)).flatten.foldl noteRel []
/-- The part of BLOCKING_RESPONSE that concerns a strand: its blocked access, its code line, or its park; a wake may come before the strand has taken in
that it is parked (R281). -/
def State.answerStrand (s : State) (who : StrandId) (after : List Released) (a : Answer) : State :=
  match s.strand? who with
  | none => s
  | some t => match t.blocked, t.line with
    | some b, l =>
      let rels := s.answeredRels (b.asked.getD s.mid) after
      if b.answer.isNone then s.setStrand { t with blocked := some { b with answer := some a, rels := rels } }
      else if Answer.parks b.answer ∧ b.woken.isNone then s.setStrand { t with blocked := some { b with woken := some (wakeOfAnswer a, rels) } }
      else answerOther s who t l a
    | none, l => answerOther s who t l a
where
  /-- Is it the answer that the wait is parked? -/
  Answer.parks : Option Answer → Bool
    | some (.parked _) => true
    | _ => false
  /-- An answer that no blocked access waits for. -/
  answerOther (s : State) (who : StrandId) (t : Strand) (l : Option (Nat × Nat × BitVec 32 × Option LineBits)) (a : Answer) : State :=
    match l with
    | some (m, pa, gen, none) =>
      (match a with
      | .data b => s.setStrand { t with line := some (m, pa, gen, some b) }
      | _ =>
        let s := s.setStrand { t with line := none }
        if t.status = .run then
          s.onStrand who fun s => ({ s with opnd := none } : State).raise
            (faultAt .pagePerm (BitVec.ofNat 64 (t.pc.toNat / 64 * 64)) (Kind.execute.code + (if ((answerBad a).map Prod.snd).getD false then 256 else 0)))
        else s)
    | _ => match t.park with
      | some k => if k.mid ≠ s.mid ∧ k.result.isNone then s.deliverWake who (wakeOfAnswer a) (s.answeredRels k.mid after) else s
      | none => s
def RemoteParty.here : RemoteParty → Party
  | .strand i _ => .strand i
  | .job n => .job n
  | .unit => .device
/-- A withdrawal that another module acknowledges (R282, R363). -/
def State.ackGivenUp (s : State) (seqNo : BitVec 16) : State := { s with givenUp := s.givenUp.filter fun e => e.2.2 != seqNo }
/-- The answer to a request: its value, or the error or the refusal that ends it; an uncorrectable error leaves the issuer's page POISONED (R188). -/
def State.answerRequest (s : State) (r : Request) (after : List Released) (a : Answer) : State :=
  let value : BitVec 128 := match a with
    | .line b => BitVec.ofNat 128 (b.toNat / 2 ^ (8 * (r.target.pa % 128)))
    | a => answerBytes a
  let rels := s.answeredRels r.target.mid after
  let s := if ((answerBad a).map Prod.snd).getD false then s.poisonPage r.target.leaf.entry else s
  if r.reply = .unused then { s with net := s.net.filter fun q => q.id != r.id } else
  (s.updRequest r.id fun r =>
    { r with done := true, bad := answerBad a, value := value, line := answerLine a, seen := s.fresh, rels := if r.writes then r.rels else rels }).bump
/-- Another module's answer, for the request of its number, for a withdrawal, for a post, or for what the strand waits for. -/
def State.answered (s : State) (to_ : Asker) (a : Answer) : State :=
  match s.askedOf (RemoteParty.here to_.party) to_.seqNo with
  | some r => s.answerRequest r to_.after a
  | none => match to_.party with
    | .strand who _ =>
      if s.givenUp.any fun e => decide (e.1 = who) && e.2.2 == to_.seqNo then s.ackGivenUp to_.seqNo else s.answerStrand who to_.after a
    | q => s.answerPost (RemoteParty.here q) to_.seqNo a

/-- Is an atomic one that PCIe has as an AtomicOp (R430)? -/
def RequestKind.isAtomicOp : RequestKind → Bool
  | .atom aop n _ => (aop == .add || aop == .xchg) && (n == 4 || n == 8 || n == 16)
  | .cas n _ _ => n == 4 || n == 8 || n == 16
  | _ => false
/-- ATOMIC_PROXY (R430): an atomic to host memory is performed with its half held, and its issuer answered. To the memory of a peer device it goes as
an AtomicOp, which the device may refuse (assumption 87); the other operations are a read and a write of the proxy's, which holds no half of it. -/
def execAtomicProxy (req : Nat) (s : State) : Host.Outcome State Fault Refusal :=
  .next (match s.request? req with
    | none => s
    | some r =>
      if r.done ∨ r.target.mid ≠ s.mid ∨ r.target.leaf.plc.isHostly = false ∨ performable r s.net = false then s else
      match r.kind, s.part? r.cix with
      | .atom _ _ _, some p => refuseOr r p
      | .cas _ _ _, some p => refuseOr r p
      | _, _ => s)
where
  /-- A peer device that refuses an AtomicOp: PAGE_PERM. -/
  refuseOr (r : Request) (p : Part) : State :=
    if Config.peerMemory r.target.pa && r.kind.isAtomicOp && (Config.freeBits 1 s.fresh).toNat == 1 then
      let s := s.bump
      if r.tag.isSome then s.updRequest r.id fun r => { r with done := true, bad := some (.pagePerm, false), seen := s.fresh }
      else
        let s := { s with net := s.net.filter fun q => q.id != r.id }
        match r.party with
        | .strand i => (match s.strand? i with
          | some t => s.setStrand { t with blocked := t.blocked.map fun b => { b with answer := some (.refused .addr) } }
          | none => s)
        | _ => s
    else proxy r p
  proxy (r : Request) (p : Part) : State :=
    let half := r.target.pa / 64 * 64
    let rels := s.readRels p 0 r.target.pa (requestBytes r.kind)
    let s1 : State := { s with bridge := if r.target.leaf.plc = .hostCached ∧ Config.peerMemory r.target.pa = false then (half, .modified) :: s.bridge.filter fun h => h.1 != half
                                 else s.bridge.filter fun h => h.1 != half }
    let s2 := s1.performHere p r
    if r.tag.isSome then s2
    else
      let old := ((s2.request? r.id).map Request.value).getD 0
      let s3 := { s2 with net := s2.net.filter fun q => q.id != r.id }
      match r.party with
      | .strand i => (match s3.strand? i with
        | some t => s3.setStrand { t with blocked := t.blocked.map fun b => { b with answer := some (.data (old.setWidth 512)), rels := rels } }
        | none => s3)
      | _ => s3

/-! ### Slices (R187, R192) -/

/-- WRITEBACK_DRAIN: the oldest write-back entry. -/
def execWritebackDrain (l : ClusterLoc) (s : State) : Host.Outcome State Fault Refusal :=
  .next (let x := s.slice l
    if x.backs.isEmpty then s else s.setSlice { x with backs := x.backs.dropLast })
/-- Requests that wait for a line at its home, in arrival order. -/
def State.waitingFor (s : State) (line : Nat) : Option Request :=
  s.net.find? fun r => !r.done && r.target.mid == s.mid && lineOf r.target.pa == line
/-- HBM_MISS_RETURN: the line comes in, its entry is freed, and the first request that waits for it is performed; the oldest request that found every
entry busy takes the one freed. -/
def execHbmMissReturn (l : ClusterLoc) (line : Nat) (s : State) : Host.Outcome State Fault Refusal :=
  .next (let x := s.slice l
    match x.misses.find? fun m => m.1 == line with
    | none => s
    | some m => match x.bring (s.sliceRoom l) { line := line, dirty := m.2.2, evp := m.2.1, used := s.clk.toNat } with
      | none => s
      | some y =>
        let s := s.setSlice { y with misses := y.misses.filter fun e => e.1 != line }
        let s := match s.waitingFor line with
          | some r => s.perform r
          | none => s
        match (s.inputQueue l).head?.bind s.request? with
        | some r => s.perform r
        | none => s)
/-- REPLICA_DROP. -/
def execReplicaDrop (l : ClusterLoc) (line : Nat) (s : State) : Host.Outcome State Fault Refusal :=
  .next (let x := s.slice l
    if x.replicas.any fun q => q.line == line then s.setSlice { x with replicas := x.replicas.filter fun q => q.line != line } else s)
/-- The page of a remote request or of a cell that a slice brings in, as far as its home must know it. -/
def remoteLeaf (pa bits : Nat) (mid : Nat) (hyp sync : Bool) : Leaf :=
  { vbase := pa / 2 ^ bits * 2 ^ bits, bits := bits, mid := mid, frame := pa / 2 ^ bits * 2 ^ bits, hsh := false, wa := false, evp := 0, hyp := hyp
    repl := false, sealable := false, sync := sync, plc := if isHost pa then .hostUncached else if isHbm pa then .hbmCached else .vault, x := true
    w := true, st := .mapped, sgen := 0, entry := 2 ^ 48 }
/-- The page of an access of another module, with what its packet tells of the issuer's leaf (R183, R193, R257, R429). -/
def Packet.leaf (k : Packet) (mid : Nat) : Leaf :=
  let l := remoteLeaf k.pa 16 mid (decide (hypId k.hyp ≠ 0) && !k.sync) k.sync
  { l with hsh := k.hsh, wa := k.wa, evp := k.evp % 4
           plc := if isHost k.pa then (if k.cached then .hostCached else .hostUncached)
                  else if isHbm k.pa then (if k.cached then .hbmCached else .hbmUncached) else .vault }
/-- HOT_LINE_FILL (R278): an active cell homed at the slice of a current part. -/
def execHotLineFill (l : ClusterLoc) (granule : Nat) (s : State) : Host.Outcome State Fault Refusal :=
  .next (match s.parts.find? fun p => p.current && p.serves && p.inRanges granule 32 with
    | none => s
    | some p =>
      if (s.slice l).hot.contains granule ∨ p.home granule ≠ l ∨ (s.granule granule).tag = .free ∨ (s.granule granule).tag = .qslot
          ∨ granuleOf granule ≠ granule then s
      else (s.heat p { va := 0, mid := s.mid, pa := granule, leaf := remoteLeaf granule 16 s.mid false true }).getD s)

/-! ### Pages (R266, R267, R270) -/

/-- PAGE_WALK: the walk's result is held in the cluster's TLB of 1,024 leaves, and the pointer entries it read by the die's walkers. The walk goes on
until the next one to the page, or until it is ended, on one of the die's 32 walkers, and other misses of the die to the page join it (R267). -/
def execPageWalk (c : ClusterLoc) (cix : Nat) (va : Word64) (s : State) : Host.Outcome State Fault Refusal :=
  .next (let under := s.walks.any fun w => w.covers c.site cix va
    let s := { s with walks := s.walks.filter fun w => !w.covers c.site cix va }
    let hold (s : State) (found : FaultCode ⊕ Leaf) : State :=
      if under ∨ 32 ≤ countWhere (fun (w : Walk) => w.site == c.site) s.walks then s
      else { s with walks := { site := c.site, cluster := c, cix := cix, page := va.toNat / 2 ^ 16, found := found } :: s.walks }
    if va.extractLsb' 56 8 ≠ 0 ∨ (s.tlbHit c cix va).isSome then s else
    match s.part? cix with
    | none => s
    | some p =>
      let fresh := (walkPointers s p c.site va p.root walkLevels).filter fun e =>
        !s.ptrs.any fun x => x.site == e.site && x.cix == e.cix && x.lo == e.lo && x.vpart == e.vpart
      let s' := { s with ptrs := fresh ++ s.ptrs }
      match s.walkFrom p c.site va .read with
      | .error e => hold s' (.inl e.code)
      | .ok leaf =>
        let mine := (s.tlb.filter fun e => decide (e.cluster = c)).take 1023
        hold { s' with tlb := { cluster := c, cix := cix, leaf := leaf } :: mine ++ s.tlb.filter fun e => decide (e.cluster ≠ c) } (.inr leaf))
/-- UNSEAL_COMPLETE: no replica is left; the L1 copies go, the generation rises, and the page is MAPPED. -/
def execUnsealComplete (entry : Nat) (s : State) : Host.Outcome State Fault Refusal :=
  .next (let now := s.pageNow entry
    if now.1 ≠ .unsealing ∨ s.isLeafEntry entry = false ∨ s.slices.any (fun x => x.replicas.any fun q => q.entry == entry) then s
    else ((s.dropPageLines entry).writeWord1 entry .mapped (now.2 + 1)).withdrawPage entry)

/-! ### Posts and remote operations at their escapement (R234, R277) -/

/-- The answer of the escapement to another module. -/
def answerOf : CellResult → Answer
  | .done st v item => .status st v item
  | .fault f => .fault f.code f.info
  | .parked v => .parked v
/-- The party of another module as the issuer of a cell operation: its kind, place and live set are the packet's (R279, R280). -/
def Packet.issuer (k : Packet) (cix : Nat) (s : State) : Issuer :=
  let i : Issuer :=
    { cix := cix, mid := k.mid, inc := k.inc, who := unitId 0, loc := k.loc, hyp := k.hyp, ls := 0, strand := false, party := Packet.sender k, spot := Packet.spot k
      view := s.viewOf (Packet.sender k) }
  match k.party with
  | .strand w ls => { i with who := w, ls := ls, strand := true, dynamic := k.dynamic }
  | .job _ => { i with sig := k.tag }
  | _ => i
/-- The operation of another module's party on a cell of a part, and its answer; an acquire orders that party's later accesses here. -/
def State.remoteCell (s : State) (x : Post) (k : Packet) (p : Part) (hnd : Word64) (f : Bool) (bits : Nat) (op : CellOp) : State :=
  let t : Target := { va := (hnd.setWidth 56).setWidth 64, mid := s.mid, pa := k.pa, leaf := remoteLeaf k.pa bits s.mid false true }
  match cellOperation s p (Packet.issuer k x.cix s) hnd f t op with
  | none => s
  | some (s, r) =>
    let s := { s with posts := s.posts.filter fun y => y.id != x.id }
    let s := s.afterTakeAt p.cix op r k.pa
    let heard := match r with
      | .done st _ _ => acquires op st
      | _ => false
    let s := if heard then s.setView (Packet.sender k) (acquireFrom (s.viewOf (Packet.sender k)) .pod (Packet.spot k) (s.granule k.pa).rels) else s
    s.respond k (answerOf r)
/-- CELL_OPERATION: a post of this module, here or toward another one, or the operation of another module's party or its withdrawal, behind what that
party sent before (R417). -/
def execCellOperation (id : Nat) (s : State) : Host.Outcome State Fault Refusal :=
  .next (match s.posts.find? fun x => x.id == id with
    | none => s
    | some x => match x.source with
      | .remote k =>
        if (s.posts.takeWhile fun y => y.id != id).any fun y => y.party == x.party then s else
        (match k.access, k.party, s.part? x.cix with
        | .cell hnd f bits op, _, some p => s.remoteCell x k p hnd f bits op
        | .withdraw _, .strand w _, some _ => ({ withdrawAt s k.mid w k.pa with posts := s.posts.filter fun y => y.id != id } : State).respond k (.status .ok 0 0)
        | .discard _, .strand w _, some _ => { discardAt s k.mid w k.pa with posts := s.posts.filter fun y => y.id != id }
        | _, _, _ => s)
      | _ =>
        if x.sent.isSome then s
        else match s.postTarget x with
          | .error r => s.postEnds x r
          | .ok (p, t) =>
            if t.mid ≠ s.mid then s.sendPost x p t
            else match s.postHere x p t with
              | none => s
              | some (s, r) => s.postEnds x r)

end Sys2Proof.Machine
end

