-- ==== Sys2Proof/Machine/Tile.lean ====
section
/-! DEFINITION. Tile commands (spec/08_tile.md R160-R177): descriptors, what the matrix unit computes (spec/04_numbers.md R85-R88), the
checks at enqueue, and the arbiter of a cluster. -/

namespace Sys2Proof.Machine

/-! ### Tensor descriptors (R162-R164) -/

def descField (d : LineBits) (off n : Nat) : Nat := (d.extractLsb' (8 * off) (8 * n)).toNat
def descKind (d : LineBits) : Nat := descField d 0 1
def descFmt (d : LineBits) : Option Et := if descField d 1 1 < 9 then Et.ofCode (BitVec.ofNat 4 (descField d 1 1)) else none
/-- L, the E2M1X block length. -/
def descBlock (d : LineBits) : Nat := 16 * 2 ^ descField d 2 1
def descTord (d : LineBits) : Nat := descField d 3 1 % 2
def descKdep (d : LineBits) : Nat := descField d 4 2
def descM (d : LineBits) : Nat := descField d 0x08 4
def descN (d : LineBits) : Nat := descField d 0x0C 4
def descK (d : LineBits) : Nat := descField d 0x10 4
def descKslc (d : LineBits) : Nat := descField d 0x14 4
def descStr (d : LineBits) : Nat := descField d 0x18 4
def descSstr (d : LineBits) : Nat := descField d 0x1C 4
def descSoff (d : LineBits) : Int := toSigned 32 (descField d 0x20 4)
def descXoff (d : LineBits) : Int := toSigned 32 (descField d 0x24 4)
def descOscl (d : LineBits) : Nat := descField d 0x30 4

/-- The format groups of R160, and none for the formats of results only. -/
inductive TileGroup | fp8 | int | block | half | none
  deriving DecidableEq, Repr
def tileGroup : Et → TileGroup
  | .e4m3 => .fp8
  | .e5m2 => .fp8
  | .int8 => .int
  | .lut4 => .int
  | .e2m1x => .block
  | .bf16 => .half
  | .fp16 => .half
  | .fp32 => .none
  | .int32 => .none
def kmax (e : Et) : Nat := match tileGroup e with
  | .fp8 => 128
  | .int => 128
  | .block => 256
  | .half => 64
  | .none => 0
/-- Bits of an element. -/
def etBits : Et → Nat
  | .e2m1x => 4
  | .lut4 => 4
  | e => 8 * etBytes e

/-- The checks of a descriptor of KIND 1 (R163). FLAGS[7:1], which R162 calls reserved, must be zero as a reserved byte must: the spec does not say so
of reserved bits within a byte (assumption 81). -/
def tileDescOk (d : LineBits) : Bool :=
  match descFmt d with
  | none => false
  | some e =>
    let kd := descKdep d
    let ks := descKslc d
    let inRange (n : Nat) : Bool := decide (1 ≤ n) && decide (n ≤ 2 ^ 24)
    (if e = .e2m1x then decide (descField d 2 1 ≤ 3) && ks % descBlock d == 0 else descField d 2 1 == 0)
      && (if kmax e = 0 then kd == 0 else decide (16 ≤ kd) && decide (kd ≤ kmax e) && kd % 16 == 0 && ks % kd == 0)
      && inRange (descM d) && inRange (descN d) && (kmax e == 0 || inRange (descK d))
      && (List.range 8).any (fun p => descK d == (p + 1) * ks)
      && descStr d % 64 == 0 && descSstr d % 64 == 0 && descField d 0x20 4 % 64 == 0 && descField d 0x24 4 % 64 == 0
      && decide (descField d 3 1 < 2) && descField d 6 2 == 0 && descField d 0x34 12 == 0
/-- The checks of a copy layout, KIND 2 (R228). -/
def copyDescOk (d : LineBits) : Bool :=
  let blk := descField d 4 4
  let rows := descField d 8 4
  decide (16 ≤ blk) && decide (blk ≤ 2 ^ 24) && blk % 16 == 0 && decide (1 ≤ rows) && decide (rows ≤ 2 ^ 24)
    && descField d 0x0C 4 % 16 == 0 && descField d 0x10 4 % 16 == 0 && descField d 2 2 == 0 && descField d 0x14 44 == 0
def descOk (d : LineBits) : Bool :=
  if descKind d = 0 then d == 0 else if descKind d = 1 then tileDescOk d else if descKind d = 2 then copyDescOk d else false

/-! ### Places of elements, scales and extra values (R164) -/

/-- An address plus an offset, modulo 2^64. -/
def addrPlus (a : Nat) (off : Int) : Nat := (((a : Int) + off).emod (2 ^ 64)).toNat
def rowAddr (a : Nat) (d : LineBits) (r : Nat) : Nat := addrPlus a (r * descStr d)
def scaleAddr (a : Nat) (d : LineBits) (r : Nat) : Nat := addrPlus a (descSoff d + r * descSstr d)
def extraAddr (a : Nat) (d : LineBits) (r : Nat) : Nat := addrPlus a (descXoff d + r * descSstr d)
/-- The ranges of an operand or result of rows by cols at a; srows by scols are its scale and extra-value arrays. -/
def tileRanges (a : Nat) (d : LineBits) (e : Et) (rows cols srows scols : Nat) (write : Bool) : List Range :=
  ((List.range rows).map fun r => { base := rowAddr a d r, len := cols * etBits e / 8, write := write : Range })
    ++ (if e = .e2m1x then
      ((List.range srows).map fun r => { base := scaleAddr a d r, len := scols, write := write : Range })
        ++ ((List.range srows).map fun r => { base := extraAddr a d r, len := scols, write := write : Range })
    else [])
/-- Blocks along n elements. -/
def blocksOf (d : LineBits) (n : Nat) : Nat := (n + descBlock d - 1) / descBlock d
def rangesA (a : Nat) (d : LineBits) (e : Et) : List Range := tileRanges a d e 16 (descKdep d) 16 (blocksOf d (descKdep d)) false
def rangesB (a : Nat) (d : LineBits) (e : Et) : List Range := tileRanges a d e (descKdep d) 256 (blocksOf d (descKdep d)) 256 false
def rangesC (a : Nat) (d : LineBits) (e : Et) : List Range := tileRanges a d e 16 256 16 (blocksOf d 256) true

/-- A byte of an operand read at the start of its command. -/
def operandByte (l : List (Nat × Byte)) (x : Nat) : Nat := ((l.find? fun p => p.1 == x).map fun p => p.2.toNat).getD 0
/-- Element idx of the row that starts at an address, 4-bit codes packed as R75. -/
def rawElement (l : List (Nat × Byte)) (e : Et) (row idx : Nat) : Nat :=
  match etBits e with
  | 4 => operandByte l (row + idx / 2) / 16 ^ (idx % 2) % 16
  | 16 => operandByte l (row + 2 * idx) + 256 * operandByte l (row + 2 * idx + 1)
  | _ => operandByte l (row + idx)

/-! ### The order of matrix sums (R85-R88) -/

/-- An operand as its command reads it: element (r, k) along the depth, r a row of A or a column of B. -/
structure Operand where
  raw   : Nat → Nat → Nat
  /-- Scale and extra-value bytes of the block that holds an element. -/
  scale : Nat → Nat → Nat
  extra : Nat → Nat → Nat

def operandA (l : List (Nat × Byte)) (a : Nat) (d : LineBits) (e : Et) : Operand :=
  { raw := fun i k => rawElement l e (rowAddr a d i) k
    scale := fun i k => operandByte l (scaleAddr a d i + k / descBlock d)
    extra := fun i k => operandByte l (extraAddr a d i + k / descBlock d) }
def operandB (l : List (Nat × Byte)) (a : Nat) (d : LineBits) (e : Et) : Operand :=
  { raw := fun n k => rawElement l e (rowAddr a d k) n
    scale := fun n k => operandByte l (scaleAddr a d (k / descBlock d) + n)
    extra := fun n k => operandByte l (extraAddr a d (k / descBlock d) + n) }

/-- An element without its block's scale (R85 step 1). -/
def elementVal (o : Operand) (e : Et) (r k : Nat) : FloatVal :=
  if e = .e2m1x then e2Value (o.raw r k) 127 (o.extra r k) else decodeFloat (formatOf e) (o.raw r k)
/-- An integer element. -/
def elementInt (o : Operand) (e : Et) (luta lutb : Word64) (r k : Nat) : Int :=
  toSigned 8 (if e = .lut4 then lutEntry luta lutb (o.raw r k) else o.raw r k)

/-- The flags that the matrix unit raises (R86). -/
def tileFlags (f : FloatFlags) : FloatFlags := f &&& (flagNV ||| flagOF ||| flagNX)
/-- floor(log2 |p|) of a nonzero product, and the greatest of a list. -/
def topExp : List ExactVal → Option Int
  | [] => none
  | .fin _ m e _ :: rest =>
    let here : Int := e + Nat.log2 m
    (match topExp rest with
    | none => if m = 0 then none else some here
    | some t => some (if m ≠ 0 ∧ t < here then here else t))
  | _ :: rest => topExp rest
/-- Products truncated toward zero to multiples of 2^unit, summed exactly. -/
def truncSum (unit : Int) : List ExactVal → Int
  | [] => 0
  | .fin n m e _ :: rest =>
    let v : Int := ((scaleNat m (e - unit)).1 : Nat)
    (if n then -v else v) + truncSum unit rest
  | _ :: rest => truncSum unit rest
def exactIsNan : ExactVal → Bool
  | .nan _ => true
  | _ => false
def exactInf : ExactVal → Option Bool
  | .inf n _ => some n
  | _ => none
/-- The result of a group as FP32 bits, with its flags; none when every product is zero. The scale is 2^shift, or NaN. -/
def groupResult (ps : List ExactVal) (nanBlock : Bool) (shift : Int) : Option (Nat × FloatFlags) :=
  if nanBlock || ps.any exactIsNan then some (fp32Format.nan, flagNV)
  else match (ps.filterMap exactInf) with
    | n :: rest => if rest.all (fun m => m == n) then some (fp32Format.signed n fp32Format.infinity, 0) else some (fp32Format.nan, flagNV)
    | [] => match topExp ps with
      | none => none
      | some top =>
        let v := truncSum (top - 24) ps
        let r := roundFinite fp32Format .rne false 0 (decide (v < 0)) v.natAbs (top - 24 + shift) true
        some (r.1, tileFlags r.2)
/-- FP32 addition into an accumulator element. -/
def accumulate (acc : Nat × FloatFlags) (g : Option (Nat × FloatFlags)) : Nat × FloatFlags :=
  match g with
  | none => acc
  | some (x, fl) =>
    let r := roundTo fp32Format .rne false 0 (exactAdd .rne (decodeFloat fp32Format acc.1) (decodeFloat fp32Format x))
    (r.1, acc.2 ||| fl ||| tileFlags r.2)
/-- Group j of a float command at element (i, n): 16 of the KDEP products, or what is left of them. -/
def floatGroup (a b : Operand) (ea eb : Et) (depth i n j : Nat) : Option (Nat × FloatFlags) :=
  let ps := (List.range (Nat.min 16 (depth - 16 * j))).map fun x => exactMul (elementVal a ea i (16 * j + x)) (elementVal b eb n (16 * j + x))
  if ea = .e2m1x then
    let sa := a.scale i (16 * j)
    let sb := b.scale n (16 * j)
    groupResult ps (sa == 255 || sb == 255) ((sa : Int) + sb - 254)
  else groupResult ps false 0
/-- One accumulator element of a float command: every product of k = 0 .. KDEP-1, in groups of 16 (R85). -/
def floatElement (a b : Operand) (ea eb : Et) (old depth i n : Nat) : Nat × FloatFlags :=
  (List.range ((depth + 15) / 16)).foldl (fun acc j => accumulate acc (floatGroup a b ea eb depth i n j)) (old, 0)
/-- One accumulator element of an integer command (R87). -/
def intElement (a b : Operand) (ea eb : Et) (luta lutb : Word64) (old depth i n : Nat) : Nat :=
  ofSigned 32 ((List.range depth).foldl (fun acc k => acc + elementInt a ea luta lutb i k * elementInt b eb luta lutb n k) (toSigned 32 old))

def tileElement (c : TileBits) (x : Nat) : Nat := laneOf 32 c.toNat x
def packTile (f : Nat → Nat) : TileBits := BitVec.ofNat 131072 (packLanes 32 f 4096)
/-- MMA and MMAZ: the accumulator after the command, and its flags. -/
def mmaResult (c : TileCommand) (ea eb : Et) (old : TileBits) : TileBits × FloatFlags :=
  let a := operandA c.bytesA c.la c.descA ea
  let b := operandB c.bytesB c.va c.descB eb
  let depth := descKdep c.descA
  let start (x : Nat) : Nat := if c.op = .mmaz then 0 else tileElement old x
  if tileGroup ea = .int then (packTile fun x => intElement a b ea eb c.luta c.lutb (start x) depth (x / 256) (x % 256), 0)
  else
    let f (x : Nat) : Nat × FloatFlags := floatElement a b ea eb (start x) depth (x / 256) (x % 256)
    (packTile fun x => (f x).1, orFlags (fun x => (f x).2) 4096)

/-! ### Results (R172) -/

def exactVal : ExactVal → FloatVal
  | .nan _ => .nan
  | .inf n _ => .inf n
  | .fin n m e _ => .fin n m e
/-- A converted element: its bits and flags. -/
def movcElement (f : FormX) (oscl a : Nat) : Nat × FloatFlags :=
  match f.et with
  | .int32 => (a, 0)
  | .int8 =>
    let v := toSigned 32 a
    if f.sat then (if v < -128 then (128, flagSAT) else if 127 < v then (127, flagSAT) else (ofSigned 8 v, 0)) else (a % 256, 0)
  | e => roundTo (formatOf e) f.rm f.sat 0 (exactMul (decodeFloat fp32Format a) (decodeFloat fp32Format oscl))
/-- Bytes of a value, little-endian, at an address. -/
def bytesAt (x v : Nat) : Nat → List (Nat × Byte)
  | 0 => []
  | n + 1 => (x, BitVec.ofNat 8 v) :: bytesAt (x + 1) (v / 256) n
/-- Row i of a result: its bytes in the order they are written, and its flags. -/
def movcRow (c : TileCommand) (base : Nat) (acc : TileBits) (i : Nat) : List (Nat × Byte) × FloatFlags :=
  let d := c.descA
  let f := c.form
  let row := rowAddr base d i
  if f.et = .e2m1x then
    let l := descBlock d
    let blocks := (List.range (blocksOf d 256)).map fun j =>
      blockEncode f.rm f.sat (fun _ => 0) ((List.range l).map fun x =>
        exactVal (exactMul (decodeFloat fp32Format (tileElement acc (256 * i + l * j + x))) (decodeFloat fp32Format (descOscl d))))
    let codes := (blocks.map Block.codes).flatten
    let packed := packLanes 4 (fun n => codes.getD n 0) 256
    (bytesAt row packed 128 ++ (blocks.zipIdx.map fun b => (scaleAddr base d i + b.2, BitVec.ofNat 8 b.1.scale))
      ++ (blocks.zipIdx.map fun b => (extraAddr base d i + b.2, BitVec.ofNat 8 b.1.extra)),
      blocks.foldl (fun fl b => fl ||| b.flags) 0)
  else
    let y (n : Nat) : Nat × FloatFlags := movcElement f (descOscl d) (tileElement acc (256 * i + n))
    let w := etBytes f.et
    (bytesAt row (packLanes (8 * w) (fun n => (y n).1) 256) (256 * w), orFlags (fun n => (y n).2) 256)
def movcBytes (c : TileCommand) (base : Nat) (acc : TileBits) : List (Nat × Byte) × FloatFlags :=
  let rows := (List.range 16).map (movcRow c base acc)
  ((rows.map Prod.fst).flatten, rows.foldl (fun fl r => fl ||| r.2) 0)
/-- The largest of |a| over the accumulator, before OSCL. -/
def amax (e : Et) (acc : TileBits) : Word64 :=
  let l := (List.range 4096).map (tileElement acc)
  if etInt e then BitVec.ofNat 64 (l.foldl (fun m a => Nat.max m (toSigned 32 a).natAbs) 0)
  else if l.any (fun a => (decodeFloat fp32Format a).isNan) then BitVec.ofNat 64 fp32Format.nan
  else BitVec.ofNat 64 (l.foldl (fun m a => Nat.max m (a % 2 ^ 31)) 0)

/-! ### Enqueue (R166, R167) -/

def State.descFault (s : State) (addr : Word64) (slot : BitVec 4) : State := s.raise { code := .desc, addr := addr, info := slot.setWidth 64 }
def State.operandFault (s : State) (a : Nat) : State := s.raise (faultAt .matrixOperand (BitVec.ofNat 64 a) 0)
/-- The pieces of a range by 64 KiB page: first byte and length. -/
def pagePieces (r : Range) : List (Nat × Nat) :=
  (List.range ((r.base + r.len - 1) / 65536 + 1 - r.base / 65536)).map fun i =>
    let lo := Nat.max r.base ((r.base / 65536 + i) * 65536)
    (lo, Nat.min (r.base + r.len) ((r.base / 65536 + i + 1) * 65536) - lo)
/-- Where ranges first touch each 64 KiB page; one of no length is placed as its first byte is. -/
def pageTouches : List Range → List Nat → List Nat
  | [], got => got.reverse
  | r :: rest, got =>
    let add (l : List Nat) (x : Nat × Nat) : List Nat := if l.any (fun y => y / 65536 == x.1 / 65536) then l else x.1 :: l
    pageTouches rest ((pagePieces { r with len := Nat.max 1 r.len }).foldl add got)
/-- Step 3 of R166, page by page, with the checks of R198 on a write. -/
def State.vaultPages (s : State) (kind : Kind) : List Nat → List (Nat × Leaf) → (List (Nat × Leaf) → State) → State
  | [], got, k => k got
  | x :: rest, got, k =>
    let va := BitVec.ofNat 64 x
    match s.translate s.cix (coreCluster s.cur.place) va kind with
    | .error f => s.raise f
    | .ok t =>
      if kind = .write ∧ t.leaf.st = .unsealing then s.stall
      else if kind = .write ∧ t.leaf.st = .sealed then s.raise (faultAt .sealed va 0)
      else if kind = .write ∧ hypId s.cur.hcur ≠ 0 ∧ t.leaf.hyp = false then s.raise (faultAt .hypPage va 0)
      else s.vaultPages kind rest (got ++ [(x / 65536, t.leaf)]) k
/-- A page of the window of a cluster of this module. -/
def State.inWindow (s : State) (l : ClusterLoc) (leaf : Leaf) : Bool :=
  leaf.plc == .vault && leaf.mid == s.mid && (match vaultOf leaf.frame with
    | some (c, _) => decide (c = l)
    | none => false)
/-- The module physical address of a byte of a vault operand. -/
def vaultAddr (v : List (Nat × Leaf)) (x : Nat) : Option (Nat × Leaf) :=
  (v.find? fun p => p.1 == x / 65536).map fun p => (p.2.frame + x % 2 ^ p.2.bits, p.2)
/-- The granule-bounded span of a window footprint, by physical address (R231). -/
def vaultSpan (v : List (Nat × Leaf)) (rs : List Range) (write : Bool) : List Range :=
  let pas := ((rs.map pagePieces).flatten.map fun x => (vaultAddr v x.1).toList.map Prod.fst ++ (vaultAddr v (x.1 + x.2 - 1)).toList.map Prod.fst).flatten
  match pas with
  | [] => []
  | p :: rest =>
    let lo := rest.foldl Nat.min p / 64 * 64
    let hi := (rest.foldl Nat.max p / 64 + 1) * 64
    [{ base := lo, len := hi - lo, write := write }]
/-- What a command holds in the vault scoreboard (R231): its core and stamp, whether it has started, its ranges. -/
structure VaultHold where
  place   : CoreLoc
  stamp   : Nat
  started : Bool
  ranges  : List Range
/-- What the vault scoreboard of a cluster holds. -/
def State.vaultHeld (s : State) (l : ClusterLoc) : List VaultHold :=
  ((s.strands.filter fun t => decide (coreCluster t.place = l)).map fun t =>
      t.tq.map fun c => { place := t.place, stamp := c.stamp, started := c.running, ranges := c.vranges : VaultHold }).flatten
    ++ (s.jobs.filter fun j => j.live && decide (coreCluster j.place = l)).map fun j =>
      { place := j.place, stamp := j.n, started := j.st == .running, ranges := j.vranges : VaultHold }
/-- The scoreboard of 32 ranges has no room for n more. -/
def State.vaultFull (s : State) (l : ClusterLoc) (n : Nat) : Bool :=
  n != 0 && decide (32 < ((s.vaultHeld l).map fun h => h.ranges.length).foldl Nat.add n)
/-- No command before this one conflicts on the window: of its own core, one enqueued earlier (R104); of another core, one that the arbiter has let
start, since the cluster accepts commands across cores in the arbiter's order (R169; assumption 30, DEDUCED). -/
def State.vaultClear (s : State) (place : CoreLoc) (stamp : Nat) (rs : List Range) : Bool :=
  (s.vaultHeld (coreCluster place)).all fun h =>
    !(if h.place = place then decide (h.stamp < stamp) else h.started) || !rangesConflict h.ranges rs

/-- Step 5: the command is captured and queued. -/
def State.enqueueTile (s : State) (c : TileCommand) (result : Bool) : State :=
  if 8 ≤ s.cur.tq.length ∨ (result ∧ s.cur.fBusy c.form.fd.toNat) ∨ s.vaultFull (coreCluster s.cur.place) c.vranges.length then s.stall
  else
    let t := if result then s.cur.addProducer c.form.fd.toNat s.fresh else s.cur
    { s with cur := { t with tq := t.tq ++ [c] }, fresh := s.fresh + 1 }.done
def State.tileCommand (s : State) (op : TileOp) (f : FormX) : TileCommand :=
  { stamp := s.fresh, op := op, form := f, descA := 0, descB := 0, la := 0, va := 0, vault := [], luta := s.src.luta, lutb := s.src.lutb
    ranges := [], vranges := [], running := false, bytesA := [], bytesB := [], void := false }
/-- Addresses of the operands (R171). -/
def State.tileLa (s : State) (f : FormX) : Nat := ((s.rdG f.gl).toNat + f.loff.toNat * 64) % 2 ^ 64
def State.tileVa (s : State) (f : FormX) : Nat := ((s.rdG f.gw).toNat + f.woff.toNat * 1024) % 2 ^ 64
def State.storeHolds (s : State) (rs : List Range) : Bool := rs.all fun r => decide (r.base + r.len ≤ s.storeLimit s.cur)

/-- A format that operands may have (R160). -/
def operandFmt (d : LineBits) : Option Et := (descFmt d).bind fun e => if tileGroup e = .none then none else some e
/-- The descriptor checks of MMA and MMAZ in R171's order: the slot that fails, or the two formats. -/
def mmaFormats (f : FormX) (a b : LineBits) : Except (BitVec 4) (Et × Et) :=
  if descKind a ≠ 1 then .error f.da
  else if descKind b ≠ 1 then .error f.db
  else match operandFmt a, operandFmt b with
    | some ea, some eb => if tileGroup ea ≠ tileGroup eb ∨ descKdep a ≠ descKdep b then .error f.db else .ok (ea, eb)
    | none, _ => .error f.da
    | _, none => .error f.db
/-- MMA and MMAZ at enqueue. -/
def enqueueMma (op : TileOp) (f : FormX) (s : State) : State :=
  let a := s.src.d' f.da.toNat
  let b := s.src.d' f.db.toNat
  match mmaFormats f a b with
  | .error slot => s.descFault 0 slot
  | .ok (ea, eb) =>
    let la := s.tileLa f
    let va := s.tileVa f
    if la % 64 ≠ 0 then s.raise (faultAt .align (BitVec.ofNat 64 la) 0)
    else if va % 1024 ≠ 0 then s.raise (faultAt .align (BitVec.ofNat 64 va) 0)
    else
      let ra := rangesA la a ea
      let rb := rangesB va b eb
      s.vaultPages .read (pageTouches rb []) [] fun pages =>
        if s.storeHolds ra = false then s.operandFault la
        else if pages.all (fun p => s.inWindow (coreCluster s.cur.place) p.2) = false then s.operandFault va
        else s.enqueueTile { s.tileCommand op f with descA := a, descB := b, la := la, va := va, vault := pages, ranges := ra
                                                     vranges := vaultSpan pages rb false } false
/-- MMA (R171). -/
def execMma (f : FormX) (s : State) : Host.Outcome State Fault Refusal := issue f.grd s (enqueueMma .mma f)
/-- MMAZ (R171). -/
def execMmaz (f : FormX) (s : State) : Host.Outcome State Fault Refusal := issue f.grd s (enqueueMma .mmaz f)
/-- MZERO (R171). -/
def execMzero (f : FormX) (s : State) : Host.Outcome State Fault Refusal := issue f.grd s fun s =>
  s.enqueueTile (s.tileCommand .mzero f) false

/-- MOVC (R172). -/
def execMovc (f : FormX) (s : State) : Host.Outcome State Fault Refusal := issue f.grd s fun s =>
  let d := s.src.d' f.dc.toNat
  if descKind d ≠ 1 ∨ descFmt d ≠ some f.et ∨ f.et = .lut4 then s.descFault 0 f.dc
  else
    let la := s.tileLa f
    let rc := rangesC la d f.et
    if la % 64 ≠ 0 then s.raise (faultAt .align (BitVec.ofNat 64 la) 0)
    else if s.storeHolds rc = false then s.operandFault la
    else s.enqueueTile { s.tileCommand .movc f with descA := d, la := la, ranges := rc } true
/-- MOVCV (R172, R381). -/
def execMovcv (f : FormX) (s : State) : Host.Outcome State Fault Refusal := issue f.grd s fun s =>
  let d := s.src.d' f.dc.toNat
  if descKind d ≠ 1 ∨ descFmt d ≠ some f.et ∨ f.et = .lut4 ∨ f.et = .e2m1x then s.descFault 0 f.dc
  else
    let va := s.tileVa f
    let rc := rangesC va d f.et
    if va % 1024 ≠ 0 then s.raise (faultAt .align (BitVec.ofNat 64 va) 0)
    else s.vaultPages .write (pageTouches rc []) [] fun pages =>
      if pages.all (fun p => s.inWindow (coreCluster s.cur.place) p.2) = false then s.operandFault va
      else s.enqueueTile { s.tileCommand .movcv f with descA := d, va := va, vault := pages, vranges := vaultSpan pages rc true } true

/-! ### The instructions that act in the scalar pipe (R174-R177) -/

/-- A plain load of n bytes, aligned, that the strand waits for (R174, R176). The spec orders no two of its checks; the model makes the alignment
check first, before the address's own (assumption 82). -/
def State.plainLoad (s : State) (va : Word64) (n : Nat) (k : State → Nat → State) : State :=
  if va.toNat % n ≠ 0 then s.raise (faultAt .align va 0)
  else s.mapped va .read fun t =>
    let second := s.granule (t.pa + 32)
    if 32 < n ∧ t.leaf.sync ∧ t.mid = s.mid ∧ second.tag ≠ .free then s.raise (faultAt .type va second.tag.code)
    else match s.l1Find t with
      | some l =>
        if s.lineQueued t then s.stall
        else
          let r := s.serveCopy l t n s.cur.hcur s.cur.view
          k r.1 r.2
      | none =>
        if t.mid ≠ s.mid then
          (if s.inOrder t then s.askData t .read [] (.read n) (fun v => k { s with cur := s.cur.hear s.answerRels } v) else s.stall)
        else s.atHome t .read fun s p =>
          let tag := if t.leaf.hyp then s.cur.hcur else 0
          let a := if 16 < n then ((s.useVersions p t.pa tag).bump, s.homeBytes p t.leaf.hsh t.pa n tag)
            else s.homeRead p t n s.cur.hcur (s.self 0 [] false)
          k { a.1 with cur := a.1.cur.hear (s.readRels p tag t.pa n) } a.2
/-- MDESC (R174). -/
def execMdesc (f : FormX) (s : State) : Host.Outcome State Fault Refusal := issue f.grd s fun s =>
  let a := s.rdG f.gc
  s.plainLoad a 64 fun s v =>
    let d := BitVec.ofNat 512 v
    if descOk d then { s with cur := s.cur.setD f.da.toNat d }.done else s.descFault a f.da
/-- The tile of MGEO for a linear index among p parts of K (R175). -/
def geoTile (d : LineBits) (p t : Nat) : Word64 :=
  let tm := (descM d + 15) / 16
  let tn := (descN d + 255) / 256
  if tm * tn * p ≤ t then BitVec.twoPow 64 63
  else
    let part := t % p
    let u := t / p
    let row0 := 16 * (if descTord d = 0 then u / tn else u % tm)
    let col0 := 256 * (if descTord d = 0 then u % tn else u / tm)
    BitVec.ofNat 64 (part * 2 ^ 60 + (Nat.min 256 (descN d - col0) - 1) * 2 ^ 52 + (Nat.min 16 (descM d - row0) - 1) * 2 ^ 48
      + col0 * 2 ^ 24 + row0)
/-- MGEO (R175). A result's descriptor may pass R163 with K = KSLC = 0, of which the spec states no quotient: the result is a free value
(assumption 64). -/
def execMgeo (f : FormX) (s : State) : Host.Outcome State Fault Refusal := issue f.grd s fun s =>
  let d := s.src.d' f.da.toNat
  if descKind d ≠ 1 then s.descFault 0 f.da
  else if descKslc d = 0 then s.bump.putG f.gc (Config.freeBits 64 s.fresh)
  else s.putG f.gc (geoTile d (descK d / descKslc d) (s.cur.strandIndex + (s.rdG f.gl).toNat * (s.cur.groupCount * s.cur.scnt)))
/-- LUTLD (R176). -/
def execLutld (f : FormX) (s : State) : Host.Outcome State Fault Refusal := issue f.grd s fun s =>
  s.plainLoad (s.rdG f.gc) 16 fun s v =>
    { s with cur := { s.cur with luta := BitVec.ofNat 64 v, lutb := BitVec.ofNat 64 (v / 2 ^ 64) } }.done
/-- MWAIT (R177). -/
def execMwait (f : FormX) (s : State) : Host.Outcome State Fault Refusal := issue f.grd s fun s =>
  if s.cur.tq = [] then s.done else s.stall
/-- MWT (R177). -/
def execMwt (f : FormX) (s : State) : Host.Outcome State Fault Refusal := issue f.grd s fun s =>
  { s with cur := { s.cur with weight := Nat.max 1 (Nat.min 15 (s.rdG f.gc).toNat) } }.done

/-! ### The matrix unit (R168-R170) -/

/-- The head of a strand's tile queue can start. -/
def State.tileReady (s : State) (t : Strand) : Bool := match t.tq with
  | [] => false
  | c :: _ => !c.running && s.footprintClear t c.stamp c.ranges && s.vaultClear t.place c.stamp c.vranges
/-- A command of the cluster occupies the array. -/
def State.arrayBusy (s : State) (l : ClusterLoc) : Bool :=
  s.strands.any fun t => decide (coreCluster t.place = l) && t.tq.any TileCommand.running

/-- Bytes of the ranges of an operand in the local store. -/
def State.localBytes (s : State) (rs : List Range) : List (Nat × Byte) :=
  let store := s.curCore.store
  (rs.map fun r => (List.range r.len).map fun i => (r.base + i, readByte store (r.base + i))).flatten
/-- Bytes of the ranges of an operand in the window; those of a line in error are free values. -/
def State.windowRead (s : State) (v : List (Nat × Leaf)) (rs : List Range) : List (Nat × Byte) :=
  (rs.map fun r => (List.range r.len).map fun i =>
    let x := r.base + i
    (x, match vaultAddr v x with
      | some (pa, _) => if s.isBad pa then Config.freeBits 8 (s.fresh + x) else readByte s.mem pa
      | none => 0)).flatten
/-- Lines in error among a window footprint: their pages are POISONED (R188). -/
def State.meetErrors (s : State) (v : List (Nat × Leaf)) (rs : List Range) : State :=
  (s.badLines.filter fun b => (rs.map pagePieces).flatten.any fun x => match vaultAddr v x.1 with
      | some (pa, _) => decide (pa < b + 128) && decide (b < pa + x.2)
      | none => false).foldl (fun s b =>
    match v.find? fun p => decide (p.2.frame / 2 ^ p.2.bits = b / 2 ^ p.2.bits) with
    | some (i, l) => s.meetError { va := BitVec.ofNat 64 (i * 65536), mid := l.mid, pa := b, leaf := l }
    | none => s) s
def tileOperandB (c : TileCommand) : List Range := match descFmt c.descB with
  | some e => rangesB c.va c.descB e
  | none => []
/-- The issuing strand's head command starts: its operands are read. -/
def startTile (s : State) : State := match s.cur.tq with
  | [] => s
  | c :: rest =>
    let c1 := if c.op = .mma ∨ c.op = .mmaz then
        { c with running := true, bytesA := s.localBytes c.ranges, bytesB := s.windowRead c.vault (tileOperandB c) }
      else { c with running := true }
    let s1 := if c.op = .mma ∨ c.op = .mmaz then s.meetErrors c.vault (tileOperandB c) else s
    { s1 with cur := { s1.cur with tq := c1 :: rest }, fresh := s1.fresh + 1 }

/-- TILE_COMMAND_START: the arbiter goes on with the core it is at while its credit lasts and its head is ready, else moves on to the next core
whose head is (R170); the credit left is gone. -/
def execTileCommandStart (l : ClusterLoc) (s : State) : Host.Outcome State Fault Refusal :=
  let x := s.turns' l
  let at_ (n : Nat) : Option Strand := s.commandsAt { site := l.site, cluster := l.cluster, core := n } fun t => s.tileReady t
  if s.arrayBusy l then .next s
  else match at_ x.place with
    | some t =>
      if 0 < x.credit then .next ((s.setTurns { x with credit := x.credit - 1 }).onStrand t.id startTile)
      else startNext x at_ s
    | none => startNext x at_ s
where
  startNext (x : Turns) (at_ : Nat → Option Strand) (s : State) : Host.Outcome State Fault Refusal :=
    match inRotation 0 8 x.place fun n => (at_ n).isSome with
    | none => if x.credit = 0 then .next s else .next (s.setTurns { x with credit := 0 })
    | some n => match at_ n with
      | none => .next s
      | some t => .next ((s.setTurns { x with place := n, credit := t.weight - 1 }).onStrand t.id startTile)

def Strand.accKind (t : Strand) (n : Nat) : AccKind := (t.ckind[n]?).getD .clear
def Strand.setAcc (t : Strand) (n : Nat) (x : TileBits) (k : AccKind) : Strand := { t.setC n x with ckind := t.ckind.setIfInBounds n k }
/-- MMA and MMAZ retire; a command of the other kind leaves undefined values in the elements (R87). -/
def retireMma (c : TileCommand) (ea eb : Et) (s : State) : State :=
  let n := c.form.ca.toNat
  let kind : AccKind := if tileGroup ea = .int then .integer else .float
  let was := s.cur.accKind n
  let r := mmaResult c ea eb (s.cur.c' n)
  let x := if c.op = .mma ∧ was ≠ .clear ∧ was ≠ kind then Config.freeBits 131072 s.fresh else r.1
  { s with cur := { s.cur.setAcc n x kind with vflags := s.cur.vflags ||| r.2 }, fresh := s.fresh + 1 }
/-- The bytes of a row written to the window, with a watch for each 16-byte chunk (R197). -/
def State.windowWrite (s : State) (v : List (Nat × Leaf)) : List (Nat × Byte) → State
  | [] => s
  | (x, b) :: rest =>
    match vaultAddr v x with
    | none => s.windowWrite v rest
    | some (pa, leaf) =>
      let s := match s.part? s.cix with
        | some p => if pa % 16 = 0 then s.watch p pa 16 false (s.self 0 [] false) else s
        | none => s
      (s.writeMem (some leaf.entry) leaf.hsh pa 1 b.toNat).windowWrite v rest
/-- The command at the head retires (R168): what it wrote counts unless it was voided. -/
def retireTile (s : State) : State := match s.cur.tq with
  | [] => s
  | c :: rest =>
    if c.running = false then s else
    let s := { s with cur := { s.cur with tq := rest } }
    let n := c.form.ca.toNat
    if c.void then
      (if c.op = .movc ∨ c.op = .movcv then { s with cur := s.cur.withdraw c.form.fd.toNat c.stamp } else s)
    else
    match c.op with
    | .mzero => { s with cur := s.cur.setAcc n 0 .clear }
    | .movc =>
      let acc := s.cur.c' n
      let r := movcBytes c c.la acc
      let k := s.curCore
      let s := s.setCore { k with store := writeBytes k.store r.1 }
      { s with cur := { (s.cur.deliver c.form.fd.toNat c.stamp (amax c.form.et acc)) with vflags := s.cur.vflags ||| r.2 } }
    | .movcv =>
      let acc := s.cur.c' n
      let r := movcBytes c c.va acc
      let s := s.windowWrite c.vault r.1
      { s with cur := { (s.cur.deliver c.form.fd.toNat c.stamp (amax c.form.et acc)) with vflags := s.cur.vflags ||| r.2 } }
    | _ => match descFmt c.descA, descFmt c.descB with
      | some ea, some eb => retireMma c ea eb s
      | _, _ => s
/-- TILE_COMMAND_RETIRE. -/
def execTileCommandRetire (core : CoreLoc) (s : State) : Host.Outcome State Fault Refusal :=
  .next (match s.commandsAt core fun t => t.tq.any TileCommand.running with
    | some t => s.onStrand t.id retireTile
    | none => s)

end Sys2Proof.Machine
end

