-- ==== Sys2Proof/Machine/Copy.lean ====
section
/-! DEFINITION. Copy jobs (spec/11_copy.md R227-R244): the checks at enqueue, the engine of a cluster, its chunks, and how a job ends. -/

namespace Sys2Proof.Machine

/-! ### Layouts and rows (R228, R238-R242) -/

def descRows (d : LineBits) : Nat := descField d 8 4
def descBlk (d : LineBits) : Nat := descField d 4 4
def descSrcStr (d : LineBits) : Nat := if descKind d = 2 then descField d 0x0C 4 else 0
def descDstStr (d : LineBits) : Nat := if descKind d = 2 then descField d 0x10 4 else 0
/-- The cores that CPYC deals to, ascending. -/
def maskCores (m : Nat) : List Nat := (List.range 8).filter fun i => m.testBit i
def descCores (d : LineBits) : List Nat := maskCores (descField d 1 1)
/-- Rows and bytes of a row. -/
def copyRows (d : LineBits) (len : Nat) : Nat × Nat := if descKind d = 2 then (descRows d, descBlk d) else (if len = 0 then 0 else 1, len)
/-- What the addresses and lengths of a copy are multiples of (R229): 16, or the size of CPYR's elements. -/
def copyUnit (op : CopyOp) (f : FormC) : Nat := if op = .cpyr then etBytes f.et else 16
/-- The core and deal row of row j of CPYC: J := G(GP) + j goes to core p_(J mod c), at row floor(J / c) (R240). -/
def dealRow (d : LineBits) (gp : Word64) (j : Nat) : Nat × Nat :=
  let cs := descCores d
  let deal := gp.toNat + j
  ((cs[deal % cs.length]?).getD 0, deal / cs.length)

/-- Index j of the list of CPYG and CPYS. -/
def State.copyIndex (s : State) (j : Job) (r : Nat) : Nat := s.readStore j.place (j.gp.toNat + 4 * r) 4
/-- Where row r of a job starts. -/
def State.rowSource (s : State) (j : Job) (r : Nat) : Nat :=
  (j.src.toNat + (if j.op = .cpyg then s.copyIndex j r else r) * descSrcStr j.desc) % 2 ^ 64
def State.rowDest (s : State) (j : Job) (r : Nat) : Nat :=
  let n := match j.op with
    | .cpys => s.copyIndex j r
    | .cpyc => (dealRow j.desc j.gp r).2
    | _ => r
  (j.dst.toNat + n * descDstStr j.desc) % 2 ^ 64

/-! ### Enqueue (R229) -/

/-- Rows of a run or layout as ranges. -/
def copyRanges (a str rows len : Nat) (write : Bool) : List Range :=
  (List.range rows).map fun r => { base := (a + r * str) % 2 ^ 64, len := len, write := write : Range }
/-- Does a core hold a strand of the issuing strand's launch (R181, R229)? -/
def State.peerHolds (s : State) (who : StrandId) (c : CoreLoc) : Bool :=
  s.coreEnabled c && s.strands.any fun t => t.onCore && decide (t.place = c) && decide (t.id.grp.cix = who.grp.cix) && decide (t.id.grp.lid = who.grp.lid)
/-- Step 3 of R229 for one side: every page is translated and lies on VAULT pages of the cluster's own window. -/
def State.copyVault (s : State) (kind : Kind) : List Nat → List (Nat × Leaf) → (List (Nat × Leaf) → State) → State
  | [], got, k => k got
  | x :: rest, got, k =>
    let va := BitVec.ofNat 64 x
    match s.translate s.cix (coreCluster s.cur.place) va kind with
    | .error f => s.raise f
    | .ok t =>
      if s.inWindow (coreCluster s.cur.place) t.leaf then s.copyVault kind rest (got ++ [(x / 65536, t.leaf)]) k
      else s.raise (faultAt .pagePerm va kind.code)
/-- The first of some addresses that is not a multiple of n. -/
def firstOdd (n : Nat) (l : List Word64) : Option Word64 := l.find? fun a => a.toNat % n != 0
/-- The first of some ranges that does not lie below the entry's local store; one of no length is placed as its first byte is (R237). -/
def State.beyondStore (s : State) (rs : List Range) : Option Range := rs.find? fun r => decide (s.storeLimit s.cur < r.base + Nat.max 1 r.len)
/-- The cores of a job's destination in local stores. -/
def copyCores (op : CopyOp) (f : FormC) (d : LineBits) : List Nat := match op with
  | .cpyc => descCores d
  | .cpym => maskCores f.mc.toNat
  | _ => []

/-- The units of a row, each moved in one step: its 16-byte chunks (R233); those of a CPYR lie where the source's aligned chunks do, and so the first and
the last may be shorter, or empty. -/
def Job.perRow (j : Job) : Nat :=
  let len := (copyRows j.desc j.len).2
  if j.op = .cpyr then (if len = 0 then 0 else (len + 15) / 16 + 1) else len / 16
def Job.units (j : Job) : Nat := (copyRows j.desc j.len).1 * j.perRow
/-- Where unit u of row r begins in its row, and with u + 1 where it ends. -/
def Job.unitAt (j : Job) (r u : Nat) : Nat :=
  Nat.min (copyRows j.desc j.len).2 (16 * u - (if j.op = .cpyr then (j.src.toNat + r * descSrcStr j.desc) % 16 else 0))
/-- The pieces of rows that units make up: row, offset, bytes. -/
def Job.rowPieces (j : Job) (run : Nat × Nat) : List (Nat × Nat × Nat) :=
  let per := j.perRow
  (List.range ((run.1 + run.2 - 1) / per + 1 - run.1 / per)).map fun i =>
    let r := run.1 / per + i
    let lo := j.unitAt r (Nat.max run.1 (r * per) - r * per)
    (r, lo, j.unitAt r (Nat.min (run.1 + run.2) ((r + 1) * per) - r * per) - lo)
/-- The local store's side of some units of a job: what they read and write there, and the entries of an index list (R230). CPYS, whose later rows stand
over its earlier ones, reads the whole list until its last unit (R241). -/
def Job.footprint (j : Job) (pending : List (Nat × Nat)) : List Range :=
  let d := j.desc
  (if j.op = .cpys ∧ pending ≠ [] then [{ base := j.gp.toNat, len := 4 * descRows d, write := false }] else [])
  ++ ((pending.map j.rowPieces).flatten.map fun x =>
    let at_ (a : Word64) (n str : Nat) (write : Bool) : Range := { base := (a.toNat + n * str + x.2.1) % 2 ^ 64, len := x.2.2, write := write }
    let own : Bool := match j.op with
      | .cpyc => (dealRow d j.gp x.1).1 == j.place.core
      | .cpym => j.form.mc.toNat.testBit j.place.core
      | _ => true
    (if j.form.ss = .ls then [at_ j.src x.1 (descSrcStr d) false] else [])
      ++ (if j.op = .cpyg then [{ base := j.gp.toNat + 4 * x.1, len := 4, write := false : Range }] else [])
      ++ (if j.form.dsp = .ls ∧ own then [at_ j.dst (if j.op = .cpyc then (dealRow d j.gp x.1).2 else x.1) (descDstStr d) true] else [])).flatten
/-- A job with its pending units, and what it still holds: reads are released when they are done and writes when they are performed, a range of the
vault scoreboard when all of it is. -/
def Job.withPending (j : Job) (pending : List (Nat × Nat)) : Job :=
  { j with pending := pending, ranges := j.footprint pending, vranges := if pending = [] then [] else j.vranges }

/-- Steps 6 and 7. -/
def State.enqueueJob (s : State) (op : CopyOp) (f : FormC) (d : LineBits) (len : Nat) (vranges : List Range) : State :=
  let queued := countWhere (fun (j : Job) => j.st == .queued && decide (j.who = s.cur.id)) s.jobs
  if 8 ≤ queued ∨ s.vaultFull (coreCluster s.cur.place) vranges.length then s.stall
  else
    let jid := nextTag s.cur.jseq
    let j : Job :=
      { n := s.fresh, who := s.cur.id, place := s.cur.place, jid := jid, op := op, form := f, desc := d, src := s.rdG f.gs, dst := s.rdG f.gd
        len := len, gp := s.rdG f.gp, handle := s.rdG f.gk, hyp := s.cur.hcur, st := .queued, accepted := none, pending := []
        ranges := [], vranges := vranges, inStore := false, pages := [], ending := none, view := s.cur.jobView }
    let held := j.footprint (if j.units = 0 then [] else [(0, j.units)])
    { s with jobs := s.jobs ++ [{ j with ranges := held, inStore := held != [] }], cur := { s.cur with jseq := jid }, fresh := s.fresh + 1 }.done

/-- A copy instruction at enqueue. A length in a register that exceeds 2^32 is checked with the layout, ahead of the alignment (assumption 80, DESIGN
CHOICE: R227 gives that check no place among those of R229). -/
def enqueueCopy (op : CopyOp) (f : FormC) (s : State) : State :=
  let d := s.src.d' f.ds.toNat
  let kind := descKind d
  let len := if f.gn = 0 then f.len.toNat else (s.rdG f.gn).toNat
  let indexed := op == .cpyg || op == .cpys
  let badLayout := (kind != 0 && kind != 2) || (kind == 2 && (f.gn != 0 || f.len != 0)) || ((indexed || op == .cpyc) && kind != 2)
    || (op == .cpyc && (descCores d).isEmpty) || (f.gn != 0 && decide (2 ^ 32 < len))
  if badLayout then s.descFault 0 f.ds
  else
    let src := s.rdG f.gs
    let dst := s.rdG f.gd
    let unit := copyUnit op f
    match firstOdd unit ([src, dst] ++ (if kind = 0 then [BitVec.ofNat 64 len] else []) ++ (if indexed then [s.rdG f.gp] else [])) with
    | some a => s.raise (faultAt .align a 0)
    | none =>
      let rl := if kind = 0 then (1, len) else copyRows d len
      let srcRows := copyRanges src.toNat (descSrcStr d) rl.1 rl.2 false
      let dstRows := if op = .cpyc then
          (List.range rl.1).map fun j => { base := (dst.toNat + (dealRow d (s.rdG f.gp) j).2 * descDstStr d) % 2 ^ 64, len := rl.2, write := true : Range }
        else copyRanges dst.toNat (descDstStr d) rl.1 rl.2 true
      let list : List Range := if indexed then [{ base := (s.rdG f.gp).toNat, len := 4 * rl.1, write := false }] else []
      s.copyVault .read (if f.ss = .vault ∧ op ≠ .cpyg then pageTouches srcRows [] else []) [] fun vs =>
        s.copyVault .write (if f.dsp = .vault ∧ op ≠ .cpys then pageTouches dstRows [] else []) [] fun vd =>
          match s.beyondStore ((if f.ss = .ls then srcRows else []) ++ list) with
          | some r => s.raise (faultAt .pagePerm (BitVec.ofNat 64 r.base) 0)
          | none => match s.beyondStore (if f.dsp = .ls then dstRows else []) with
            | some r => s.raise (faultAt .pagePerm (BitVec.ofNat 64 r.base) 1)
            | none => match (copyCores op f d).find? fun c => !s.peerHolds s.cur.id { s.cur.place with core := c } with
              | some c => s.raise { code := .peerGone, addr := dst, info := BitVec.ofNat 64 c }
              | none =>
                let window (write : Bool) : List Range :=
                  let l := coreCluster s.cur.place
                  [{ base := vaultPa l, len := s.winOf l * 2 ^ 20, write := write }]
                let vranges := if kind = 0 ∧ len = 0 then [] else (if f.ss = .vault then (if op = .cpyg then window false else vaultSpan vs srcRows false) else [])
                  ++ (if f.dsp = .vault then (if op = .cpys then window true else vaultSpan vd dstRows true) else [])
                s.enqueueJob op f d len vranges

/-- CPY (R238). -/
def execCpy (f : FormC) (s : State) : Host.Outcome State Fault Refusal := issue f.grd s (enqueueCopy .cpy f)
/-- CPYC (R240). -/
def execCpyc (f : FormC) (s : State) : Host.Outcome State Fault Refusal := issue f.grd s (enqueueCopy .cpyc f)
/-- CPYM (R238). -/
def execCpym (f : FormC) (s : State) : Host.Outcome State Fault Refusal := issue f.grd s (enqueueCopy .cpym f)
/-- CPYG (R241). -/
def execCpyg (f : FormC) (s : State) : Host.Outcome State Fault Refusal := issue f.grd s (enqueueCopy .cpyg f)
/-- CPYS (R241). -/
def execCpys (f : FormC) (s : State) : Host.Outcome State Fault Refusal := issue f.grd s (enqueueCopy .cpys f)
/-- CPYR (R242). -/
def execCpyr (f : FormC) (s : State) : Host.Outcome State Fault Refusal := issue f.grd s (enqueueCopy .cpyr f)

/-! ### CPYQ, CPYK (R243, R244) -/

/-- The issuing strand's job of an identifier: the latest that the engine remembers. -/
def State.jobOf (s : State) (jid : BitVec 16) : Option Job := s.jobs.reverse.find? fun j => decide (j.who = s.cur.id) && j.jid == jid
def jobWord (j : Job) : Nat := match j.st with
  | .queued => 1
  | .running => 2
  | .done => 3
  | .faulted c => 4 + faultCodeNat c * 256
  | .ended => 5
def execCpyq (f : FormC) (s : State) : Host.Outcome State Fault Refusal := issue f.grd s fun s =>
  let id := (s.rdG f.gp).setWidth 16
  if id = 0 then s.putG f.gd (s.cur.jseq.setWidth 64)
  else s.putG f.gd (BitVec.ofNat 64 (((s.jobOf id).map jobWord).getD 0))
/-- A job's requests that other modules have not answered. -/
def State.jobOut (s : State) (j : Job) : Bool := s.net.any fun r => decide (r.party = .job j.n) && r.writes && !r.done
/-- CPYK: the job stops at the next chunk, ends once the writes it has sent are performed, and then the instruction completes. -/
def execCpyk (f : FormC) (s : State) : Host.Outcome State Fault Refusal := issue f.grd s fun s =>
  let id := (s.rdG f.gp).setWidth 16
  match if id = 0 then none else s.jobOf id with
  | none => s.done
  | some j =>
    if j.live = false then s.done
    else if s.jobOut j = false then (s.endJob ((j.ending).getD (f.len == 1)) j).done
    else (s.updJob j.n fun j => { j.withPending [] with ending := some ((j.ending).getD (f.len == 1)) }).stall

/-! ### The engine (R232, R239) -/

/-- A job that may be combined with others. -/
def Job.combines (j : Job) : Bool := j.op == .cpy && j.form.dsp == .ls && j.form.ss != .ls
def Job.sameSource (a b : Job) : Bool :=
  a.combines && b.combines && a.src == b.src && a.form.ss == b.form.ss && a.len == b.len && a.desc == b.desc
    && a.who.grp.cix == b.who.grp.cix && decide (coreCluster a.place = coreCluster b.place) && decide (a.place ≠ b.place)
def Job.isRunning (j : Job) : Bool := j.st == .running
/-- The first queued job of a core, when its footprints are clear. -/
def State.jobReady (s : State) (c : CoreLoc) : Option Job :=
  match s.jobs.find? fun j => j.st == .queued && decide (j.place = c) with
  | none => none
  | some j => match s.strand? j.who with
    | none => none
    | some t => if s.footprintClear t j.n j.ranges ∧ s.vaultClear c j.n j.vranges then some j else none
/-- COPY_JOB_START: the engine accepts the next core's job in rotation. -/
def execCopyJobStart (l : ClusterLoc) (s : State) : Host.Outcome State Fault Refusal :=
  let x := s.turns' l
  let at_ (n : Nat) : Option Job := s.jobReady { site := l.site, cluster := l.cluster, core := n }
  .next (match inRotation 0 8 x.copy fun n => (at_ n).isSome with
    | none => s
    | some n => match at_ n with
      | none => s
      | some j =>
        let now := s.clk.toNat
        let mate := s.jobs.find? fun k => k.isRunning && k.sameSource j && (match k.accepted with
          | some (_, at0) => decide (now ≤ at0 + 64)
          | none => false)
        let acc := ((mate.bind Job.accepted).getD (j.n, now))
        (s.setTurns { x with copy := n }).updJob j.n fun j =>
          { j with st := .running, accepted := some acc, pending := if j.units = 0 then [] else [(0, j.units)] })

/-! ### Chunks (R233, R238-R242) -/

/-- The number of pending units, the n-th of them, and the list without one. -/
def pendingCount (l : List (Nat × Nat)) : Nat := l.foldl (fun n r => n + r.2) 0
def nthPending : List (Nat × Nat) → Nat → Option Nat
  | [], _ => none
  | r :: rest, n => if n < r.2 then some (r.1 + n) else nthPending rest (n - r.2)
def isPending (l : List (Nat × Nat)) (k : Nat) : Bool := l.any fun r => decide (r.1 ≤ k) && decide (k < r.1 + r.2)
def dropPending (l : List (Nat × Nat)) (k : Nat) : List (Nat × Nat) :=
  (l.map fun r => if r.1 ≤ k ∧ k < r.1 + r.2 then [(r.1, k - r.1), (k + 1, r.1 + r.2 - (k + 1))].filter (fun q => q.2 != 0) else [r]).flatten

/-- A job fails (R235): it halts, its counter is poisoned, and a JOB record goes to the foreman. -/
def State.failJob (s : State) (j : Job) (code : FaultCode) (va : Nat) : State :=
  let s := (s.closeJob j (.faulted code)).postJob j .poison
  sendRecord s j.who.grp.cix none { blankRecord .job with
    sub := BitVec.ofNat 8 (faultCodeNat code), sidx := j.who.sidx, lid := BitVec.ofNat 32 j.who.grp.lid, addr := BitVec.ofNat 64 va
    info := j.jid.setWidth 64, ghnd := groupHandle j.who.grp, loc := locWord s.mid j.place, hyp := j.hyp, clk := s.clk }
/-- A page of a job as it translated it when it first touched it, or as it translates it now, with the checks of R198 (R233); none for a page that is
UNSEALING, which the job waits for. -/
def State.jobPage (s : State) (j : Job) (sp : Space) (a : Nat) (kind : Kind) : Except (Option FaultCode) (State × Target) :=
  let va := BitVec.ofNat 64 a
  match j.pages.find? fun x => x.1 == (kind == .write) && x.2.vbase == a / 2 ^ x.2.bits * 2 ^ x.2.bits with
  | some x => .ok (s, { va := va, mid := x.2.mid, pa := x.2.frame + a % 2 ^ x.2.bits, leaf := x.2 })
  | none => match s.translate j.who.grp.cix (coreCluster j.place) va kind with
    | .error f => .error (some f.code)
    | .ok t =>
      if kind = .write ∧ t.leaf.st = .unsealing then .error none
      else if kind = .write ∧ t.leaf.st = .sealed then .error (some .sealed)
      else if kind = .write ∧ hypId j.hyp ≠ 0 ∧ t.leaf.hyp = false then .error (some .hypPage)
      else if sp = .vault ∧ s.inWindow (coreCluster j.place) t.leaf = false then .error (some .pagePerm)
      else .ok (s.updJob j.n fun j => { j with pages := (kind == .write, t.leaf) :: j.pages }, t)
/-- Where a unit of a job lies, its granule being FREE and its module not lost. -/
def State.jobTarget (s : State) (j : Job) (sp : Space) (a : Nat) (kind : Kind) : Except (Option FaultCode) (State × Target) :=
  match s.jobPage j sp a kind with
  | .error e => .error e
  | .ok (s, t) =>
    if t.leaf.sync ∧ t.mid = s.mid ∧ (s.granule t.pa).tag ≠ .free then .error (some .type)
    else if t.mid ≠ s.mid ∧ s.peerLost t.mid then .error (some .pagePerm)
    else .ok (s, t)
/-- A request of a job. -/
def State.jobRequest (s : State) (j : Job) (t : Target) (kind : RequestKind) (reply : Reply) : Request :=
  { id := s.fresh, party := .job j.n, loc := locWord s.mid j.place, sig := j.jid, cix := j.who.grp.cix, target := t, kind := kind, reply := reply
    hyp := j.hyp, tag := none, pc := 0, number := s.fresh, view := j.view, rels := [], fill := false, skip := [], done := false, seen := 0, bad := none, value := 0
    line := 0 }
def State.sendJob (s : State) (j : Job) (t : Target) (kind : RequestKind) (reply : Reply) (a : RemoteAccess) : State :=
  let p := { s.packetOf t.mid j.who.grp.cix (.job j.n) (locWord s.mid j.place) t.pa j.hyp (some t.leaf) a with tag := j.jid }
  { s with net := s.net ++ [s.jobRequest j t kind reply], fresh := s.fresh + 1, out := s.out ++ [.request t.mid (.job j.n) p] }
/-- A job fails by an uncorrectable error at a home here: the page is POISONED and the scrivener notes it (R188). -/
def State.failBad (s : State) (j : Job) (p : Part) (t : Target) : State :=
  (s.meetErrorOf p (locWord s.mid j.place) t).failJob j .pagePerm t.va.toNat
/-- A job fails by another module's answer (R233). -/
def State.failAnswer (s : State) (j : Job) (r : Request) (b : FaultCode × Bool) : State :=
  (if b.2 then s.poisonPage r.target.leaf.entry else s).failJob j b.1 r.target.va.toNat
/-- A home of this module ready for a job's unit: its line at hand; of a part that is not current, HBM itself (R252). -/
def State.jobHome (s : State) (p : Part) (t : Target) (write : Bool) : Option (State × Part × Target) :=
  if p.current then (s.sliceVisit (p.home t.pa) t write).map fun s => (s, p, t)
  else if (vaultOf t.pa).isSome then some (s, p.bare, { t with pa := s.imagePa p t.pa })
  else some (s, p, t)

/-- What reading a unit comes to: not yet, the end of the job, or its value. -/
inductive ChunkRead
  | wait (s : State)
  | fails (fail : State → Job → State)
  | value (s : State) (v : Nat)
/-- What a job may read of bytes of value v that the strand which enqueued it has written, where nothing orders the write before the job: the write, or
what it replaced, an acknowledgement ordering nothing for the job (R215, R225). How many of these writes it misses is a free value. -/
def State.jobMayRead (s : State) (p : Part) (j : Job) (t : Target) (n : Nat) (w : Writer) (v : Nat) : Nat :=
  let tag := if t.leaf.hyp then j.hyp else 0
  let mine := s.recent.filter fun r =>
    r.write && decide (r.party = .strand j.who) && overlaps t.pa n r.pa r.size && !r.before w && s.tagsMeet p t.pa r.tag tag false
  if mine = [] then v else undoWrites t.pa n ((Config.freeBits 16 s.fresh).toNat % (mine.length + 1)) mine v
/-- Unit k of a job's source: n bytes. -/
def State.readChunk (s : State) (j : Job) (k n a : Nat) : ChunkRead :=
  if j.form.ss = .ls then .value s (s.readStore j.place a n)
  else match s.jobTarget j j.form.ss a .read with
    | .error none => .wait s
    | .error (some c) => .fails fun s j => s.failJob j c a
    | .ok (s, t) =>
      if t.mid ≠ s.mid then
        match s.net.find? fun r => decide (r.party = .job j.n) && r.reply == .copy k with
        | none => .wait (s.sendJob j t (.read n) (.copy k) (.read n))
        | some r =>
          if r.done = false then .wait s
          else match r.bad with
            | some b => .fails fun s j => s.failAnswer j r b
            | none => .value { s with net := s.net.filter fun q => q.id != r.id } (r.value.toNat % 2 ^ (8 * n))
      else match s.part? j.who.grp.cix with
        | none => .fails fun s j => s.failJob j .pagePerm a
        | some p => match s.jobHome p t false with
          | none => .wait s
          | some (s, p, t) =>
            if s.isBad t.pa then .fails fun s j => s.failBad j p t
            else
              let w := requestWriter s (s.jobRequest j t (.read n) .none)
              let got := s.homeRead p t n j.hyp w
              .value got.1 (s.jobMayRead p j t n w got.2)

/-- Do the addresses of a job's source cover a unit of its destination, in the same space? Where both are one store, or global memory, the bytes are
then undefined (R233). -/
def State.overlapped (s : State) (j : Job) (a n : Nat) : Bool :=
  let rl := copyRows j.desc j.len
  ((j.form.ss == .ls) == (j.form.dsp == .ls))
    && (List.range rl.1).any fun r => let b := s.rowSource j r; decide (a < b + rl.2) && decide (b < a + n)
/-- A later row of CPYS stands over this one (R241). -/
def State.overridden (s : State) (j : Job) (r a : Nat) : Bool :=
  j.op == .cpys && (List.range (descRows j.desc)).any fun q =>
    decide (r < q) && (let b := s.rowDest j q; decide (b ≤ a) && decide (a < b + descBlk j.desc))
/-- Local stores that row r of a job is written to. -/
def destCores (j : Job) (r : Nat) : List Nat := match j.op with
  | .cpym => maskCores j.form.mc.toNat
  | .cpyc => [(dealRow j.desc j.gp r).1]
  | _ => [j.place.core]
/-- Bytes of a job written to a page: a chunk, or one element of a reduction (R242); none while it has to wait. -/
def State.writePiece (s : State) (j : Job) (a n v : Nat) : Option State :=
  let covered := s.overlapped j a n
  let data := BitVec.ofNat 128 (if covered then (Config.freeBits (8 * n) s.fresh).toNat else v)
  let s := s.bump
  match s.jobTarget j j.form.dsp a .write with
  | .error none => none
  | .error (some c) => some (s.failJob j c a)
  | .ok (s, t) =>
    let reduces := j.op == .cpyr && !covered
    let kind : RequestKind := if reduces then .reduce j.form.rop j.form.et data else .write n data
    if t.mid ≠ s.mid then some (s.sendJob j t kind .none (if reduces then .reduce j.form.rop j.form.et data else .write n data))
    else match s.part? j.who.grp.cix with
      | none => some (s.failJob j .pagePerm a)
      | some p => match s.jobHome p t true with
        | none => none
        | some (s, p, t) => some (if s.isBad t.pa then s.failBad j p t else s.performHere p (s.jobRequest j t kind .none))
/-- The pieces of a unit written one after the other, while the job runs; a piece that waits leaves them all for later. -/
def State.writePieces (s : State) (n job : Nat) : List (Nat × Nat) → Option State
  | [] => some s
  | (a, v) :: rest => match s.jobs.find? fun j => j.n == job with
    | some j => if j.isRunning then (s.writePiece j a n v).bind fun s => s.writePieces n job rest else some s
    | none => some s
/-- Unit k of a job written: n bytes of row r. -/
def State.writeChunk (s : State) (j : Job) (k r a n v : Nat) : State :=
  let mark (s : State) : State := s.updJob j.n fun j => j.withPending (if j.st = .running then dropPending j.pending k else [])
  if n = 0 ∨ s.overridden j r a then mark s
  else if j.form.dsp = .ls then
    match (destCores j r).find? fun c => c != j.place.core && !s.peerHolds j.who { j.place with core := c } with
    | some _ => s.failJob j .peerGone a
    | none =>
      let value (c : Nat) : Nat := if s.overlapped j a n ∧ c = j.place.core then (Config.freeBits (8 * n) s.fresh).toNat else v
      mark ((destCores j r).foldl (fun s c => s.writeStore { j.place with core := c } a n (value c)) s.bump)
  else
    let e := if j.op = .cpyr then etBytes j.form.et else n
    match s.writePieces e j.n ((List.range (n / e)).map fun i => (a + e * i, v / 256 ^ (e * i) % 256 ^ e)) with
    | none => s
    | some s => mark s

/-- The jobs that take unit k with a job: those combined with it. -/
def State.teamOf (s : State) (j : Job) (k : Nat) : List Job :=
  if j.combines then s.jobs.filter fun q => q.isRunning && q.combines && q.accepted == j.accepted && isPending q.pending k else [j]
/-- May a job's chunks run? Those of one that may be combined wait until no other can join it. -/
def State.chunksOpen (s : State) (j : Job) : Bool := !j.combines || (match j.accepted with
  | some (_, at0) => decide (at0 + 64 < s.clk.toNat)
  | none => true)
/-- The write of a job that another module has refused (R233). -/
def State.refusedWrite (s : State) (j : Job) : Option (Request × FaultCode × Bool) :=
  (s.net.filter fun r => decide (r.party = .job j.n) && r.writes && r.done).findSome? fun r => r.bad.map fun b => (r, b)
/-- Unit k of a job and of those that its reading serves. -/
def State.runChunk (s : State) (j : Job) (team : List Job) (k : Nat) : State :=
  let r := k / j.perRow
  let off := j.unitAt r (k % j.perRow)
  let n := j.unitAt r (k % j.perRow + 1) - off
  if n = 0 then team.foldl (fun s q => s.writeChunk q k r 0 0 0) s
  else match s.readChunk j k n ((s.rowSource j r + off) % 2 ^ 64) with
  | .wait s => s
  | .fails f => team.foldl f s
  | .value s v => team.foldl (fun s q => s.writeChunk q k r ((s.rowDest q r + off) % 2 ^ 64) n v) s
/-- Is a unit's source a page of hypothesis versions? Only there do readers of different hypotheses read differently (R382). -/
def State.sourceHyp (s : State) (j : Job) (k : Nat) : Bool :=
  let r := k / j.perRow
  match s.translate j.who.grp.cix (coreCluster j.place) (BitVec.ofNat 64 (s.rowSource j r + j.unitAt r (k % j.perRow))) .read with
  | .ok t => t.leaf.hyp
  | .error _ => false
/-- Unit k of combined jobs: one reading serves them all (R239), but that on a page of versions each hypothesis has its own. -/
def State.runTeam (s : State) (k : Nat) : Nat → List Job → State
  | 0, _ => s
  | _, [] => s
  | n + 1, j :: rest =>
    let same (q : Job) : Bool := q.hyp == j.hyp || !s.sourceHyp j k
    (s.runChunk j (j :: rest.filter same) k).runTeam k n (rest.filter fun q => !same q)
/-- COPY_CHUNK: one unit, any of those pending. -/
def execCopyChunk (job pick : Nat) (s : State) : Host.Outcome State Fault Refusal :=
  .next (match s.jobs.find? fun j => j.n == job with
    | none => s
    | some j =>
      if j.isRunning = false ∨ s.chunksOpen j = false ∨ j.pending = [] then s
      else match s.refusedWrite j with
        | some (r, b) => s.failAnswer j r b
        | none => match nthPending j.pending (pick % pendingCount j.pending) with
          | none => s
          | some k =>
            let team := j :: (s.teamOf j k).filter fun q => q.n != j.n
            s.runTeam k team.length team)

/-- COPY_JOB_DONE: every write has been performed and the core's earlier jobs have ended; a job that CPYK has stopped ends as it says. -/
def execCopyJobDone (job : Nat) (s : State) : Host.Outcome State Fault Refusal :=
  .next (match s.jobs.find? fun j => j.n == job with
    | none => s
    | some j =>
      if j.isRunning = false ∨ j.pending ≠ [] ∨ s.jobOut j
          ∨ (j.ending = none ∧ s.jobs.any (fun q => q.live && decide (q.place = j.place) && decide (q.n < j.n))) then s
      else match s.refusedWrite j with
        | some (r, b) => s.failAnswer j r b
        | none => match j.ending with
          | some add => s.endJob add j
          | none => (s.closeJob j .done).postJob j (.ctrAdd 1))

end Sys2Proof.Machine
end

