-- ==== Sys2Proof/Machine/Sha.lean ====
section
/-! DEFINITION. SHA-256, the digest of images and measurements (spec/03_assembly.md R66; spec/12_context.md R259). Its constants are
computed from what the published standard says of them: leading fraction bits of roots of primes. -/

namespace Sys2Proof.Machine.Sha

/-! ### Constants -/

/-- The largest r below 2^bits + r0 with r^k ≤ x, bit by bit from r0 up. -/
def rootFrom (k x : Nat) : Nat → Nat → Nat
  | 0, r => r
  | b + 1, r => rootFrom k x b (if (r + 2 ^ b) ^ k ≤ x then r + 2 ^ b else r)
/-- The first 32 bits of the fraction of the k-th root of a number. -/
def rootFraction (k n : Nat) : Nat := rootFrom k (n * 2 ^ (32 * k)) 37 0 % 2 ^ 32
def isPrime (n : Nat) : Bool := decide (2 ≤ n) && (List.range n).all fun d => decide (d < 2) || n % d != 0
/-- The first 64 primes. -/
def primes : List Nat := (List.range 312).filter isPrime
/-- One constant per round, from cube roots; the initial digest, from square roots. -/
def roundConstants : List Nat := primes.map (rootFraction 3)
def firstDigest : List Nat := (primes.take 8).map (rootFraction 2)

/-! ### Words of 32 bits, as numbers -/

def wordMod : Nat := 2 ^ 32
def turn (n x : Nat) : Nat := x / 2 ^ n + x % 2 ^ n * 2 ^ (32 - n)
/-- Three rotations, or two and a shift, taken together. -/
def mixTurns (i j l x : Nat) : Nat := turn i x ^^^ turn j x ^^^ turn l x
def mixShift (i j l x : Nat) : Nat := turn i x ^^^ turn j x ^^^ (x / 2 ^ l)
/-- Bits of y where x has a one, of z elsewhere; and the bit that two of the three agree on. -/
def choose (x y z : Nat) : Nat := z ^^^ (x &&& (y ^^^ z))
def majority (x y z : Nat) : Nat := (x &&& (y ||| z)) ||| (y &&& z)

/-- The word that follows the last 16 of a schedule, oldest first. -/
def nextWord (w : List Nat) : Nat := match w with
  | w0 :: w1 :: rest => (w0 + mixShift 7 18 3 w1 + rest.getD 7 0 + mixShift 17 19 10 (rest.getD 12 0)) % wordMod
  | _ => 0
/-- The rounds of one block: the words still to come are made from the last 16. -/
def rounds : List Nat → List Nat → List Nat → List Nat
  | c :: cs, w, [p, q, r, t, u, v, x, y] =>
    let n := y + mixTurns 6 11 25 u + choose u v x + c + w.headD 0
    let m := n + mixTurns 2 13 22 p + majority p q r
    rounds cs (w.tail ++ [nextWord w]) [m % wordMod, p, q, r, (t + n) % wordMod, u, v, x]
  | _, _, h => h

/-! ### Messages -/

/-- Bytes as a big-endian number, and a number as n big-endian bytes. -/
def ofBytes (l : List Byte) : Nat := l.foldl (fun n b => n * 256 + b.toNat) 0
def toBytes (n v : Nat) : List Byte := ((List.range n).map fun i => BitVec.ofNat 8 (v / 256 ^ i)).reverse
/-- A message of whole blocks. -/
def padded (m : List Byte) : List Byte := m ++ 0x80 :: List.replicate ((119 - m.length % 64) % 64) 0 ++ toBytes 8 (8 * m.length)
def blockWords (m : List Byte) : List Nat := (List.range 16).map fun i => ofBytes ((m.drop (4 * i)).take 4)
def addBlock (h w : List Nat) : List Nat := List.zipWith (fun a b => (a + b) % wordMod) h (rounds roundConstants w h)
/-- The blocks of a message in order; the first argument is their number. -/
def absorb : Nat → List Byte → List Nat → List Nat
  | 0, _, h => h
  | n + 1, m, h => absorb n (m.drop 64) (addBlock h (blockWords m))

/-- The digest of a list of bytes, its first byte the most significant. -/
def digest (m : List Byte) : BitVec 256 :=
  let p := padded m
  BitVec.ofNat 256 ((absorb (p.length / 64) p firstDigest).foldl (fun n x => n * wordMod + x) 0)

end Sys2Proof.Machine.Sha
end

