-- ==== Sys2Proof/Machine/Launch.lean ====
section
/-! DEFINITION. Launch queues and the host's window on them (spec/16_queue.md R318-R325), the kernel table (spec/17_kernel.md
R328-R330), and launches from their record to their end (R326-R336). -/

namespace Sys2Proof.Machine

/-! ### The launch record (R326) -/

def recField (r : LineBits) (off n : Nat) : Nat := (r.extractLsb' (8 * off) (8 * n)).toNat
/-- The largest number of a part's cores in one cluster, or one site (R341). -/
def Part.mostCores (p : Part) (same : CoreLoc → CoreLoc → Bool) : Nat :=
  (p.logical.map fun c => (p.logical.filter (same c)).length).foldl Nat.max 0
def Part.canPlace (p : Part) (scnt : Nat) : Bool :=
  if scnt ≤ 8 then decide (scnt ≤ p.mostCores fun a b => decide (coreCluster a = coreCluster b)) else decide (scnt ≤ p.mostCores fun a b => a.site == b.site)
/-- Step 1 of R331. -/
def recordWellFormed (p : Part) (r : LineBits) : Bool :=
  let kimg := recField r 8 8
  let img := decide (kimg < 2 ^ 56) && kimg % 65536 == 0
  if recField r 0 1 = 1 then img && recField r 1 7 == 0 && recField r 16 48 == 0
  else
    let scnt := recField r 4 2
    let dim (off : Nat) : Bool := decide (1 ≤ recField r off 2)
    recField r 0 1 == 0 && decide (recField r 1 1 < 4) && decide (recField r 3 1 < 64) && recField r 6 2 == 0 && recField r 0x16 2 == 0
      && decide (recField r 0x18 4 < 2 ^ 20) && recField r 0x1C 4 == 0 && img && decide (1 ≤ scnt) && decide (scnt ≤ 64)
      && dim 0x10 && dim 0x12 && dim 0x14 && p.canPlace scnt
/-- The launch that a record of a queue asks for; view is what its take acquires. -/
def launchOf (r : LineBits) (lid lqi born : Nat) (origin : Option Nat × Option Nat × BitVec 16) (view : View) : Launch :=
  let dyn := (recField r 1 1).testBit 0
  { lid := lid, lqi := lqi, born := born, st := .checking, kimg := BitVec.ofNat 64 (recField r 8 8), kid := 0, ent := recField r 2 1, dyn := dyn
    flq := if (recField r 1 1).testBit 1 then some (recField r 3 1) else none, scnt := recField r 4 2
    nx := recField r 0x10 2, ny := recField r 0x12 2, nz := recField r 0x14 2, hyp := BitVec.ofNat 20 (recField r 0x18 4)
    ctrh := BitVec.ofNat 64 (recField r 0x20 8), args := [0x28, 0x30, 0x38].map fun o => BitVec.ofNat 64 (recField r o 8)
    family := origin.1, governed := origin.2.1, govGen := origin.2.2, view := view, jobsView := [], next := 0, heldBack := [], dropped := [] }

/-- The launch identifier of the next record taken (R331): from a counter, skipping low halves that are zero or in use. -/
def nextLid (live : List Nat) : Nat → Nat → Nat
  | 0, n => n
  | fuel + 1, n =>
    let n := n % 2 ^ 32
    if n % 65536 = 0 ∨ live.any (fun m => m % 65536 == n % 65536) then nextLid live fuel (n + 1) else n
def Part.newLid (p : Part) : Nat := nextLid (p.launches.map Launch.lid) (p.launches.length + 2) p.lidNext

/-! ### Refusals and posts (R332, R335) -/

/-- The tag that a launch's posts are made under (R332, R335). -/
def Part.postTag (p : Part) (h : BitVec 20) : BitVec 20 :=
  if hypId h = 0 then 0
  else match p.hyp? (hypId h) with
    | some e => if e.gen = hypGen h ∧ (e.st = .opened ∨ e.st = .confirmed) then
        (let f := p.effective (hypId h); if p.isRefuted f then 0 else p.tagOf f) else 0
    | none => 0
def State.dropLaunch (s : State) (cix lid : Nat) : State :=
  s.updPart cix fun p => { p with launches := p.launches.filter fun l => l.lid != lid }
/-- A refused launch or record; nothing of it has run, so its poison releases nothing. -/
def State.refuseLaunch (s : State) (p : Part) (lid : Nat) (kimg : Word64) (ent : Nat) (ctrh : Word64) (hyp : BitVec 20) (code : Nat) : State :=
  let s := s.dropLaunch p.cix lid
  let s := if ctrh = 0 then s else s.post p.cix (.launch lid) .device [] ctrh (p.postTag hyp) .poison
  sendRecord s p.cix none { blankRecord .refused with
    sub := BitVec.ofNat 8 code, lid := BitVec.ofNat 32 lid, addr := kimg, info := BitVec.ofNat 64 ent, clk := s.clk }

/-! ### The kernel table (R328, R330) -/

/-- The kernel table entry of an image; the foreman's own image, past the 256 entries, is none of them. -/
def Part.kernelAt (p : Part) (kimg : Word64) : Option Kernel := p.kernels.find? fun k => decide (k.kid < 256) && k.kimg == kimg
def State.updKernel (s : State) (cix kid : Nat) (f : Kernel → Kernel) : State :=
  s.updPart cix fun p => { p with kernels := p.kernels.map fun k => if k.kid = kid then f k else k }
def State.dropKernel (s : State) (cix kid : Nat) : State :=
  s.updPart cix fun p => { p with kernels := p.kernels.filter fun k => k.kid != kid }
/-- Launches that wait for a kernel to load. -/
def Part.waitersOf (p : Part) (kimg : Word64) : List Launch := p.launches.filter fun l => l.st == .checking && l.kimg == kimg
/-- The SGEN that a page of the part shows now. -/
def State.sgenNow (s : State) (p : Part) (va : Nat) : Option (BitVec 32) := match s.walkFrom p (s.foremanCore p).site (BitVec.ofNat 64 va) .read with
  | .ok l => some l.sgen
  | .error _ => none
/-- Are a kernel's recorded SGENs still current? -/
def State.kernelFresh (s : State) (p : Part) (k : Kernel) : Bool := k.sgens.all fun e => s.sgenNow p e.1 == some e.2
/-- A RETIRING entry whose last launch has gone is freed. -/
def State.reapKernel (s : State) (cix kid : Nat) : State := match s.part? cix with
  | none => s
  | some p => match p.kernels.find? fun k => k.kid == kid with
    | none => s
    | some k => if k.st = .retiring ∧ k.actv = 0 ∧ (p.waitersOf k.kimg).isEmpty then s.dropKernel cix kid else s
/-- The lowest identifier that is free. -/
def Part.freeKid (p : Part) : Option Nat := (List.range 256).find? fun i => !p.kernels.any fun k => k.kid == i
def blankHeader : ImageHeader := { code := (0, 0), ro := (0, 0), ent := (0, 0), live := (0, 0), rcp := (0, 0), digest := 0 }
def blankKernel (kid : Nat) (kimg : Word64) : Kernel :=
  { kid := kid, kimg := kimg, st := .loading, copied := false, header := blankHeader, entries := [], lives := [], recipes := [], sgens := [], actv := 0 }

/-- Does the scheduler of a part take records and place groups? Not from STOP on; while one site drains it does so for the others (R247). -/
def Part.schedules (p : Part) : Bool := p.st == .run || (p.st == .quiescing && p.draining.isSome)
/-- Launches all of whose groups have been placed, killed or orphaned are RUNNING (R333). -/
def State.settle (s : State) (cix : Nat) (l : Launch) : Launch :=
  if l.st = .placing ∧ l.nextFree.isNone ∧ l.heldBack = [] ∧ s.groups.any (fun g => g.id.cix == cix && g.id.lid == l.lid && g.st == .unplaced) = false then
    { l with st := .running }
  else l
def State.settleLaunches (s : State) (cix : Nat) : State := s.updPart cix fun p => { p with launches := p.launches.map (s.settle cix) }

/-- Steps 3 to 6 of R331: the refusal code. Where another module holds the hypothesis table, step 4 goes by what it has told (assumption 67). -/
def launchRefusal (p : Part) (k : Kernel) (l : Launch) : Option Nat :=
  if k.entries.length ≤ l.ent then some 5
  else if l.hyp ≠ 0 ∧ p.isOpen l.hyp = false then some 8
  else if (match l.flq with
    | some q => !p.queues.any fun x => x.lqi == q
    | none => false) then some 9
  else if l.dyn ∧ l.family.isSome then some 10
  else none
/-- A launch whose kernel is loaded: it is refused, or its groups become unplaced work (R333). -/
def State.admitLaunch (s : State) (cix : Nat) (k : Kernel) (l : Launch) : State := match s.part? cix with
  | none => s
  | some p => match launchRefusal p k l with
    | some code => (s.refuseLaunch p l.lid l.kimg l.ent l.ctrh l.hyp code).reapKernel cix k.kid
    | none =>
      let l1 := { l with st := .placing, kid := k.kid, family := if l.dyn then some l.lid else l.family }
      let s := s.updKernel cix k.kid fun k => { k with actv := k.actv + 1 }
      s.updPart cix fun p =>
        { p with launches := p.launches.map (fun x => if x.lid = l.lid then l1 else x)
                 families := if l.dyn then p.families ++ [{ head := l.lid, counts := [], recv := 0, sweptAt := none, agreed := none }] else p.families }
/-- A LAUNCH at the kernel table. -/
def State.checkLaunch (s : State) (cix : Nat) (l : Launch) : State := match s.part? cix with
  | none => s
  | some p => match p.kernelAt l.kimg with
    | none => (match p.freeKid with
      | none => s.refuseLaunch p l.lid l.kimg l.ent l.ctrh l.hyp 6
      | some kid => s.updPart cix fun p => { p with kernels := p.kernels ++ [blankKernel kid l.kimg] })
    | some k => match k.st with
      | .loading => s
      | .retiring => s.refuseLaunch p l.lid l.kimg l.ent l.ctrh l.hyp 7
      | .loaded => if s.kernelFresh p k then s.admitLaunch cix k l else s.updKernel cix k.kid fun k => { k with st := .loading }
/-- UNLOAD. -/
def State.unloadKernel (s : State) (cix : Nat) (kimg : Word64) : State := match s.part? cix with
  | none => s
  | some p => match p.kernelAt kimg with
    | none => s
    | some k =>
      if k.st = .retiring then s
      else if k.actv = 0 ∧ (p.waitersOf kimg).isEmpty then s.dropKernel cix k.kid
      else s.updKernel cix k.kid fun k => { k with st := .retiring }

/-- The header of a launch queue as the target of the scheduler's operations on it. -/
def LaunchQueue.target (q : LaunchQueue) (mid : Nat) : Target :=
  { va := (q.handle.setWidth 56).setWidth 64, mid := mid, pa := q.pa, leaf := remoteLeaf q.pa 16 mid false true }
/-- LAUNCH_TAKE: the scheduler takes the head record of a launch queue whose previous launch has been placed or refused, once the queue's line is
at hand (R278, R318, R331). The take acquires. -/
def execLaunchTake (cix lqi : Nat) (s : State) : Host.Outcome State Fault Refusal :=
  .next (match s.part? cix with
    | none => s
    | some p => match p.queues.find? fun q => q.lqi == lqi with
      | none => s
      | some q =>
        let g := s.granule q.pa
        if p.schedules = false ∨ p.current = false ∨ p.launches.any (fun l => l.lqi == lqi && l.born == q.born && l.st != .running) ∨ g.tag ≠ .queue
            ∨ g.dead ∨ qCount g = 0 then s
        else match s.heat p (q.target s.mid) with
        | none => s
        | some s =>
          let got := takeHead s cix g
          let origin := (q.origins.head?).getD (none, none, 0)
          let lid := p.newLid
          let s := (got.1.updQueue cix lqi fun q => { q with origins := q.origins.drop 1 }).updPart cix fun p =>
            { p with lidNext := lid + 1, families := p.families.map fun f => if some f.head = origin.1 then { f with recv := f.recv + 1 } else f }
          let r := got.2
          let l := launchOf r lid lqi q.born origin (acquireFrom [] .pod none g.rels)
          if recordWellFormed p r = false then
            (if recField r 0 1 = 1 then s.refuseLaunch p lid l.kimg 0 0 0 1 else s.refuseLaunch p lid l.kimg l.ent l.ctrh l.hyp 1)
          else if recField r 0 1 = 1 then s.unloadKernel cix l.kimg
          else (s.updPart cix fun p => { p with launches := p.launches ++ [l] }).checkLaunch cix l)

/-! ### Loading an image (R66-R68, R329, R401) -/

/-- The pages of a span of an image, each translated for reading; none when one fails. The spec does not say what a section is whose offset takes it past
address 2^64: here addresses wrap (assumption 68, DESIGN CHOICE). -/
def State.imagePages (s : State) (p : Part) (va n : Nat) : Option (List (Nat × Leaf)) :=
  if n = 0 then some [] else
  ((List.range ((va + n - 1) / 65536 - va / 65536 + 1)).map fun i => va / 65536 + i).foldr (fun x acc => match acc with
    | none => none
    | some l => match s.translate p.cix (coreCluster (s.foremanCore p)) (BitVec.ofNat 64 (x * 65536)) .read with
      | .ok t => some ((x, t.leaf) :: l)
      | .error _ => none) (some [])
/-- Bytes of a span; those of another module's memory, and of a region that only the device writes (R254), are free values. -/
def State.imageBytes (s : State) (p : Part) (pages : List (Nat × Leaf)) (va n : Nat) : List Byte :=
  (List.range n).map fun i => match vaultAddr pages (va + i) with
    | some (pa, l) => if l.mid = s.mid ∧ p.inRegion pa 1 = false then readByte s.mem pa else Config.freeBits 8 (s.fresh + va + i)
    | none => 0
/-- Lines of a span that have an uncorrectable error. -/
def State.spanErrors (s : State) (pages : List (Nat × Leaf)) (va n : Nat) : List Target :=
  (pages.map fun x =>
    let base := x.2.frame + x.1 * 65536 % 2 ^ x.2.bits
    (s.badLines.filter fun b => x.2.mid == s.mid && decide (base ≤ b) && decide (b < base + 65536)
      && overlaps (x.1 * 65536 + (b - base)) 128 va n).map fun b =>
        ({ va := BitVec.ofNat 64 (x.1 * 65536 + (b - base)), mid := s.mid, pa := b, leaf := x.2 } : Target)).flatten
def leNat : List Byte → Nat
  | [] => 0
  | b :: rest => b.toNat + 256 * leNat rest
def byteField (l : List Byte) (off n : Nat) : Nat := leNat ((l.drop off).take n)

/-- Do two spans overlap? An empty one overlaps none. -/
def spansMeet (a b : Nat × Nat) : Bool := decide (0 < a.2) && decide (0 < b.2) && overlaps a.1 a.2 b.1 b.2
def apart : List (Nat × Nat) → Bool
  | [] => true
  | a :: rest => rest.all (fun b => !spansMeet a b) && apart rest
/-- A header's spans, in bytes from the start of the image, when its fields keep their limits. DIGEST is taken as SHA-256's own byte string, most
significant byte first, and not as a little-endian quantity of R1 (assumption 84). -/
def headerOf (h : List Byte) : Option ImageHeader :=
  let f := byteField h
  let x : ImageHeader :=
    { code := (f 0x08 8, f 0x10 8), ro := (f 0x18 8, f 0x20 8), ent := (f 0x28 4, 32 * f 0x2C 2), live := (f 0x30 4, 32 * f 0x34 2)
      rcp := (f 0x38 4, 128 * f 0x3C 2), digest := BitVec.ofNat 256 (((h.drop 0x40).take 32).foldl (fun n b => n * 256 + b.toNat) 0) }
  if f 0 4 = 0x494B4D4A ∧ f 4 2 = 1 ∧ f 6 2 = 0 ∧ f 0x2E 2 = 0 ∧ f 0x36 2 = 0 ∧ f 0x3E 2 = 0 ∧ f 0x60 32 = 0
      ∧ x.code.1 % 65536 = 0 ∧ x.code.2 % 64 = 0 ∧ 64 ≤ x.code.2 ∧ x.ro.1 % 65536 = 0 ∧ x.ent.1 % 32 = 0 ∧ 1 ≤ f 0x2C 2 ∧ f 0x2C 2 ≤ 256
      ∧ x.live.1 % 32 = 0 ∧ f 0x34 2 ≤ 256 ∧ x.rcp.1 % 64 = 0 ∧ f 0x3C 2 ≤ 16 ∧ apart [x.code, x.ro, x.ent, x.live, x.rcp] then some x
  else none

/-- Records of n bytes of a table. -/
def tableRows (n : Nat) (t : List Byte) : List (List Byte) := (List.range (t.length / n)).map fun i => (t.drop (n * i)).take n
/-- An entry record, its index within a code section of some bytes. Its name is kept as it stands: no rule says that a name which is no padded
ASCII refuses the image (assumption 68, DESIGN CHOICE). -/
def entryOf (codeSize : Nat) (r : List Byte) : Option KernelEntry :=
  let i := byteField r 0 4
  let units := byteField r 4 4
  if i < codeSize / 64 * 5 ∧ units ≤ 2048 ∧ byteField r 8 8 = 0 then some { index := i, store := 64 * units, name := BitVec.ofNat 128 (byteField r 16 16) } else none
/-- A live-set entry (R67). A byte 15 that is not zero breaks a limit of its table, so the image is refused (assumption 68, DEDUCED: R66 speaks of the
tables above it, and R67's stands below). -/
def liveOf (r : List Byte) : Option LiveSet :=
  let ranges := [16, 20, 24, 28].map fun o => (64 * byteField r o 2, 64 * byteField r (o + 2) 2)
  if byteField r 15 1 = 0 ∧ ranges.all (fun x => x.2 == 0 || decide (x.1 + x.2 ≤ 131072)) then
    some { g := BitVec.ofNat 64 (byteField r 0 8), v := BitVec.ofNat 48 (byteField r 8 6), c := BitVec.ofNat 4 (byteField r 14 1)
           f := BitVec.ofNat 4 (byteField r 14 1 / 16), ls := ranges }
  else none
def fillerWord : SlotBits := BitVec.allOnes 96
/-- May an instruction stand in a recipe body (R55, R401)? -/
def bodyInstr (i : Instr) : Bool := match i with
  | .vldg f => decide (f.gb.toNat ≤ 4)
  | i => match slotTarget.recipeForm i with
    | some (op, f) => op != .vcmp && op != .mop && op != .mpop && op != .vext && op != .vred && op != .vdot && op != .vqnt && f.fd == 0
        && decide (f.gs.toNat ≤ 4)
    | none => false
/-- A recipe entry (R68). -/
def recipeOf (r : List Byte) : Option (List SlotBits) :=
  let n := byteField r 0 1
  let slots := (List.range 8).map fun i => (BitVec.ofNat 96 (byteField r (8 + 12 * i) 12) : SlotBits)
  let body := slots.take n
  let instrs := body.filterMap fun w => (match decodeSlot w with
    | .ok i => if bodyInstr i && guardOf' i then some i else none
    | .error _ => none)
  let oneTarget : Bool := match instrs with
    | [] => true
    | i :: rest => rest.all fun j => slotTarget j == slotTarget i
  if n ≤ 8 ∧ byteField r 1 7 = 0 ∧ byteField r 104 24 = 0 ∧ (slots.drop n).all (fun w => w == fillerWord) ∧ instrs.length = n ∧ oneTarget then
    some body
  else none
where
  /-- GUARD = 0b0000. -/
  guardOf' : Instr → Bool
    | .vldg f => f.grd.k == 0 && !f.grd.inv
    | i => match slotTarget.recipeForm i with
      | some (_, f) => f.grd.k == 0 && !f.grd.inv
      | none => false
/-- Every row of a table read, or none. -/
def readAll {α : Type} (f : List Byte → Option α) : List (List Byte) → Option (List α)
  | [] => some []
  | r :: rest => match f r, readAll f rest with
    | some x, some l => some (x :: l)
    | _, _ => none

/-- The checks of R329: the copy that the kernel table takes, or a refusal code. -/
def State.readImage (s : State) (p : Part) (k : Kernel) : Except Nat Kernel :=
  let va := k.kimg.toNat
  match s.imagePages p va 128 with
  | none => .error 2
  | some hp => match headerOf (s.imageBytes p hp va 128) with
    | none => .error 2
    | some h =>
      match s.imagePages p (va + h.ent.1) h.ent.2, s.imagePages p (va + h.live.1) h.live.2, s.imagePages p (va + h.rcp.1) h.rcp.2,
        s.imagePages p (va + h.code.1) h.code.2, s.imagePages p (va + h.ro.1) h.ro.2 with
      | some ep, some lp, some rp, some cp, some op =>
        (match readAll (entryOf h.code.2) (tableRows 32 (s.imageBytes p ep (va + h.ent.1) h.ent.2)),
            readAll liveOf (tableRows 32 (s.imageBytes p lp (va + h.live.1) h.live.2)),
            readAll recipeOf (tableRows 128 (s.imageBytes p rp (va + h.rcp.1) h.rcp.2)) with
        | some entries, some lives, some recipes =>
          if cp.any (fun x => x.2.st != .sealed || !x.2.x) || op.any (fun x => x.2.st != .sealed) then .error 3
          else if Sha.digest (s.imageBytes p cp (va + h.code.1) h.code.2 ++ s.imageBytes p op (va + h.ro.1) h.ro.2) ≠ h.digest then .error 4
          else .ok { k with st := .loaded, copied := true, header := h, entries := entries, lives := lives, recipes := recipes
                            sgens := (cp ++ op).map fun x => (x.1 * 65536, x.2.sgen) }
        | _, _, _ => .error 2)
      | _, _, _, _, _ => .error 2

/-- The lines that a load reads and that have an uncorrectable error: it meets them as any read does (R188). -/
def State.imageErrors (s : State) (p : Part) (k : Kernel) : List Target :=
  let va := k.kimg.toNat
  let hp := (s.imagePages p va 128).getD []
  let spans : List (Nat × Nat) := match headerOf (s.imageBytes p hp va 128) with
    | some h => [h.ent, h.live, h.rcp, h.code, h.ro]
    | none => []
  ((0, 128) :: spans).flatMap fun x => s.spanErrors ((s.imagePages p (va + x.1) x.2).getD []) (va + x.1) x.2
/-- The load: refused with IMAGE when it meets an error. -/
def State.loadImage (s : State) (p : Part) (k : Kernel) : State × Except Nat Kernel :=
  match s.imageErrors p k with
  | [] => (s, s.readImage p k)
  | l => (l.foldl (fun s t => s.meetErrorOf p (locWord s.mid (s.foremanCore p)) t) s, .error 2)
/-- KERNEL_LOAD: a pending load ends, and each waiting launch proceeds or is refused. -/
def execKernelLoad (cix : Nat) (kimg : Word64) (s : State) : Host.Outcome State Fault Refusal :=
  .next (match s.part? cix with
    | none => s
    | some p => match p.kernelAt kimg with
      | none => s
      | some k =>
        let ws := p.waitersOf kimg
        if p.serves = false ∨ p.current = false ∨ k.st = .loaded ∨ (k.st = .retiring ∧ ws.isEmpty) then s
        else match s.loadImage p k with
          | (s, .ok k1) =>
            let k1 := { k1 with st := if k.st = .retiring then .retiring else .loaded }
            (ws.foldl (fun s l => s.admitLaunch cix k1 l) (s.updKernel cix k.kid fun _ => k1)).reapKernel cix k.kid
          | (s, .error code) =>
            let s := if k.st = .retiring then s
              else if 0 < k.actv then s.updKernel cix k.kid fun k => { k with st := .loaded } else s.dropKernel cix k.kid
            (ws.foldl (fun s l => s.refuseLaunch p l.lid l.kimg l.ent l.ctrh l.hyp code) s).reapKernel cix k.kid)

/-! ### The end of a launch (R333-R336) -/

/-- All that the strands and copy jobs of a launch have done: its completion post releases it (R335). -/
def State.launchView (s : State) (p : Part) (l : Launch) : View :=
  let mine (i : StrandId) : Bool := i.grp.cix == p.cix && i.grp.lid == l.lid
  let v := (s.strands.filter fun t => mine t.id).foldl (fun v t => View.join v (View.raise t.view (.strand t.id) s.fresh)) (View.join l.view l.jobsView)
  (s.jobs.filter fun j => mine j.who).foldl (fun v j => View.join v (View.raise j.view (.job j.n) s.fresh)) v
/-- Strands of launches that are gone leave with their jobs once they have exited and what they had queued has run (R168); those left parked stay
(R336). -/
def State.reapStrands (s : State) (p : Part) : State :=
  let spent (t : Strand) : Bool := t.id.grp.cix == p.cix && t.ended && !t.fmn && t.vq.isEmpty && t.tq.isEmpty && t.unacked.isEmpty
    && !(s.jobs.any fun j => j.live && decide (j.who = t.id)) && !p.launches.any fun l => l.lid == t.id.grp.lid
  let s' : State := { s with others := s.others.filter fun t => !spent t }
  { s' with jobs := s'.jobs.filter fun j => j.who.grp.cix != p.cix || j.live || s'.strands.any fun t => decide (t.id = j.who) }
/-- The completion post, ACTV, the governor's ACT, and the launch's strands and jobs leave. -/
def State.endLaunch (s : State) (p : Part) (l : Launch) : State :=
  let view := s.launchView p l
  let s := s.dropLaunch p.cix l.lid
  let s := (s.updKernel p.cix l.kid fun k => { k with actv := k.actv - 1 }).reapKernel p.cix l.kid
  let s := match l.governed with
    | some pa =>
      let g := s.granule pa
      if g.tag = CellTag.queue ∧ g.gen = l.govGen ∧ 0 < fieldNat g.b3 16 8 then s.setGranule { g with b3 := setField g.b3 16 8 (fieldNat g.b3 16 8 - 1) } else s
    | none => s
  let s := s.reapStrands ((s.part? p.cix).getD p)
  if l.ctrh = 0 then s else s.post p.cix (.launch l.lid) .device view l.ctrh (p.postTag l.hyp) (.ctrAdd 1)
/-- Every group has been dealt or dropped, and has retired; no store, job or started command of its strands is out (R334). -/
def State.launchOver (s : State) (p : Part) (l : Launch) : Bool :=
  let mine (i : GroupId) : Bool := i.cix == p.cix && i.lid == l.lid
  l.st != .checking && l.nextFree.isNone && l.heldBack.isEmpty && !s.groups.any (fun g => mine g.id)
    && s.strands.all (fun t => !mine t.id.grp || (t.ended && t.unacked.isEmpty && t.tq.isEmpty && t.vq.isEmpty))
    && !s.jobs.any fun j => j.live && mine j.who.grp
/-- LAUNCH_END of a static launch, or of a member of a family. -/
def execLaunchEnd (cix lid : Nat) (s : State) : Host.Outcome State Fault Refusal :=
  .next (match s.part? cix with
    | none => s
    | some p => match p.launches.find? fun l => l.lid == lid with
      | none => s
      | some l => if p.serves ∧ p.current ∧ l.dyn = false ∧ s.launchOver p l then s.endLaunch p l else s)

/-- Cycles between sweeps: 4,096 network cycles (R4, R336). -/
def sweepGap : Nat := 2731
/-- No core and no step of the scheduler is busy for a family, and no wait of it has completed whose strand has yet to go on (R336). -/
def State.familyIdle (s : State) (p : Part) (head : Nat) : Bool :=
  let members := p.launches.filter fun l => l.family == some head
  let mine (i : GroupId) : Bool := i.cix == p.cix && members.any fun l => l.lid == i.lid
  s.strands.all (fun t => !mine t.id.grp || (t.status != .run && t.status != .frozen && t.unacked.isEmpty))
    && s.strands.all (fun t => !mine t.id.grp || ((t.park.bind Park.result).isNone && t.blocked.isNone))
    && !s.jobs.any (fun j => j.live && mine j.who.grp)
    && members.all (fun l => l.st != .checking && l.nextFree.isNone && l.heldBack.isEmpty)
    && !s.groups.any fun g => mine g.id && (g.st == .ready || g.st == .unplaced)
def Family.sums (f : Family) : Nat × Nat := (f.counts.foldl (fun n c => n + c.2.1) 0, f.counts.foldl (fun n c => n + c.2.2) f.recv)
/-- QUIESCENCE_SWEEP: the second of two sweeps that agree declares the end of a family, and its head posts. -/
def execQuiescenceSweep (cix lid : Nat) (s : State) : Host.Outcome State Fault Refusal :=
  .next (match s.part? cix with
    | none => s
    | some p => match p.families.find? (fun f => f.head == lid), p.launches.find? fun l => l.lid == lid with
      | some f, some l =>
        let now := s.clk.toNat
        let early : Bool := match f.sweptAt with
          | some t => decide (now < t + sweepGap)
          | none => false
        if p.serves = false ∨ p.current = false ∨ early then s
        else
          let x := f.sums
          let good := s.familyIdle p lid && x.1 == x.2
          if good ∧ f.agreed = some x then
            (s.endLaunch p l).updPart cix fun p => { p with families := p.families.filter fun f => f.head != lid }
          else s.updPart cix fun p =>
            { p with families := p.families.map fun f => if f.head = lid then { f with sweptAt := some now, agreed := if good then some x else none }
                                                         else f }
      | _, _ => s)

/-! ### The host's window (R319) -/

/-- The host address of a register of a launch queue. -/
def hostCellAddr (cix lqi offset : Nat) : Nat := 0x20000000000 + cix * 0x4000000 + lqi * 0x100000 + offset
/-- What the window shows of an index: zeros where nothing has been written. -/
def Part.window (p : Part) (lqi : Nat) : HostWindow := (p.windows.find? fun w => w.lqi == lqi).getD { lqi := lqi, last := 0, acc := 0, ref := 0 }
def State.updWindow (s : State) (cix lqi : Nat) (f : HostWindow → HostWindow) : State :=
  s.updPart cix fun p => { p with windows := f (p.window lqi) :: p.windows.filter fun w => w.lqi != lqi }
/-- A write to HQPUT refused with a code. -/
def State.refuseHost (s : State) (cix lqi code : Nat) : State :=
  s.updWindow cix lqi fun w => { w with last := BitVec.ofNat 8 code, ref := w.ref + 1 }
/-- The host as the party of its puts: outside every core, with HCUR 0. -/
def State.hostIssuer (s : State) (cix : Nat) : Issuer :=
  { cix := cix, mid := s.mid, inc := s.inc, who := unitId cix, loc := locWord s.mid { site := 0, cluster := 0, core := 0 }, hyp := 0, ls := 0
    strand := false, party := .host, spot := none, view := s.viewOf .host }
/-- HQPUT: an aligned 64-byte write performs Q.TRYPUT of the record under the root, once the queue's line is at hand; a write that is malformed, or
finds the part not in RUN or the index unbound, is refused. A failed check of the queue itself, which no rule gives a code, counts as
STALE (assumption 22). -/
def execHqput (cix lqi offset : Nat) (bytes : List Byte) (s : State) : Host.Outcome State Fault Refusal :=
  .next (match s.part? cix with
    | none => s
    | some p =>
      if 64 ≤ lqi ∨ 64 ≤ offset then s
      else if offset ≠ 0 ∨ bytes.length ≠ 64 then s.refuseHost cix lqi 0xFF
      else match if p.st = .run then p.queues.find? fun q => q.lqi == lqi else none with
        | none => s.refuseHost cix lqi (statusCode .dead)
        | some q =>
          match cellOperation s p (s.hostIssuer cix) q.handle false (q.target s.mid) (.qPut (BitVec.ofNat 512 (leNat bytes)) 64 true) with
          | none => s
          | some (s, .done .ok _ _) => s.updWindow cix lqi fun w => { w with last := 0, acc := w.acc + 1 }
          | some (s, .done st _ _) => s.refuseHost cix lqi (statusCode st)
          | some (s, _) => s.refuseHost cix lqi (statusCode .stale))
/-- HQS_READ: the host reads HQS, HQR or nothing, 8 bytes. -/
def execHqsRead (cix lqi offset : Nat) (s : State) : Host.Outcome State Fault Refusal :=
  let w : HostWindow := ((s.part? cix).map fun p => p.window lqi).getD { lqi := lqi, last := 0, acc := 0, ref := 0 }
  let v : Nat := if offset = 0x40 then w.last.toNat * 2 ^ 32 + w.acc.toNat else if offset = 0x48 then w.ref.toNat else 0
  .next { s with out := s.out ++ [.hostData (hostCellAddr cix lqi offset) ((List.range 8).map fun i => BitVec.ofNat 8 (v / 256 ^ i))] }

/-! ### The budget of a queue (R321, R323) -/

/-- A pending pre-emption withdrawn: its strands go on (R347). -/
def State.withdrawPreempt (s : State) (id : GroupId) : State :=
  (s.mapStrands fun t => if t.id.grp = id ∧ t.saved.isNone then { t with stop := none } else t).updGroup id fun g =>
    { g with preempt := none, fullSent := false }
/-- REPLENISHMENT. -/
def execReplenishment (cix lqi : Nat) (s : State) : Host.Outcome State Fault Refusal :=
  .next (match s.part? cix with
    | none => s
    | some p => match p.queues.find? fun q => q.lqi == lqi with
      | none => s
      | some q =>
        if s.clk.toNat < q.deadline.toNat then s
        else
          let s := s.updQueue cix lqi fun q =>
            { q with remain := if q.budget = 0 then BitVec.allOnes 64 else q.budget * 1100, deadline := s.clk + q.period, overrun := false }
          let mine := s.groups.filter fun g => g.id.cix == cix && p.launches.any fun l => l.lid == g.id.lid && (p.queueOf l).any fun x => x.lqi == lqi
          mine.foldl (fun s g =>
            let s := s.updGroup g.id fun g => { g with overrun := false }
            if g.preempt.isSome ∧ g.reserve.isNone ∧ (g.st = .resident ∨ g.st = .frozen) then s.withdrawPreempt g.id else s) s)
/-- OVERRUN: the record of this period, and a pre-emption of every placed group. -/
def execOverrun (cix lqi : Nat) (s : State) : Host.Outcome State Fault Refusal :=
  .next (match s.part? cix with
    | none => s
    | some p => match p.queues.find? fun q => q.lqi == lqi with
      | none => s
      | some q =>
        let mine := s.groups.filter fun g => g.id.cix == cix && (g.st == .resident || g.st == .frozen || g.st == .saving)
          && p.launches.any fun l => l.lid == g.id.lid && (p.queueOf l).any fun x => x.lqi == lqi
        if p.current = false ∨ q.remain ≠ 0 ∨ q.overrun ∨ mine.isEmpty then s
        else
          let s := s.updQueue cix lqi fun q => { q with overrun := true }
          let s := sendRecord s cix none { blankRecord .overrun with info := BitVec.ofNat 64 lqi, clk := s.clk }
          mine.foldl (fun s g => s.preempt g.id true) s)

end Sys2Proof.Machine
end

