-- ==== Sys2Proof/Machine/Hyp.lean ====
section
/-! DEFINITION. Hypothesis instructions (spec/22_hypothesis.md R395-R400) and the steps of a resolve (R380, R387-R393, R440). -/

namespace Sys2Proof.Machine

/-! ### The table home's answers -/

/-- Does a handle match its entry (R379)? The root's handle is 0. -/
def State.matches (s : State) (p : Part) (h : Word64) : Bool :=
  match handleTag h with
  | none => false
  | some t => h == 0 || (decide (hypId t ≠ 0) && decide (hypId t ≤ s.topId p) && p.genOf (hypId t) == hypGen t)
/-- OPEN, the root included. -/
def Part.openOrRoot (p : Part) (id : Nat) : Bool := id == 0 || ((p.hyp? id).map fun e => e.st == .opened).getD false

def hypStatusCode : HypStatus → Nat
  | .free => 0
  | .opened => 1
  | .confirmed => 2
  | .refuted => 3
/-- The word of HYP.QRY (R400). -/
def queryHyp (p : Part) (id : Nat) : Word64 :=
  if id = 0 then BitVec.ofNat 64 (2 ^ 59) else
  match p.hyp? id with
  | none => 0
  | some e =>
    let eff := if e.st = .opened ∨ e.st = .confirmed then (let x := p.effective id; if p.isRefuted x then 0 else x) else 0
    BitVec.ofNat 64 (hypStatusCode e.st * 2 ^ 59 + e.cause * 2 ^ 56 + e.depth % 16 * 2 ^ 52 + eff * 2 ^ 40 + e.parent * 2 ^ 28
      + e.gen.toNat * 2 ^ 20 + p.childCount id * 2 ^ 8)

/-- The lowest FREE ID up to the top. -/
def State.freeId (s : State) (p : Part) : Option Nat :=
  ((List.range (s.topId p)).map (· + 1)).find? fun id => ((p.hyp? id).map fun e => e.st == .free).getD true
/-- HYP.OPEN's allocation (R380). -/
def Part.openHyp (p : Part) (id parent : Nat) : Part × BitVec 20 :=
  let gen := p.genOf id + 1
  let depth := if parent = 0 then 1 else ((p.hyp? parent).map HypEntry.depth).getD 0 + 1
  let e : HypEntry := { id := id, gen := gen, st := .opened, parent := parent, depth := depth, cause := 0, resolved := false, swept := [], lost := false }
  ({ p with hyps := if p.hyps.any (fun x => x.id == id) then replaceFirst (fun x => x.id == id) e p.hyps else p.hyps ++ [e] }, mkTag gen id)
/-- The table home opens a hypothesis, and tells the other modules, whose homes and schedulers know the tree by that (assumption 67). -/
def State.openAt (s : State) (p : Part) (id parent : Nat) : State × BitVec 20 :=
  let r := p.openHyp id parent
  (s.livePeers.foldl (fun s m => s.tellPeer p.cix .unit m 0 (.opened r.2 (p.tagOf parent))) (s.setPart r.1), r.2)
/-- What the table's module tells another one of a tag's chain. -/
def State.tellTree (s : State) (p : Part) (mid : Nat) (tag : BitVec 20) : State :=
  (p.treeOf tag).reverse.foldl (fun s x => s.tellPeer p.cix .unit mid 0 (.opened x.1 x.2)) s
/-- A resolve as another module takes it up from the table's home. -/
def Part.learnResolve (p : Part) (rid : Nat) (k : Packet) (hyp : BitVec 20) (confirm : Bool) (tags : List (BitVec 20)) (target : BitVec 20)
    (kids : List Nat) : Part :=
  let end_ (p : Part) (t : BitVec 20) : Part :=
    p.putHyp { id := hypId t, gen := hypGen t, st := if confirm then .confirmed else .refuted, parent := if confirm then hypId target else p.parentOf (hypId t)
               depth := p.depthOf (hypId t), cause := 0, resolved := false, swept := [], lost := false }
  let p := ((p.mapHyp (p.openBelow (hypId hyp)) fun e => { e with depth := e.depth - 1 }).mapHyp kids fun e => { e with parent := hypId target })
  let p := tags.foldl end_ p
  { p with resolves := p.resolves ++ [{ rid := rid, hyp := hyp, confirm := confirm, tags := tags, target := target, kids := kids, handle := none
                                        sites := [], mods := [], asker := some k, view := [] }] }

/-! ### Issue -/

/-- The status of a hypothesis instruction written, and the instruction done. -/
def State.hypDone (s : State) (f : FormY) (st : Status) : State := s.putG f.gst (BitVec.ofNat 64 (statusCode st))
/-- A handle that does not match: STALE, or STALE_HANDLE with .f. -/
def State.hypStale (s : State) (f : FormY) : State :=
  if f.f then s.raise { code := .staleHandle, addr := 0, info := s.rdG f.gv1 } else s.hypDone f .stale
def State.hypSync (s : State) (tag : BitVec 20) : State := s.raise { code := .hypSync, addr := 0, info := tag.setWidth 64 }
/-- The table home is asked: this module's part, or another module's (R377); a part not in RUN gives DEAD. A handle that does not match is for the
form's .f to tell wherever the table is (R395). -/
def State.askTable (s : State) (f : FormY) (sub : Nat) (counter : Option Word64) (here : Part → State) (there : Status → Word64 → State) : State :=
  match s.part? s.cix with
  | none => s.hypDone f .dead
  | some p =>
    if p.tableModule = s.mid then (if p.st = .run then here p else s.hypDone f .dead)
    else if s.peerLost p.tableModule then there .dead 0
    else s.askModule p.tableModule 0 none false 0 (if sub = 3 then [s.release .pod] else []) (.hypothesis sub (s.rdG f.gv1) (f.imm.getLsbD 0) counter) fun
      | .status st v _ => if st = .stale ∧ f.f then s.hypStale f else there st v
      | .fault c info => s.raise { code := c, addr := 0, info := info }
      | _ => there .dead 0

/-- HCUR changes: the core's L1 lines of HYP pages go (R385). -/
def Strand.setHcur (t : Strand) (tag : BitVec 20) : Strand := { t with hcur := tag }
def State.moveHcur (s : State) (tag : BitVec 20) : State :=
  if s.cur.hcur = tag then s else { s.keepL1 s.cur.place fun l => !l.ofHyp with cur := (s.cur.setHcur tag) }

def execHypOpen (f : FormY) (s : State) : Host.Outcome State Fault Refusal := issue f.grd s fun s =>
  s.askTable f 0 none
    (fun p =>
      let parent := p.effective (hypId s.cur.hcur)
      if p.isRefuted parent then s.hypDone f .dead
      else match s.freeId p with
        | none => (s.wrG f.gv1 0).hypDone f .full
        | some id =>
          if p.depthOf parent = 15 then (s.wrG f.gv1 0).hypDone f .full
          else
            let r := s.openAt p id parent
            (r.1.wrG f.gv1 (r.2.setWidth 64)).hypDone f .ok)
    (fun st v =>
      let s := if st = .ok then s.updPart s.cix fun p => p.learnOpened (v.setWidth 20) (p.tagOf (p.effective (hypId s.cur.hcur))) else s
      (if st = .ok ∨ st = .full then s.wrG f.gv1 v else s).hypDone f st)

def execHypEnter (f : FormY) (s : State) : Host.Outcome State Fault Refusal := issue f.grd s fun s =>
  let h := s.rdG f.gv1
  s.askTable f 1 none
    (fun p =>
      let tag : BitVec 20 := h.setWidth 20
      if s.matches p h = false then s.hypStale f
      else if p.openOrRoot (hypId tag) = false then s.hypDone f .dead
      else if (p.chain (hypId tag)).contains (p.effective (hypId s.cur.hcur)) = false then s.hypSync tag
      else (s.moveHcur tag).hypDone f .ok)
    (fun st _ => (if st = .ok then s.moveHcur (h.setWidth 20) else s).hypDone f st)

def execHypLeave (f : FormY) (s : State) : Host.Outcome State Fault Refusal := issue f.grd s fun s =>
  s.askTable f 2 none
    (fun p =>
      if hypId s.cur.hcur = 0 then s.hypDone f .empty
      else
        let e := p.effective (hypId s.cur.hcur)
        if p.isRefuted e then s.hypDone f .dead
        else (s.moveHcur (p.tagOf (p.parentOf e))).hypDone f .ok)
    (fun st v => (if st = .ok then s.moveHcur (v.setWidth 20) else s).hypDone f st)

/-- HYP.RSV (R398): a release, then the resolve at the table home as one act. -/
def execHypRsv (f : FormY) (s : State) : Host.Outcome State Fault Refusal := issue f.grd s fun s =>
  let h := s.rdG f.gv1
  let counter : Option Word64 := if f.gh = 0 then none else some (s.rdG f.gh)
  let act (s : State) : State := s.askTable f 3 counter
    (fun p =>
      let tag : BitVec 20 := h.setWidth 20
      let id := hypId tag
      let mine := p.effective (hypId s.cur.hcur)
      let chain := p.chain mine
      if s.matches p h = false then s.hypStale f
      else if id = 0 ∨ p.openOrRoot id = false then s.hypDone f .dead
      else if chain.contains (p.parentOf id) = false then s.hypSync (p.tagOf (p.parentOf id))
      else if chain.contains id ∧ mine ≠ id then s.hypSync tag
      else
        let q := if f.imm.getLsbD 0 then p.refute id 1 s.fresh counter s.soFar else p.confirm id s.fresh counter s.soFar
        (s.setPart q).bump.hypDone f .ok)
    (fun st _ => s.hypDone f st)
  if s.cur.blocked.isSome then act s else s.waitRelease act

def execHypQry (f : FormY) (s : State) : Host.Outcome State Fault Refusal := issue f.grd s fun s =>
  let h := s.rdG f.gv1
  s.askTable f 4 none
    (fun p =>
      if s.matches p h = false then
        if f.f then s.hypStale f else (s.wrG f.gv2 (queryHyp p (h.toNat % 4096))).hypDone f .stale
      else (s.wrG f.gv2 (queryHyp p (h.toNat % 4096))).hypDone f .ok)
    (fun st v => (if st = .ok ∨ st = .stale then s.wrG f.gv2 v else s).hypDone f st)

/-! ### A site applies a resolve (R387-R389, R392) -/

/-- One version folded into the effective hypothesis or the committed line (R388). -/
def foldVersion (s : State) (target : BitVec 20) (v : Version) : State :=
  let s := { s with versions := s.versions.filter fun w => !sameVersion v w }
  if hypId target = 0 then
    { s with mem := writeBytes s.mem (((List.range 128).filter fun i => v.mask.getLsbD i).map fun i => (v.line + i, lineByte v.data i)) }
  else
    match s.versions.find? fun w => w.cix == v.cix && w.line == v.line && w.tag == target with
    | none => { s with versions := { v with tag := target } :: s.versions }
    | some w =>
      let data := (List.range 128).foldl (fun d i => if v.mask.getLsbD i then setLineByte d i (lineByte v.data i) else d) w.data
      { s with versions := s.versions.map fun x => if sameVersion w x then { x with data := data, mask := x.mask ||| v.mask } else x }

/-- A confirm rewrites the HCUR of strands (R387); under a refute those in the list are orphaned (R392). -/
def applyToStrand (r : Resolve) (target : BitVec 20) (s : State) (t : Strand) : State :=
  if t.ended then s
  else if r.confirm then
    if t.hcur = r.hyp then ((s.keepL1 t.place fun l => !l.ofHyp).setStrand { t with hcur := target }) else s
  else if r.tags.contains t.hcur then s.endStrand t.id .exitedOrphan true else s

/-- Unplaced groups of launches under the hypothesis (R387, R392). -/
def applyToLaunch (r : Resolve) (target : BitVec 20) (l : Launch) : Launch :=
  if r.confirm then (if l.hyp = r.hyp then { l with hyp := target } else l)
  else if r.tags.contains l.hyp ∧ l.st ≠ .checking then { l with next := l.nx * l.ny * l.nz, heldBack := [] } else l

/-- The waits of other modules' strands at a part's cells follow a confirm as their strands do. -/
def State.moveWaits (s : State) (p : Part) (hyp target : BitVec 20) : State :=
  { s with waits := s.waits.map fun w => if w.hyp = hyp ∧ p.inRanges w.pa 32 then { w with hyp := target } else w }
/-- The table home sends a resolve to the other modules (R387). -/
def State.sendResolve (s : State) (cix : Nat) (r : Resolve) : State :=
  s.livePeers.foldl (fun s m =>
    let seqNo := BitVec.ofNat 16 s.fresh
    (s.tellPeer cix .unit m 0 (.resolve r.hyp r.confirm r.tags r.target r.kids)).updPart cix fun p =>
      { p with resolves := p.resolves.map fun x => if x.rid = r.rid then { x with mods := (m, seqNo) :: x.mods } else x }) s
/-- RESOLVE_APPLY: a site applies the oldest resolve it has not applied; its homes fold or forget, its strands and cells follow, and it
acknowledges. With the first site the scheduler does the same to records and unplaced groups, and with each to the records saved since. -/
def execResolveApply (cix rid site : Nat) (s : State) : Host.Outcome State Fault Refusal :=
  match s.part? cix with
  | none => .next s
  | some p =>
    match p.unapplied site with
    | [] => .next s
    | r :: _ =>
      if r.rid ≠ rid ∨ p.sites.contains site = false then .next s else
      let target := p.tagOf (p.effective (hypId r.target))
      let s := s.updPart cix fun p =>
        { p with resolves := p.resolves.map fun x => if x.rid = rid then { x with sites := site :: x.sites } else x }
      let here := s.versions.filter fun v => v.cix == cix && decide ((p.home v.line).site = site) && r.tags.contains v.tag
      let s := if r.confirm then here.foldl (fun s v => foldVersion s r.target v) s else s
      let s := (s.strands.filter fun t => decide (t.id.grp.cix = cix) && t.onCore && decide (t.place.site = site)).foldl (applyToStrand r target) s
      let s := (s.strands.filter fun t => decide (t.id.grp.cix = cix) && !t.onCore).foldl (applyToStrand r target) s
      let s := if r.sites.isEmpty then
          let s := s.updPart cix fun p => { p with launches := p.launches.map (applyToLaunch r target) }
          let s := if r.confirm then s.moveWaits p r.hyp target else s
          if r.asker.isNone then s.sendResolve cix r else s
        else s
      let s := if r.confirm then s else
        { s with groups := s.groups.filter fun g => !(g.st == .unplaced && g.id.cix == cix && p.launches.any fun l => l.lid == g.id.lid && r.tags.contains l.hyp) }
      let s := if r.confirm then s else
        (s.cells.filter fun g => g.tag != .free && g.tag != .qslot && !g.dead && decide ((p.home g.pa).site = site) && p.inRanges g.pa 32
          && p.isRefuted (effectiveOwner p g)).foldl (deaden r.tags) s
      let s := s.settleLaunches cix
      .next ((s.scrivener site 3 (if r.confirm then 0 else 1) cix 0 (BitVec.ofNat 32 (s.mid * 2 ^ 24 + site * 2 ^ 16)) (r.hyp.setWidth 64) 0).retire)

/-- Is an access under a resolve's tags, or a blocking one that may be, still on its way to its home? A VLDG or VSTG has its tag from issue (R190). -/
def State.resolveOut (s : State) (cix : Nat) (r : Resolve) : Bool :=
  s.net.any (fun q => q.cix == cix && !q.done && r.tags.contains q.hyp)
    || s.strands.any fun t => decide (t.id.grp.cix = cix)
      && ((t.blocked.map fun b => b.asked.isSome && b.answer.isNone && (b.target.map fun u => u.leaf.hyp).getD false).getD false
        || t.vq.any fun c => r.tags.contains c.hyp && c.chunks.any fun u => u.2.leaf.hyp)
/-- The table's module asks another one to sweep its slices of what a resolve has left (R380). -/
def State.askSweep (s : State) (cix mid : Nat) (tags : List (BitVec 20)) : State :=
  let seqNo := BitVec.ofNat 16 s.fresh
  (s.tellPeer cix .unit mid 0 (.sweep tags)).updPart cix fun p => p.mapHyp (tags.map hypId) fun e => { e with away := (mid, seqNo) :: e.away }
/-- RESOLVE_COMPLETE: every site of every module has applied it, and every access issued under it has been performed or discarded; the counter is posted
(R387), or the table's module is told. The other modules are asked for their scrub passes (R380). -/
def execResolveComplete (cix rid : Nat) (s : State) : Host.Outcome State Fault Refusal :=
  match s.part? cix with
  | none => .next s
  | some p =>
    match p.resolves.find? fun r => r.rid == rid with
    | none => .next s
    | some r =>
      if p.sites.all (fun x => r.sites.contains x) = false ∨ r.mods ≠ [] ∨ s.resolveOut cix r then .next s else
      let s := s.updPart cix fun p => ({ p with resolves := p.resolves.filter fun x => x.rid != rid } : Part).mapHyp
        (r.tags.map hypId) fun e => { e with resolved := true, swept := [] }
      .next (match r.asker with
        | some k => s.respond k (.status .ok 0 0)
        | none =>
          let s := s.livePeers.foldl (fun s m => s.askSweep cix m r.tags) s
          match r.handle with
          | none => s
          | some h => s.post cix .resolve .device r.view h 0 (.ctrAdd 1))

/-! ### The scrubber (R380, R440) -/

/-- A hypothesis is used by strands placed or saved, by jobs that captured it, and by cells whose OWN names it (R393). -/
def State.hypUsed (s : State) (p : Part) (id : Nat) : Bool :=
  s.strands.any (fun t => decide (t.id.grp.cix = p.cix) && !t.ended && hypId t.hcur == id)
    || s.jobs.any (fun j => decide (j.who.grp.cix = p.cix) && j.live && hypId j.hyp == id)
    || s.cells.any (fun g => g.tag != .free && g.tag != .qslot && g.own.toNat == id && p.inRanges g.pa 32)

/-- An entry all of whose slices have been swept since its resolve completed, and that nothing here uses, becomes FREE at the table's home, once every
other module has said the same of itself. -/
def freeSwept (s : State) (p : Part) (e : HypEntry) : HypEntry :=
  if p.tableModule = s.mid ∧ e.resolved ∧ (e.st = .confirmed ∨ e.st = .refuted) ∧ p.clusters.all (fun c => e.swept.contains c) ∧ e.away = [] ∧ s.hypUsed p e.id = false then
    { e with st := .free, cause := 0, swept := [], lost := false }
  else e
/-- The sweeps of a part that are done are acknowledged to the table's module. -/
def State.endSweeps (s : State) (p : Part) : State :=
  let done (w : Sweep) : Bool := p.clusters.all (fun c => w.swept.contains c) && w.tags.all fun t => !s.hypUsed p (hypId t)
  let s' := s.updPart p.cix fun p => { p with sweeps := p.sweeps.filter fun w => !done w }
  (p.sweeps.filter done).foldl (fun s w => s.respond w.asker (.status .ok 0 0)) s'
/-- SCRUB_PASS_END: the pass reclaims every version with a refuted tag or an outdated generation, and counts for the entries whose resolve
completed before. A module without the table tells the table's one when it has swept all its slices and uses the hypotheses no more. -/
def execScrubPassEnd (l : ClusterLoc) (s : State) : Host.Outcome State Fault Refusal :=
  let stale (v : Version) : Bool := match s.part? v.cix with
    | none => false
    | some p => decide (p.home v.line = l) && (s.siteTag p l.site v.tag).isNone
  let s := { s with versions := s.versions.filter fun v => !stale v }
  let s : State := { s with
   parts := s.parts.map fun p =>
    if p.clusters.contains l then
      let p1 := { p with hyps := p.hyps.map fun (e : HypEntry) => if e.resolved ∧ !e.swept.contains l then { e with swept := l :: e.swept } else e }
      let hyps := p1.hyps.map (freeSwept s p1)
      let freed := ((p1.hyps.zip hyps).filter fun x => x.1.st != .free && x.2.st == .free).map fun x => x.1.id
      { p1 with hyps := hyps.map (p1.relink freed),
                sweeps := p1.sweeps.map fun w => if w.swept.contains l then w else { w with swept := l :: w.swept } }
    else p }
  .next (s.parts.foldl State.endSweeps s)

end Sys2Proof.Machine
end

