-- ==== Sys2Proof/Machine/Group.lean ====
section
/-! DEFINITION. Groups placed, swapped, saved and restored (spec/18_group.md R340-R351; spec/16_queue.md R322; spec/17_kernel.md R327). -/

namespace Sys2Proof.Machine

/-! ### Starting a strand (R89, R94, R101, R327) -/

/-- A strand takes its place in the machine under its name. -/
def State.addStrand (s : State) (t : Strand) : State :=
  if s.cur.id = t.id then { s with cur := t } else { s with others := t :: s.others.filter fun u => decide (u.id ≠ t.id) }
/-- A core's L1 is invalidated for a new strand (R216). -/
def State.clearL1 (s : State) (c : CoreLoc) : State := s.setCore { s.core c with l1 := [] }
/-- The first PC of an entry of a kernel (R327). -/
def entryPc (k : Kernel) (ent : Nat) : BitVec 56 :=
  pcOf (pcIndex (BitVec.ofNat 56 (k.kimg.toNat + k.header.code.1)) + ((k.entries[ent]?).map KernelEntry.index).getD 0)
/-- A strand of a group at its start: what the take of its launch's record has acquired happens before it. -/
def newStrand (l : Launch) (k : Kernel) (id : StrandId) (c : CoreLoc) (room : Nat) : Strand :=
  let i := id.grp.lgi
  let g : Vector Word64 64 := Vector.ofFn fun n => if 1 ≤ n.val ∧ n.val ≤ 3 then (l.args[n.val - 1]?).getD 0 else 0
  { Strand.blank id c with
    pc := entryPc k l.ent, g := g, scnt := l.scnt, gx := BitVec.ofNat 16 (i % l.nx), gy := BitVec.ofNat 16 (i / l.nx % l.ny)
    gz := BitVec.ofNat 16 (i / (l.nx * l.ny)), nx := BitVec.ofNat 16 l.nx, ny := BitVec.ofNat 16 l.ny, nz := BitVec.ofNat 16 l.nz, hcur := l.hyp
    bud := Nat.min 36 room, kid := l.kid, ent := l.ent, recipes := k.recipes, view := l.view }
/-- A strand placed under a hypothesis that its site has refuted is orphaned (R392). -/
def State.orphanAt (s : State) (id : StrandId) : State :=
  match s.strand? id, s.part? id.grp.cix with
  | some t, some p => if (s.siteTag p t.place.site t.hcur).isNone then s.endStrand id .exitedOrphan true else s
  | _, _ => s
/-- The strands of a new group start on their cores. -/
def State.startGroup (s : State) (l : Launch) (k : Kernel) (g : GroupId) (cores : List CoreLoc) : State :=
  let s := { s with groups := s.groups.filter (fun (x : Group) => decide (x.id ≠ g)) ++
    [({ id := g, st := .resident, held := false, preempt := none, frozenAt := 0, overrun := false, reserve := none, fullSent := false } : Group)] }
  let s : State := cores.zipIdx.foldl (fun (s : State) c =>
    let id : StrandId := { grp := g, sidx := c.2 }
    (s.clearL1 c.1).addStrand (newStrand l k id c.1 ((s.clearL1 c.1).budRoom c.1))) s
  ((List.range cores.length).foldl (fun (s : State) i => s.orphanAt { grp := g, sidx := i }) s).retire

/-! ### Restoring a group (R101, R340, R351) -/

/-- The state a saved strand returns to: PARKED while its wait is unsatisfied. -/
def restoredStatus (t : Strand) : StrandStatus := if t.park.isSome then .parked else .run
def State.restoreGroup (s : State) (g : GroupId) (pairs : List (Strand × CoreLoc)) : State :=
  let s := pairs.foldl (fun s x => s.restoreStrand x.1 x.2 (restoredStatus x.1)) s
  let s := s.updGroup g fun x => { x with st := .resident, preempt := none, reserve := none, overrun := false, fullSent := false }
  let s := pairs.foldl (fun s x => s.resumeWait x.1.id) s
  (pairs.foldl (fun s x => s.orphanAt x.1.id) s).retire

/-! ### The scheduler's choice (R322) -/

/-- A candidate: its rank (deadline, queue, READY before unplaced before what has no group yet), and the launch, the group and how many strands
it places; none for a record that the scheduler has still to take or check. -/
structure Candidate where
  deadline : Nat
  lqi      : Nat
  later    : Nat
  group    : Option (Launch × GroupId × Nat)
  deriving DecidableEq, Repr
def Candidate.before (a b : Candidate) : Bool :=
  decide (a.deadline < b.deadline) || (a.deadline == b.deadline && (decide (a.lqi < b.lqi) || (a.lqi == b.lqi && decide (a.later < b.later))))
/-- The first of the best-ranked. -/
def firstRanked : List Candidate → Option Candidate
  | [] => none
  | c :: rest => match firstRanked rest with
    | none => some c
    | some d => if d.before c then some d else some c
/-- The candidates of a launch: none while its queue has no budget left; a launch whose queue has been killed ranks last, and so does one that has ended
with strands left parked. While a site is retired, READY groups wait (R438). -/
def State.candidates (s : State) (p : Part) (l : Launch) : List Candidate :=
  let rank : Nat × Nat := ((p.queueOf l).map fun q => (q.deadline.toNat, q.lqi)).getD (2 ^ 64, 64)
  let ready (g : GroupId) : Bool := (s.group? g).any fun x => x.st == .ready
  if p.hasBudget l = false then [] else
  ((s.placeable p l).filter fun g => p.draining.isNone || !ready g.1).map fun g =>
    { deadline := rank.1, lqi := rank.2, later := if ready g.1 then 0 else 1, group := some (l, g.1, g.2) }
/-- A queue holds work too when a launch taken from it is still being checked, or when its slots hold a record that may be taken. -/
def State.recordWork (s : State) (p : Part) (q : LaunchQueue) : List Candidate :=
  let mine := p.launches.filter fun l => l.lqi == q.lqi && l.born == q.born && l.st != .running
  let g := s.granule q.pa
  if q.remain ≠ 0 ∧ (mine.any (fun l => l.st == .checking) ∨ (mine = [] ∧ g.tag = .queue ∧ g.dead = false ∧ qCount g ≠ 0)) then
    [{ deadline := q.deadline.toNat, lqi := q.lqi, later := 2, group := none }]
  else []
/-- A switch of the ring takes the part off its sites: it has begun, or the quantum has passed (R252). What it pre-empts is not placed again. -/
def State.switching (s : State) (p : Part) : Bool :=
  s.strands.any (fun t => t.id.grp.cix == p.cix && t.fmn && (t.stop.isSome || t.saved.isSome))
    || (p.ts && s.parts.any (fun q => q.cix != p.cix && q.ts && q.csite == p.csite && q.serves) && decide (p.since + fieldNat p.ctsq 0 32 * 1100 ≤ s.clk.toNat))
/-- A launch's record of a group dealt. -/
def State.noteDealt (s : State) (cix lid n : Nat) : State :=
  (s.updPart cix fun p => { p with launches := p.launches.map fun l =>
    if l.lid = lid ∧ l.st = .placing then { l with next := Nat.max l.next (n + 1) } else l }).settleLaunches cix
/-- GROUP_PLACE: the first-ranked group is placed when it fits; no other group is placed before it. -/
def execGroupPlace (cix : Nat) (s : State) : Host.Outcome State Fault Refusal :=
  .next (match s.part? cix with
    | none => s
    | some p =>
      if p.schedules = false ∨ p.current = false ∨ s.switching p then s
      else match (firstRanked (((p.launches ++ s.leftLaunches p).map (s.candidates p)).flatten ++ (p.queues.map (s.recordWork p)).flatten)).bind Candidate.group with
        | none => s
        | some (l, grp, count) => match s.placeOf p grp l.scnt count with
          | none => s
          | some cores =>
            if (s.group? grp).any (fun x => x.st == .ready) then s.restoreGroup grp ((s.liveStrands grp).zip cores)
            else match p.kernels.find? fun k => k.kid == l.kid with
              | none => s
              | some k => (s.startGroup l k grp cores).noteDealt cix l.lid grp.lgi)

/-! ### Swapping (R345, R346, R348) -/

/-- CLK of the earliest park among strands still parked. -/
def earliestPark : List Strand → Option Nat
  | [] => none
  | t :: rest => match t.status, t.park with
    | .parked, some k => some (match earliestPark rest with
      | some n => Nat.min k.since n
      | none => k.since)
    | _, _ => earliestPark rest
/-- The swap rule of R345. -/
def State.swapRule (s : State) (p : Part) (g : Group) : Bool :=
  let ts := s.groupStrands g.id
  let thr := fieldNat p.swapt 0 32
  g.st == .resident && g.preempt.isNone && p.current && thr != 0xFFFFFFFF && ts.all (fun t => t.status == .parked || t.ended)
    && (match earliestPark ts with
      | some n => decide (n + thr < s.clk.toNat)
      | none => false)
/-- SWAP: the reservation is made and the group is SAVING; one that fails changes nothing. -/
def execSwap (grp : GroupId) (s : State) : Host.Outcome State Fault Refusal :=
  .next (match s.group? grp, s.part? grp.cix with
    | some g, some p =>
      if s.swapRule p g then
        (match s.reserve grp (s.needOfGroup grp) with
        | some s => s.updGroup grp fun g => { g with st := .saving }
        | none => s)
      else s
    | _, _ => s)
/-- SAVE_COMPLETE: the records of a SAVING group are written once its queues have drained; the group is READY when a wait has completed
meanwhile. -/
def execSaveComplete (grp : GroupId) (s : State) : Host.Outcome State Fault Refusal :=
  .next (match s.group? grp with
    | some g =>
      let ts := (s.groupStrands grp).filter fun t => !t.ended
      if g.st ≠ .saving ∨ ts.any (fun t => !s.canSave t) then s
      else
        let s := ts.foldl (fun s t => match t.park with
          | some k => s.saveStrand t (if k.result.isSome then .ready else .swapped) 0 k.ls (s.liveSet t k.ls) false
          | none => s) s
        let s := ts.foldl (fun s t => match s.strand? t.id with
          | some t => if (t.park.bind Park.result).isSome then s.rewriteWake t else s
          | none => s) s
        s.updGroup grp fun g => { g with st := if ts.any fun t => (t.park.bind Park.result).isSome then .ready else .swapped }
    | none => s)

/-! ### Grace and retries (R347, R348) -/

/-- GRACE_EXPIRY: a strand that has reached no stop point in time stops at its instruction boundary. -/
def execGraceExpiry (who : StrandId) (s : State) : Host.Outcome State Fault Refusal :=
  .next (match s.strand? who, s.group? who.grp, s.part? who.grp.cix with
    | some t, some g, some p => (match g.preempt with
      | some since =>
        if t.status = .run ∧ t.stop = none ∧ t.blocked = none ∧ g.st = .resident ∧ p.current ∧ since + p.grace ≤ s.clk.toNat then
          s.onStrand who fun s => { s with opnd := none }.stopAt .boundary s.cur.pc
        else s
      | none => s)
    | _, _, _ => s)
/-- SAVE_RETRY: a pending reservation is tried again, and strands that stopped are saved. -/
def execSaveRetry (grp : GroupId) (s : State) : Host.Outcome State Fault Refusal :=
  .next (match s.group? grp with
    | some g => if g.st = .resident ∧ g.preempt.isSome then (s.tryReserve g).trySaves grp else s
    | none => s)

/-! ### Freezing, thawing, killing (R343, R344, R363) -/

/-- A frozen strand goes on: it runs, or parks again, or its wait completes. -/
def thawStrand (grp : GroupId) (t : Strand) : Strand :=
  if t.id.grp = grp ∧ t.status = .frozen then { t with status := if t.park.isSome then .parked else .run } else t
/-- A pre-emption's grace time does not run while its group is FROZEN. -/
def thawGroup (now : Nat) (g : Group) : Group :=
  if g.st = .frozen then
    { g with st := .resident, held := false, preempt := g.preempt.map fun since => since + (now - Nat.max since g.frozenAt) }
  else { g with held := false }
def State.thaw (s : State) (grp : GroupId) : State :=
  let ts := s.groupStrands grp
  let s := (s.mapStrands (thawStrand grp)).updGroup grp (thawGroup s.clk.toNat)
  let s := ts.foldl (fun s t => if t.status = .frozen then s.resumeWait t.id else s) s
  match s.group? grp with
  | some g => if g.st = .resident ∧ g.preempt.isSome then (s.tryReserve g).trySaves grp else s
  | none => s
/-- GRP.KILL of a group that stands in the list. -/
def State.killGroup (s : State) (grp : GroupId) : State :=
  let s := (s.groupStrands grp).foldl (fun s t => s.endStrand t.id .exited false) s
  { s with groups := s.groups.filter fun g => decide (g.id ≠ grp) }

end Sys2Proof.Machine
end

