-- ==== Sys2Proof/Machine/Foreman.lean ====
section
/-! DEFINITION. The foreman (spec/12_context.md R256; spec/19_fault.md R353-R366): its windows, the GRP instructions, TLB.INV
(spec/13_page.md R269), the delivery of records, and the DOUBLE. -/

namespace Sys2Proof.Machine

/-! ### The foreman's strand (R256, R361) -/

def foremanId (cix : Nat) : StrandId := { grp := { cix := cix, lid := 0, lgi := 0 }, sidx := 0 }
/-- The kernel table has 256 entries; the foreman's image stands beside them. -/
def foremanKid : Nat := 256
/-- The foreman's image, checked as R329 checks a kernel image. -/
def State.foremanImage (s : State) (p : Part) : State × Except Nat Kernel := s.loadImage p (blankKernel foremanKid p.cfki)
/-- The foreman begins entry 0 of an image on its core, with the state of R89. -/
def State.startForeman (s : State) (cix : Nat) (k : Kernel) : State :=
  match s.part? cix with
  | none => s
  | some p =>
    let c := s.foremanCore p
    let s := (s.endStrand (foremanId cix) .exited false).updPart cix fun p =>
      { p with kernels := p.kernels.filter (fun x => x.kid != foremanKid) ++ [k], fqh := 0, lost := 0, double := none }
    let s := (s.clearL1 c)
    s.addStrand { Strand.blank (foremanId cix) c with
      pc := entryPc k 0, fmn := true, bud := Nat.min 36 (s.budRoom c), kid := foremanKid, recipes := k.recipes }

/-! ### ERROR (R247, R250, R287) -/

/-- Strands of other modules that wait at the part's homes are woken with DEAD; those of the part are discarded with it. -/
def State.wakeOutsiders (s : State) (p : Part) : State :=
  (s.waits.filter fun w => w.mid != s.mid && p.inRanges w.pa 32).foldl (fun s w => s.wakeStatus w .dead) s
/-- The waits of a part's strands are discarded with it, here and at other modules (R287). -/
def State.discardWaits (s : State) (cix : Nat) : State :=
  let mine := s.strands.filter fun t => decide (t.id.grp.cix = cix)
  let out (t : Strand) : List (Nat × Nat × Word64) :=
    ((t.park.toList.filter fun k => k.mid != s.mid).map fun k => (k.mid, k.pa, k.handle)) ++ t.askedAfar
  let drop (who : StrandId) (s : State) (x : Nat × Nat × Word64) : State :=
    if s.peerLost x.1 then s else s.tellPeer cix (.strand who 0) x.1 x.2.1 (.discard x.2.2)
  let s := mine.foldl (fun s t => (out t).foldl (drop t.id) s) s
  { s with waits := s.waits.filter fun w => !(w.mid == s.mid && w.who.grp.cix == cix) }
/-- Every strand of a part freezes. -/
def freezePart (cix : Nat) (t : Strand) : Strand :=
  if t.id.grp.cix = cix ∧ (t.status = .run ∨ t.status = .parked) then { t with status := .frozen, byTransfer := false } else t
/-- A part that was leaving sites does so no more; a site that no other part leaves is in service as before (R438, assumption 17). -/
def State.endDrain (s : State) (p : Part) : State :=
  let kept (n : Nat) : Bool := p.csite.getLsbD n && !s.parts.any fun q => q.cix != p.cix && q.st == .quiescing && q.csite.getLsbD n
  { s with sites := s.sites.map fun x => if kept x.n ∧ x.stat = 1 then { x with stat := 0 } else x }
/-- The part enters ERROR with a cause. -/
def State.partError (s : State) (cix : Nat) (cause : Byte) : State :=
  match s.part? cix with
  | none => s
  | some p =>
    let s := (s.mapStrands (freezePart cix)).updPart cix fun p => { p with st := .error, cause := cause, draining := none }
    let s := if p.st = .quiescing then s.endDrain p else s
    let s : State := { s with groups := s.groups.map fun (g : Group) =>
                 if g.id.cix = cix ∧ g.st = GroupStatus.resident then { g with st := .frozen, frozenAt := s.clk.toNat } else g }
    (s.wakeOutsiders p).discardWaits cix

/-! ### DOUBLE (R360, R361) -/

/-- CDREC and the scrivener take a DOUBLE record. -/
def State.noteDouble (s : State) (cix : Nat) (r : Record) : State :=
  (s.updPart cix fun p => { p with cdrec := r.bits, double := none }).scrivener (siteOfLoc r.loc) 10 (BitVec.ofNat 8 (faultCodeNat r.code)) cix 0
    r.loc r.addr (r.info.setWidth 32)
/-- A freezing fault of the foreman as a DOUBLE record. -/
def doubleRecord (r : Record) : Record := { r with code := .double, sub := BitVec.ofNat 8 (faultCodeNat r.code) }
/-- The record of a foreman image refused at a restart. -/
def refusedImage (s : State) (p : Part) (code : Nat) : Record :=
  { blankRecord .double with addr := p.cfki, info := BitVec.ofNat 64 code, loc := locWord s.mid (s.foremanCore p), clk := s.clk }
/-- DOUBLE: CDREC and the scrivener, then the policy of CDPOL. A part that has left RUN only keeps the record. -/
def execDouble (cix : Nat) (s : State) : Host.Outcome State Fault Refusal :=
  .next (match s.part? cix with
    | none => s
    | some p => match p.double with
      | none => s
      | some r =>
        let s := s.noteDouble cix (doubleRecord r)
        if p.st ≠ .locked ∧ p.st ≠ .run ∧ p.st ≠ .quiescing then s
        else if p.cdpol.getLsbD 0 = false ∨ p.taken = false then s.partError cix 0x10
        else match s.foremanImage p with
          | (s, .ok k) => (s.startForeman cix k).updPart cix fun p => { p with taken := false }
          | (s, .error code) => (s.noteDouble cix (refusedImage s p code)).partError cix 0x10)

/-! ### Delivery of records (R354, R356, R357) -/

/-- The source of a record: a strand, a home, or the scheduler. -/
def recordSource (s : State) (cix : Nat) (r : Record) : Nat × Nat × Nat :=
  match r.code with
  | .watch => home r
  | .mixed => home r
  | .overrun => (2, 0, 0)
  | .refused => (2, 0, 0)
  | .saveFull => (2, 0, 0)
  | .notice => (2, 0, 0)
  | _ => (0, r.ghnd.toNat, r.sidx)
where
  home (r : Record) : Nat × Nat × Nat :=
    (1, ((s.part? cix).map fun (p : Part) => (let h := p.home r.addr.toNat; h.site * 32 + h.cluster)).getD 0, 0)
/-- Records wait for the tags of their strand, and for the earlier records of their source. -/
def State.deliverable (s : State) (d : Delivery) : List Delivery → Bool
  | [] => false
  | e :: rest =>
    if e.id = d.id then
      (match d.after with
      | none => true
      | some (i, tags) => (match s.strand? i with
        | some t => tags.all fun u => !t.unacked.contains u
        | none => true))
    else !(e.cix == d.cix && recordSource s e.cix e.record == recordSource s d.cix d.record) && s.deliverable d rest
/-- FAULT_RECORD_DELIVERY: the record goes to the fault queue or the buffer, once the queue's line is at hand (R278). -/
def execFaultRecordDelivery (rec_ : Nat) (s : State) : Host.Outcome State Fault Refusal :=
  .next (match s.records.find? fun d => d.id == rec_ with
    | none => s
    | some d =>
      if s.deliverable d s.records = false then s
      else
        ((({ s with records := s.records.filter fun e => e.id != rec_ } : State).deliverRecord d.cix d.record).getD s))

/-! ### Groups by handle (R363) -/

/-- What a group handle names: nothing live, a group of the list (of a launch, or left parked by one that has ended), or one that has not been dealt. -/
inductive GroupFound
  | missing
  | listed (g : Group)
  | undealt (l : Launch) (id : GroupId) (held : Bool)
  deriving DecidableEq, Repr
def State.findGroup (s : State) (p : Part) (h : Word64) : GroupFound :=
  let lgi := fieldNat h 0 48
  match p.launches.find? fun l => l.lid % 65536 == fieldNat h 48 16 with
  | none => match s.groups.find? fun g => g.id.cix == p.cix && g.id.lid % 65536 == fieldNat h 48 16 && g.id.lgi == lgi with
    | some g => .listed g
    | none => .missing
  | some l =>
    let id : GroupId := { cix := p.cix, lid := l.lid, lgi := lgi }
    match s.group? id with
    | some g => .listed g
    | none =>
      if l.st = .checking ∨ l.total ≤ lgi ∨ l.dropped.contains lgi then .missing
      else if l.heldBack.contains lgi then .undealt l id true
      else if l.next ≤ lgi then .undealt l id false else .missing
/-- A launch changed; one whose every group has been dealt is RUNNING. -/
def State.updLaunch (s : State) (cix lid : Nat) (f : Launch → Launch) : State :=
  (s.updPart cix fun p => { p with launches := p.launches.map fun l => if l.lid = lid then f l else l }).settleLaunches cix

/-- The status a GRP instruction writes: 0 OK, 1 NONE, 2 STATE. -/
def State.grpDone (s : State) (f : FormS) (st : Nat) : State := s.putG f.gd (BitVec.ofNat 64 st)
/-- The frame of a GRP instruction. -/
def grpOp (f : FormS) (s : State) (body : Part → GroupFound → State) : State :=
  match s.part? s.cix with
  | none => s.grpDone f 1
  | some p => match s.findGroup p (s.rdG f.ga) with
    | .missing => s.grpDone f 1
    | g => body p g

/-- The issuing strand waits for what it has asked of the whole module. -/
def State.waitHere (s : State) : State :=
  { s with cur := { s.cur with blocked := some { pc := s.cur.pc, asked := none, answer := none, target := none, writes := false, sgen := none } }
           last := .stall }
/-- A GRP instruction that has begun goes on waiting for a group, or has ended. -/
def grpWait (f : FormS) (s : State) (waits : State → GroupId → Bool) : State :=
  match s.part? s.cix with
  | none => s.grpDone f 0
  | some p => if waits s (groupOfHandle p (s.rdG f.ga)) then s.stall else s.grpDone f 0
where
  /-- The group that a handle names, whether it is still live or not. -/
  groupOfHandle (p : Part) (h : Word64) : GroupId :=
    { cix := p.cix, lid := ((p.launches.find? fun l => l.lid % 65536 == fieldNat h 48 16).map Launch.lid).getD (fieldNat h 48 16), lgi := fieldNat h 0 48 }
/-- A strand of a group has still to come to its boundary. -/
def State.stillRuns (s : State) (g : GroupId) : Bool := s.strands.any fun t => decide (t.id.grp = g) && t.status == .run
/-- GRP.FRZ: it waits for the strands whose instruction waits for another module's answer (R354). -/
def execGrpFrz (f : FormS) (s : State) : Host.Outcome State Fault Refusal := issueForeman f.grd s fun s =>
  if s.cur.blocked.isSome then grpWait f s State.stillRuns else
  grpOp f s fun _ found => match found with
    | .listed g =>
      if g.st = .resident then
        (let t := freezeGroup s g.id
         if t.stillRuns g.id then t.waitHere else t.grpDone f 0)
      else (if g.st = .frozen then s else s.updGroup g.id fun g => { g with held := true } : State).grpDone f 0
    | .undealt _ id held =>
      (if held then s else s.updLaunch id.cix id.lid fun l => { l with heldBack := l.heldBack ++ [id.lgi] } : State).grpDone f 0
    | .missing => s.grpDone f 0

def blankGroup (id : GroupId) (st : GroupStatus) : Group :=
  { id := id, st := st, held := false, preempt := none, frozenAt := 0, overrun := false, reserve := none, fullSent := false }
/-- GRP.THAW. A group that was held before its deal, and that the deal has passed, stands from then on in the list. -/
def execGrpThaw (f : FormS) (s : State) : Host.Outcome State Fault Refusal := issueForeman f.grd s fun s =>
  grpOp f s fun _ found => match found with
    | .listed g => if g.st = .frozen ∨ g.held then (s.thaw g.id).grpDone f 0 else s.grpDone f 2
    | .undealt l id held =>
      if held = false then s.grpDone f 2
      else
        let s := if id.lgi < l.next then { s with groups := s.groups ++ [blankGroup id .unplaced] } else s
        (s.updLaunch id.cix id.lid fun l => { l with heldBack := l.heldBack.filter fun n => n != id.lgi }).grpDone f 0
    | .missing => s.grpDone f 1

/-- Another module has not acknowledged yet that what a strand of a group had there is withdrawn. -/
def State.stillHeld (s : State) (g : GroupId) : Bool := s.givenUp.any fun e => decide (e.1.grp = g)
/-- GRP.KILL: it waits until every park is withdrawn, those at homes on other modules included. -/
def execGrpKill (f : FormS) (s : State) : Host.Outcome State Fault Refusal := issueForeman f.grd s fun s =>
  if s.cur.blocked.isSome then grpWait f s State.stillHeld else
  grpOp f s fun _ found => match found with
    | .listed g =>
      let t := s.killGroup g.id
      if t.stillHeld g.id then t.waitHere else t.grpDone f 0
    | .undealt _ id _ => (s.updLaunch id.cix id.lid fun l =>
        { l with heldBack := l.heldBack.filter (fun n => n != id.lgi), dropped := l.dropped ++ [id.lgi] }).grpDone f 0
    | .missing => s.grpDone f 0

/-! ### Window 0 (R364, R365) -/

/-- Is an INDEX of a CLASS in the table? -/
def windowIndexOk (cls idx : Nat) : Bool :=
  match cls with
  | 0 => decide (idx < 64)
  | 1 => decide (idx < 8)
  | 2 => decide (idx < 64 * 48)
  | 3 => decide (idx < 64)
  | 4 => decide (idx < 2048 * 4)
  | 5 => decide (idx < 8)
  | 6 => decide (idx < 128)
  | 7 => decide (idx < 16) && decide (idx % 4 < 3)
  | 8 => decide (idx < 12)
  | 9 => decide (idx % 8 = 0) && decide (idx < 131072)
  | 15 => decide (idx = 0)
  | _ => false
def strandCode : StrandStatus → Nat
  | .run => 0
  | .parked => 1
  | .frozen => 2
  | .swapped => 3
  | .ready => 4
  | .exited => 5
  | .exitedOrphan => 6
def groupCode : GroupStatus → Nat
  | .unplaced => 0
  | .resident => 1
  | .frozen => 2
  | .saving => 3
  | .swapped => 4
  | .ready => 5
/-- CLASS 15. -/
def State.windowState (s : State) (found : GroupFound) (sidx : Nat) : Nat :=
  match found with
  | .missing => 7 + 6 * 16
  | .undealt _ _ held => 7 + (if held then 256 else 0)
  | .listed g =>
    ((s.strand? { grp := g.id, sidx := sidx }).map fun t => strandCode t.status).getD 7 + groupCode g.st * 16 + (if g.held then 256 else 0)
/-- Loop entry n, lp0 the outermost. -/
def Strand.loopAt (t : Strand) (n : Nat) : Option LoopEntry := t.loops.reverse[n]?
def wordOf (w : Nat) (x : BitVec w) (i : Nat) : Word64 := x.extractLsb' (64 * i) 64
/-- A 64-bit word of a wide register replaced. -/
def setWord {w : Nat} (x : BitVec w) (i : Nat) (v : Word64) : BitVec w :=
  (x &&& ~~~((BitVec.ofNat w (2 ^ 64 - 1)) <<< (64 * i))) ||| ((v.setWidth w) <<< (64 * i))
/-- A register of a frozen strand, v registers apart. -/
def State.frozenRead (s : State) (t : Strand) (cls idx : Nat) : Word64 :=
  match cls with
  | 0 => if idx = 0 then 0 else (t.g[idx]?).getD 0
  | 1 => if idx = 0 then 1 else (if t.k.getLsbD idx then 1 else 0)
  | 3 => wordOf 512 (t.m' (idx / 8)) (idx % 8)
  | 4 => wordOf 131072 (t.c' (idx / 2048)) (idx % 2048)
  | 5 => let r := t.f' (idx / 2); if idx % 2 = 0 then r.value else BitVec.ofNat 64 ((if r.full then 1 else 0) + 2 * r.producers.length)
  | 6 => wordOf 512 (t.d' (idx / 8)) (idx % 8)
  | 7 => (match t.loopAt (idx / 4) with
    | some e => BitVec.ofNat 64 (if idx % 4 = 0 then e.start else if idx % 4 = 1 then e.final else e.count)
    | none => 0)
  | 8 => (match idx with
    | 0 => t.pc.setWidth 64
    | 1 => t.ssw
    | 2 => t.hcur.setWidth 64
    | 3 => t.vflags.setWidth 64
    | 4 => t.rbud
    | 5 => t.seqTag.setWidth 64
    | 6 => t.luta
    | 7 => t.lutb
    | 8 => t.ggr0
    | 9 => t.ggr1
    | 10 => t.jseq.setWidth 64
    | _ => BitVec.ofNat 64 t.weight)
  | _ => BitVec.ofNat 64 (s.readStore t.place idx 8)

/-- The bound registers of a strand that a window reads are read by it: replayed when DROPPED; a replay fault reads 0. None while chunks
of another module are awaited. -/
def State.windowReadV (s : State) (id : StrandId) (v : Nat) : State × Option VecBits :=
  match s.strand? id with
  | none => (s, some 0)
  | some t => match (t.vr v).binding with
    | none => (s, some (t.v' v))
    | some b =>
      let here := s.cur.id
      match b.st with
      | .resident => (s, some (t.v' v))
      | .stale => (s, some 0)
      | .dropped => match ({ s.focus id with opnd := none } : State).runBinding 3 b with
        | (r, .wait) => (r.focus here, none)
        | (r, .ok x _ page) =>
          ((r.dropReplayChunks.keepReplayed v { b with page := page } x).focus here, some x)
        | (r, .stale a nested) =>
          (({ r.dropReplayChunks with cur := r.cur.failBinding v b (some a) nested } : State).focus here, some 0)
        | (r, .fault _ _ _ nested) =>
          (({ r.dropReplayChunks with cur := r.cur.failBinding v b none nested } : State).focus here, some 0)

/-- A written PC withdraws the strand's park, and what it has asked of a cell of another module, and clears SSW.AP (R304, R365). -/
def State.windowPc (s : State) (t : Strand) (x : Word64) : State :=
  match pcOfReg x with
  | none => s
  | some pc =>
    (t.askedAfar.foldl (fun s x => s.giveUp t.id x) (withdrawPark s t)).setStrand
      { t with pc := pc, ap := false, park := none, blocked := none, answered := none, byTransfer := false }
/-- A write into a frozen strand, v registers apart. -/
def State.frozenWrite (s : State) (t : Strand) (cls idx : Nat) (x : Word64) : State :=
  match cls with
  | 0 => if h : idx < 64 then
      (if idx = 0 then s else s.setStrand { t with g := t.g.set idx x h, spoiled := t.spoiled.filter fun e => e.1.toNat != idx }) else s
  | 1 => if idx = 0 then s else s.setStrand { t with k := setBit8 t.k idx (x.getLsbD 0) }
  | 3 => s.setStrand (t.setM (idx / 8) (setWord (t.m' (idx / 8)) (idx % 8) x))
  | 4 => s.setStrand (t.setC (idx / 2048) (setWord (t.c' (idx / 2048)) (idx % 2048) x))
  | 5 => let r := t.f' (idx / 2)
         s.setStrand (t.setF (idx / 2) (if idx % 2 = 0 then { r with value := x } else { r with arrived := x.getLsbD 0 }))
  | 6 => s.setStrand (t.setD (idx / 8) (setWord (t.d' (idx / 8)) (idx % 8) x))
  | 7 => if t.loops.length ≤ idx / 4 then s
         else s.setStrand { t with loops := (t.loops.zipIdx).map fun e =>
           if e.2 + 1 + idx / 4 = t.loops.length then
             (if idx % 4 = 0 then { e.1 with start := x.toNat } else if idx % 4 = 1 then { e.1 with final := x.toNat }
              else { e.1 with count := x.toNat % 2 ^ 48 })
           else e.1 }
  | 8 => (match idx with
    | 0 => s.windowPc t x
    | 3 => s.setStrand { t with vflags := x.setWidth 6 }
    | 6 => s.setStrand { t with luta := x }
    | 7 => s.setStrand { t with lutb := x }
    | 11 => s.setStrand { t with weight := Nat.max 1 (Nat.min 15 x.toNat) }
    | _ => s)
  | 9 => s.writeStore t.place idx 8 x.toNat
  | _ => s
/-- A word of a v register written: nothing while the register is not held and HELD = BUD; else it is held and unbound. -/
def State.windowWriteV (s : State) (id : StrandId) (v w : Nat) (x : Word64) : State × Bool :=
  match s.strand? id with
  | none => (s, true)
  | some t =>
    if (t.vr v).held = false ∧ t.bud ≤ t.heldCount then (s, true)
    else match s.windowReadV id v with
      | (s, none) => (s, false)
      | (s, some old) =>
        let here := s.cur.id
        let r := ((s.focus id).holdReg v).claim s.fresh v
        (({ r with cur := { r.cur.setV v (setWord old w x) with spoiledV := r.cur.spoiledV.filter fun e => e.1 != v } } : State).focus here, true)

/-- The three dispatch queues of a strand have drained (R105), and no load is on its way to its registers. -/
def State.queuesDrained (s : State) (t : Strand) : Bool :=
  t.vq.isEmpty && t.tq.isEmpty && s.jobsDrained t
    && !s.net.any fun r => r.of t.id && r.reply != .none && r.reply != .unused && !r.forReader

/-- The frozen strand that a selector names, when window 0 acts on one. -/
def State.windowStrand (s : State) (found : GroupFound) (sidx : Nat) : Option Strand :=
  match found with
  | .listed g => (s.strand? { grp := g.id, sidx := sidx }).bind fun t => if t.status = .frozen then some t else none
  | _ => none
/-- The local store of the entry that a group runs, in bytes; 128 KiB where there is no such strand. -/
def State.windowStore (s : State) (found : GroupFound) (sidx : Nat) : Nat :=
  match found with
  | .listed g => ((s.strand? { grp := g.id, sidx := sidx }).map s.storeLimit).getD 131072
  | _ => 131072
/-- Window 0: the selector's checks, then the access. -/
def window0 (s : State) (f : FormS) (absent : State) (k : Strand → Nat → Nat → State) (state : Nat → State) : State :=
  let sel := s.rdG f.gb
  let cls := fieldNat sel 48 8
  let idx := fieldNat sel 0 48
  match s.part? s.cix with
  | none => s.raiseCode .illegalOp
  | some p =>
    let found := s.findGroup p (s.rdG f.ga)
    let sidx := fieldNat sel 58 6
    if fieldNat sel 56 2 ≠ 0 ∨ windowIndexOk cls idx = false ∨ (cls = 9 ∧ s.windowStore found sidx ≤ idx) then s.raiseCode .illegalOp
    else if cls = 15 then state (s.windowState found sidx)
    else match s.windowStrand found sidx with
      | none => absent
      | some t => if s.queuesDrained t then k t cls idx else s.stall

/-! ### Windows 1 and 2 (R196, R356, R358) -/

/-- The registers of a home debug block: which one a selector names. -/
inductive DebugReg
  | base (n : Nat)
  | ctl (n : Nat)
  | hdbg
  deriving DecidableEq, Repr
def debugReg (sel : Nat) : Option DebugReg :=
  if sel = 0x40 then some .hdbg
  else if sel < 0x40 ∧ sel % 16 = 0 then some (.base (sel / 16))
  else if sel < 0x40 ∧ sel % 16 = 8 then some (.ctl (sel / 16)) else none
def readDebug (d : HomeDebug) : DebugReg → Word64
  | .base n => (d.wbase[n]?).getD 0
  | .ctl n => (d.wctl[n]?).getD 0
  | .hdbg => if d.mixtrap then 1 else 0
def writeDebug (d : HomeDebug) (x : Word64) : DebugReg → HomeDebug
  | .base n => { d with wbase := d.wbase.setIfInBounds n (BitVec.ofNat 64 (fieldNat x 3 45 * 8)) }
  | .ctl n => { d with wctl := d.wctl.setIfInBounds n (BitVec.ofNat 64 (fieldNat x 8 24 * 256 + fieldNat x 0 2)) }
  | .hdbg => { d with mixtrap := x.getLsbD 0 }
/-- Window 1: an owned site and a listed selector. -/
def window1 (s : State) (f : FormS) (k : Part → Nat → DebugReg → State) : State :=
  let site := (s.rdG f.ga).toNat
  match s.part? s.cix, debugReg (s.rdG f.gb).toNat with
  | some p, some r => if p.sites.contains site then k p site r else s.raiseCode .illegalOp
  | _, _ => s.raiseCode .illegalOp

/-- May a handle be the fault queue: a live queue cell of the part, SSZ = 3, LNCH = 0? -/
def State.faultQueueOk (s : State) (p : Part) (h : Word64) : Bool :=
  let va : Word64 := (h.setWidth 56).setWidth 64
  match s.translate p.cix (coreCluster (s.foremanCore p)) va .cell with
  | .error _ => false
  | .ok t =>
    let g := s.granule t.pa
    va.toNat % 32 == 0 && t.mid == s.mid && g.tag == .queue && !g.dead && h.toNat / 2 ^ 56 == g.gen.toNat % 256 && qSlotBytes g == 64 && !qLaunch g
/-- FQH written: bound or unbound, and the held records are put again; none while the queue's line is not at hand. -/
def State.writeFqh (s : State) (p : Part) (h : Word64) : Option State :=
  let s := s.updPart p.cix fun q => { q with fqh := if s.faultQueueOk p h then h else 0 }
  match p.buffer with
  | [] => some s
  | r :: _ => (s.putRecord p.cix (s.recordView p.cix r) r).map fun _ => s.reput p.cix

/-- WIN.RD. -/
def execWinRd (f : FormS) (s : State) : Host.Outcome State Fault Refusal := issueForeman f.grd s fun s =>
  match f.imm.toNat with
  | 0 => window0 s f (s.putG f.gd 0)
      (fun t cls idx =>
        if cls = 2 then (match s.windowReadV t.id (idx / 64) with
          | (s, some x) => s.putG f.gd (wordOf 4096 x (idx % 64))
          | (s, none) => s.stall)
        else s.putG f.gd (s.frozenRead t cls idx))
      (fun n => s.putG f.gd (BitVec.ofNat 64 n))
  | 1 => window1 s f fun p site r => s.putG f.gd (readDebug (debugOf p site) r)
  | 2 => (match s.part? s.cix with
    | some p =>
      if s.rdG f.gb = 0 then s.putG f.gd p.fqh
      else if s.rdG f.gb = 8 then s.putG f.gd (BitVec.ofNat 64 (p.buffer.length * 2 ^ 32 + p.lost.toNat)) else s.raiseCode .illegalOp
    | none => s.raiseCode .illegalOp)
  | _ => s.raiseCode .illegalOp

/-- WIN.WR. -/
def execWinWr (f : FormS) (s : State) : Host.Outcome State Fault Refusal := issueForeman f.grd s fun s =>
  let x := s.rdG f.gd
  match f.imm.toNat with
  | 0 => window0 s f s.done
      (fun t cls idx =>
        if cls = 2 then (match s.windowWriteV t.id (idx / 64) (idx % 64) x with
          | (s, true) => s.done
          | (s, false) => s.stall)
        else (s.frozenWrite t cls idx x).done)
      (fun _ => s.done)
  | 1 => window1 s f fun p site r =>
      (s.updPart p.cix fun p => { p with debug := writeDebug (debugOf p site) x r :: (p.debug).filter fun d => d.site != site }).done
  | 2 => (match s.part? s.cix with
    | some p =>
      if s.rdG f.gb = 0 then (match s.writeFqh p x with
        | some s => s.done
        | none => s.stall)
      else if s.rdG f.gb = 8 then (s.updPart p.cix fun p => { p with lost := p.lost &&& ~~~(x.setWidth 32) }).done else s.raiseCode .illegalOp
    | none => s.raiseCode .illegalOp)
  | _ => s.raiseCode .illegalOp

/-! ### TLB.INV (R269, R366) -/

/-- The bytes of an invalidation meet a page. -/
def Invalidation.covers (v : Invalidation) (base bits : Nat) : Bool := decide (base < v.base + v.len) && decide (v.base < base + 2 ^ bits)
/-- The invalidation that the issuing foreman waits for. -/
def State.invalidating (s : State) (v : Invalidation) : Bool := v.cix == s.cix && v.asker.isNone
/-- TLB.INV: after the foreman's earlier stores, it goes to every site of every module and waits for all of them. -/
def execTlbInv (f : FormS) (s : State) : Host.Outcome State Fault Refusal := issueForeman f.grd s fun s =>
  let va := s.rdG f.ga
  let n := (s.rdG f.gb).toNat
  if va.toNat % 65536 ≠ 0 ∨ 2 ^ 56 ≤ va.toNat then s.raiseCode .illegalOp
  else if s.cur.blocked.isSome then (if s.invs.any s.invalidating then s.stall else s.done)
  else s.waitAcks (fun _ => true) fun s =>
    let v : Invalidation := { n := s.fresh, cix := s.cix, base := if n = 0 then 0 else va.toNat, len := if n = 0 then 2 ^ 56 else n * 65536, acked := [],
                               mods := s.livePeers, asker := none }
    ({ s with invs := s.invs ++ [v], fresh := s.fresh + 1,
              out := s.out ++ s.livePeers.map fun m => .request m (.strand s.cur.id) (s.packet m 0 0 s.cur.hcur none (.invalidate v.base v.len)) } : State).waitHere

/-- The pages, by virtual base and size, of accesses that stand translated in a part's queues and jobs, at its homes, or on their way to another module
(R269). The page of a code line or of a post asked of another module is the one that the TLB shows, or may be a largest one. -/
def Leaf.span (l : Leaf) : Nat × Nat := (l.vbase, l.bits)
def VecCommand.pages (c : VecCommand) : List (Nat × Nat) := c.chunks.map fun t => t.2.leaf.span
def State.strandPages (s : State) (t : Strand) : List (Nat × Nat) :=
  (t.vq.map VecCommand.pages).flatten ++ (t.tq.map fun c => c.vault.map fun x => x.2.span).flatten
    ++ (([t.blocked, t.answered].filterMap id).filterMap fun b => if b.asked.isSome ∧ b.answer = none then b.target.map fun u => u.leaf.span else none)
    ++ (match t.line with
      | some (_, _, _, none) => (match s.tlbHit (coreCluster t.place) t.id.grp.cix (t.pc.setWidth 64) with
        | some l => [l.span]
        | none => [(t.pc.toNat / 2 ^ 30 * 2 ^ 30, 30)])
      | _ => [])
def State.translated (s : State) (cix : Nat) : List (Nat × Nat) :=
  ((s.net.filter fun r => r.cix == cix && !r.done).map fun r => r.target.leaf.span)
    ++ ((s.strands.filter fun t => decide (t.id.grp.cix = cix)).map s.strandPages).flatten
    ++ ((s.jobs.filter fun j => decide (j.who.grp.cix = cix) && j.live).map fun j => j.pages.map fun x => x.2.span).flatten
    ++ ((s.posts.filter fun x => x.cix == cix && x.sent.isSome).map fun x => (x.handle.toNat % 2 ^ 56 / 2 ^ 30 * 2 ^ 30, 30))
/-- An invalidation after an acknowledgement: it is complete when every site of this module and every other module has given one. -/
def State.putInv (s : State) (p : Part) (v : Invalidation) : State :=
  if p.sites.all (fun n => v.acked.contains n) ∧ v.mods = [] then
    let s : State := { s with invs := s.invs.filter fun w => w.n != v.n }
    (match v.asker with
    | some k => s.respond k (.status .ok 0 0)
    | none => s)
  else { s with invs := s.invs.map fun w => if w.n = v.n then v else w }
/-- Another module has acknowledged an invalidation, or is lost. -/
def State.ackModule (s : State) (mid : Nat) (v : Invalidation) : State := match s.part? v.cix with
  | none => s
  | some p => if v.mods.contains mid then s.putInv p { v with mods := v.mods.filter fun m => m != mid } else s
/-- TLB_INV_SITE_ACK: a site has dropped what covers the range, once every access translated through it is performed. -/
def execTlbInvSiteAck (inv mid site : Nat) (s : State) : Host.Outcome State Fault Refusal :=
  .next (match s.invs.find? fun v => v.n == inv with
    | none => s
    | some v => match s.part? v.cix with
      | none => s
      | some p =>
        if mid ≠ s.mid then s.ackModule mid v
        else if p.sites.contains site = false ∨ v.acked.contains site ∨ (s.translated v.cix).any (fun x => v.covers x.1 x.2) then s
        else
          let gone (l : L1Line) : Bool := v.covers l.vbase l.bits
          let t : State := { s with
            tlb := s.tlb.filter fun e => !(e.cix == v.cix && e.cluster.site == site && v.covers e.leaf.vbase e.leaf.bits)
            ptrs := s.ptrs.filter fun e => !(e.cix == v.cix && e.site == site && v.covers (e.vpart * 2 ^ e.lo) e.lo)
            walks := s.walks.filter fun w => !(w.cix == v.cix && w.site == site)
            cores := s.cores.map fun c => if c.loc.site = site then { c with l1 := c.l1.filter fun l => !gone l } else c
            slices := s.slices.map fun x => if x.loc.site = site then { x with replicas := x.replicas.filter fun l => !gone l } else x
            net := s.net.map fun r => if r.cix = v.cix ∧ v.covers r.target.leaf.vbase r.target.leaf.bits then { r with fill := false } else r }
          t.putInv p { v with acked := site :: v.acked })

end Sys2Proof.Machine
end

