-- ==== Sys2Proof/Machine/Parts.lean ====
section
/-! DEFINITION. The life of a part (spec/12_context.md R245-R261): commands, registers, LOCK's checks, START and STOP, scrubbing,
attestation, firmware, and the switch of a time-shared ring (R252, R253). -/

namespace Sys2Proof.Machine

/-! ### A blank part, refusals (R246, R247) -/

/-- Every register at the value it takes at CREATE, but for CSTAT; those with no reset value are 0 (assumption 6). -/
def blankPart (cix mid : Nat) : Part :=
  { cix := cix, st := .free, cause := 0, cid := 0, csite := 0, cflg := 0, cfmn := 0, cfki := 0, cptr := 0, chbm := Vector.replicate 8 0
    csavb := 0, csavl := 0, cwlb := 0, cwll := 0, cvsb := 0, cvsl := 0, cswt := 16384, ctsq := 1000, ckey := 0, cgrace := 55000, cdpol := 0
    cdrec := 0, chtm := BitVec.ofNat 64 mid, mill := Vector.replicate 16 0, swapt := 16384, sslot := false, fqh := 0, lost := 0, buffer := []
    double := none, taken := true, lidNext := 1, kernels := [], queues := [], windows := [], launches := [], governors := [], families := [], hyps := []
    resolves := [], sweeps := [], debug := [], logical := [], draining := none, gone := [], current := true, since := 0, measures := [], nonce := 0
    privateKey := 0, sharedKey := 0 }
/-- A part put into the list under its index. -/
def State.putPart (s : State) (p : Part) : State := { s with parts := p :: s.parts.filter fun q => q.cix != p.cix }
/-- A refused command: CAUSE, and the state stays. -/
def State.refuseCommand (s : State) (cix : Nat) (cause : Byte) : State :=
  if cix = 0 ∨ 63 < cix then s
  else match s.part? cix with
    | some _ => s.updPart cix fun p => { p with cause := cause }
    | none => s.putPart { blankPart cix s.mid with cause := cause }
/-- The state of a part; an index with no part is FREE. -/
def State.partState (s : State) (cix : Nat) : PartStatus := ((s.part? cix).map Part.st).getD .free

/-- TDISP states (R249). -/
inductive TdispState | configUnlocked | configLocked | run | error
  deriving DecidableEq, Repr
/-- What a part reports as a TDISP device interface. -/
def PartStatus.tdisp : PartStatus → TdispState
  | .free => .configUnlocked
  | .configuring => .configUnlocked
  | .locked => .configLocked
  | .run => .run
  | .quiescing => .run
  | .error => .error
  | .scrubbing => .error
/-- CSTAT.STATE (R246). -/
def PartStatus.code : PartStatus → Nat
  | .free => 0
  | .configuring => 1
  | .locked => 2
  | .run => 3
  | .quiescing => 4
  | .error => 5
  | .scrubbing => 6

/-! ### CREATE and key slots (R257) -/

def Part.pslot (p : Part) : Nat := fieldNat p.ckey 0 6
def Part.sslotNo (p : Part) : Nat := fieldNat p.ckey 8 6
/-- Key slots in use. -/
def State.slotsUsed (s : State) : List Nat :=
  ((s.parts.filter fun p => p.st != .free).map fun p => p.pslot :: (if p.shk then [p.sslotNo] else [])).flatten
def State.freeSlot (s : State) : Option Nat := (List.range 64).find? fun n => !s.slotsUsed.contains n
/-- CREATE: a private slot is allocated and filled with a random key, and the index and its register block are assigned. A command takes one step,
so none finds another still executing (assumption 70). -/
def State.createPart (s : State) (cix : Nat) : State :=
  if cix = 0 ∨ 63 < cix ∨ s.firmware.verified = false then s
  else if s.partState cix ≠ .free then s.refuseCommand cix 6
  else match s.freeSlot with
    | none => s.refuseCommand cix 4
    | some n =>
      (s.putPart { blankPart cix s.mid with
        st := .configuring, cause := ((s.part? cix).map Part.cause).getD 0, ckey := BitVec.ofNat 64 n, privateKey := Config.freeBits 512 s.fresh }).bump
def execCreate (cix : Nat) (s : State) : Host.Outcome State Fault Refusal := .next (s.createPart cix)

/-! ### LOCK (R248, R426) -/

/-- Do all bytes of a span lie in the part's ranges, GiB by GiB? -/
def Part.spanOk (p : Part) (base len : Nat) : Bool :=
  len == 0 || (decide (base + len ≤ hbmEnd) &&
    (List.range ((base + len - 1) / 2 ^ 30 - base / 2 ^ 30 + 1)).all fun i => p.inRanges ((base / 2 ^ 30 + i) * 2 ^ 30) 1)
/-- The sites SITES names. -/
def siteList (mask : Word64) : List Nat := (List.range 32).filter fun i => mask.getLsbD i
/-- Other parts that are not FREE. -/
def State.otherParts (s : State) (p : Part) : List Part := s.parts.filter fun q => q.cix != p.cix && q.st != .free
/-- CAUSE 1: every site named is FREE, or belongs to time-shared parts with the same SITES. -/
def State.sitesOk (s : State) (p : Part) : Bool :=
  siteList p.csite != [] && (siteList p.csite).all fun n =>
    (s.site n).stat != 2 && (s.otherParts p).all fun q => !q.csite.getLsbD n || (p.ts && q.ts && q.csite == p.csite)
/-- CAUSE 2: the ranges lie in HBM and meet neither one another nor another part's. -/
def State.rangesOk (s : State) (p : Part) : Bool :=
  p.ranges.all (fun r => decide (r.2 ≤ 768 * 2 ^ 30) && decide (r.1 + r.2 ≤ hbmEnd)) && apart p.ranges
    && p.ranges.all fun r => (s.otherParts p).all fun q => q.ranges.all fun t => !spansMeet r t
/-- Enabled mill windows: base and length. -/
def Part.millWindows (p : Part) : List (Nat × Nat) :=
  (p.mill.toList.filter fun w => w.getLsbD 63).map fun w => (fieldNat w 16 32 * 65536, fieldNat w 48 15 * 65536)
/-- CAUSE 2: mill windows inside the ranges, apart from one another. -/
def Part.millOk (p : Part) : Bool := p.millWindows.all (fun w => p.spanOk w.1 w.2) && apart p.millWindows
/-- The least CSAVL (R255). -/
def State.leastSave (s : State) (p : Part) : Nat := if p.ts then s.windowBytes p / 65536 + 8 else 4
/-- CAUSE 3. -/
def State.regionsOk (s : State) (p : Part) : Bool :=
  let rs := [regionOf p.csavb p.csavl, regionOf p.cwlb p.cwll, regionOf p.cvsb p.cvsl]
  rs.all (fun r => p.spanOk r.1 r.2) && apart rs && decide (s.leastSave p ≤ fieldNat p.csavl 0 32)
/-- CAUSE 1: FLOC names an enabled core of an owned site. -/
def State.flocOk (s : State) (p : Part) : Bool :=
  let c := s.foremanCore p
  !p.cfmn.getLsbD 21 || (p.csite.getLsbD c.site && decide (c.site < 32) && decide (c.cluster < 20) && s.coreEnabled c)
/-- The first check of R248 that fails. -/
def State.lockCause (s : State) (p : Part) : Option Byte :=
  let qnt := fieldNat p.ctsq 0 32
  if s.sitesOk p = false then some 1
  else if s.rangesOk p = false ∨ p.millOk = false then some 2
  else if s.regionsOk p = false then some 3
  else if s.flocOk p = false then some 1
  else if p.ts ∧ (qnt < 100 ∨ 1000000 < qnt) then some 8
  else none

/-! ### Measurements (R259) -/

/-- A register of the block by its offset. -/
def Part.reg (p : Part) (off : Nat) : Word64 :=
  if 0x40 ≤ off ∧ off < 0x80 then (p.chbm[(off - 0x40) / 8]?).getD 0
  else if 0x140 ≤ off ∧ off < 0x1C0 then (p.mill[(off - 0x140) / 8]?).getD 0
  else match off with
    | 0x010 => p.cid
    | 0x018 => p.csite
    | 0x020 => p.cflg
    | 0x028 => p.cfmn
    | 0x030 => p.cfki
    | 0x038 => p.cptr
    | 0x080 => p.csavb
    | 0x088 => p.csavl
    | 0x090 => p.cwlb
    | 0x098 => p.cwll
    | 0x0A0 => p.cvsb
    | 0x0A8 => p.cvsl
    | 0x0B0 => p.cswt
    | 0x0B8 => p.ctsq
    | 0x0C0 => p.ckey
    | 0x0C8 => p.cgrace
    | 0x0D0 => p.cdpol
    | 0x0D8 => p.chtm
    | _ => 0
/-- Bytes of a number, little-endian. -/
def leBytes (n v : Nat) : List Byte := (List.range n).map fun i => BitVec.ofNat 8 (v / 256 ^ i)
/-- Registers of the block from an offset, as bytes. -/
def Part.regBytes (p : Part) (off n : Nat) : List Byte := ((List.range n).map fun i => leBytes 8 (p.reg (off + 8 * i)).toNat).flatten
/-- The DIGEST field of the foreman image's header; a free value where it cannot be read. -/
def State.foremanDigest (s : State) (p : Part) : BitVec 256 :=
  match s.imagePages p p.cfki.toNat 128 with
  | some pages => BitVec.ofNat 256 (((s.imageBytes p pages (p.cfki.toNat + 0x40) 32).foldl (fun n b => n * 256 + b.toNat) 0))
  | none => Config.freeBits 256 s.fresh
/-- Measurements 3 to 7, fixed at LOCK. -/
def State.lockMeasures (s : State) (p : Part) : List (Nat × BitVec 256) :=
  [(3, Sha.digest (p.clusters.map s.hmapOf)), (4, Sha.digest (p.regBytes 0x010 26)),
   (5, Sha.digest (p.clusters.map fun c => leBytes 8 (s.winOf c)).flatten), (6, s.foremanDigest p), (7, Sha.digest (p.regBytes 0x140 16))]
/-- LOCK. A time-shared part stands on no site yet. -/
def State.lockPart (s : State) (cix : Nat) : State :=
  match s.part? cix with
  | none => s.refuseCommand cix 6
  | some p =>
    if p.st ≠ .configuring then s.refuseCommand cix 6
    else match s.lockCause p with
      | some c => s.refuseCommand cix c
      | none => (s.updPart cix fun p => { p with st := .locked, measures := s.lockMeasures p, current := !p.ts }).bump
def execLock (cix : Nat) (s : State) : Host.Outcome State Fault Refusal := .next (s.lockPart cix)
def execLockInterfaceRequest (cix : Nat) (s : State) : Host.Outcome State Fault Refusal := .next (s.lockPart cix)

/-! ### START (R247, R256, R274, R338) -/

/-- The logical cores of a part: enabled cores of its sites, but for the foreman's. -/
def State.logicalCores (s : State) (p : Part) : List CoreLoc :=
  (p.clusters.map fun c => ((List.range 8).map fun i => ({ site := c.site, cluster := c.cluster, core := i } : CoreLoc)).filter fun l =>
    s.coreEnabled l && decide (l ≠ s.foremanCore p)).flatten
/-- The parts of a ring (R252). -/
def State.ring (s : State) (p : Part) : List Part := s.parts.filter fun q => p.ts && q.ts && q.csite == p.csite && q.serves
/-- Does a part of the same ring stand on the sites, whatever has become of it? -/
def State.ringHeld (s : State) (p : Part) : Bool :=
  s.parts.any fun q => q.cix != p.cix && p.ts && q.ts && q.csite == p.csite && q.current && q.st != .free && q.st != .configuring
/-- START: every granule of the part is FREE at generation 0, no hypothesis of its own table has been open, and the foreman begins. A part that joins a
ring with a current part waits for its turn. -/
def State.startPart (s : State) (cix : Nat) : State :=
  match s.part? cix with
  | none => s.refuseCommand cix 6
  | some p =>
    if p.st ≠ .locked then s.refuseCommand cix 6
    else match s.foremanImage p with
      | (s, .error _) => s.refuseCommand cix 7
      | (s, .ok k) =>
        let cur := !s.ringHeld p
        let s : State := { s with cells := s.cells.filter fun g => !p.inRanges g.pa 32 }
        let s := s.updPart cix fun p =>
          { p with st := .run, swapt := p.cswt, logical := s.logicalCores p, current := cur, since := s.clk.toNat, taken := true, lidNext := 1
                   kernels := [k], queues := [], launches := [], governors := [], families := []
                   hyps := if p.tableModule = s.mid then [] else p.hyps, resolves := if p.tableModule = s.mid then [] else p.resolves, sweeps := [], fqh := 0
                   lost := 0, buffer := [], double := none, draining := none }
        if cur then s.startForeman cix k else s
def execStart (cix : Nat) (s : State) : Host.Outcome State Fault Refusal := .next (s.startPart cix)
def execStartInterfaceRequest (cix : Nat) (s : State) : Host.Outcome State Fault Refusal := .next (s.startPart cix)

/-! ### STOP, RELEASE and SCRUBBING (R247, R250, R258) -/

/-- What belongs to a part leaves the module: strands, groups, jobs, waits, posts, records, requests. Requests of other modules are
refused with PART. -/
def State.discardPart (s : State) (cix : Nat) : State :=
  let mine (i : StrandId) : Bool := i.grp.cix == cix
  let ours (j : Nat) : Bool := s.jobs.any fun x => x.n == j && mine x.who
  let gone (r : Request) : Bool := match r.party with
    | .strand i => mine i
    | .job n => ours n
    | _ => r.cix == cix
  let answers := (s.net.filter gone).filterMap fun r => match r.party, r.tag with
    | .remote m _ _, some n => some (Outgoing.response m n (.refused .part))
    | _, _ => none
  let cells := (s.posts.filter fun x => x.cix == cix).filterMap fun x => match x.source with
    | .remote k => some (Outgoing.response k.mid k.seqNo (.refused .part))
    | _ => none
  let merges := (s.mill.filter fun c => c.cix == cix).map fun c => Outgoing.response c.packet.mid c.packet.seqNo (.refused .part)
  let told := (s.part? cix).toList.flatMap fun p => (p.resolves.filterMap Resolve.asker ++ p.sweeps.map Sweep.asker).map fun k =>
    Outgoing.response k.mid k.seqNo (.refused .part)
  let refused := (s.invs.filter fun v => v.cix == cix).filterMap fun v => v.asker.map fun k => Outgoing.response k.mid k.seqNo (.refused .part)
  { s with cur := if mine s.cur.id then noStrandYet else s.cur, others := s.others.filter fun t => !mine t.id
           groups := s.groups.filter fun g => g.id.cix != cix, jobs := s.jobs.filter fun j => !mine j.who
           waits := s.waits.filter fun w => !(w.mid == s.mid && mine w.who), wakes := s.wakes.filter fun w => !mine w.who
           posts := s.posts.filter fun p => p.cix != cix, records := s.records.filter fun d => d.cix != cix
           tlb := s.tlb.filter (fun e => e.cix != cix), walks := s.walks.filter (fun w => w.cix != cix), frames := s.frames.filter (fun f => f.1 != cix)
           givenUp := s.givenUp.filter (fun e => e.1.grp.cix != cix), invs := s.invs.filter fun v => v.cix != cix, net := s.net.filter fun r => !gone r, mill := s.mill.filter fun c => c.cix != cix
           out := s.out ++ answers ++ cells ++ merges ++ told ++ refused }
/-- SCRUBBING begins: waiters of other modules are woken with DEAD, and the part's own work is discarded. A part that was never locked has no homes
that anyone waits at; a time-shared part that was never started stands on no site. -/
def State.enterScrub (s : State) (cix : Nat) : State :=
  match s.part? cix with
  | none => s
  | some p =>
    (((if p.st = .configuring then s else s.wakeOutsiders p).discardWaits cix).discardPart cix).updPart cix fun p =>
      { p with st := .scrubbing, draining := none, resolves := [], sweeps := [], current := p.current && (p.st != .configuring || !p.ts) }
/-- Every group of a part is pre-empted under the grace rule. -/
def State.preemptAll (s : State) (cix : Nat) (p : Group → Bool) : State :=
  (s.groups.filter fun g => g.id.cix == cix && (g.st == .resident || g.st == .frozen) && p g).foldl (fun s g => s.preempt g.id false) s
/-- STOP. In QUIESCING for a site's retirement it widens that drain to the whole part. -/
def State.stopPart (s : State) (cix : Nat) : State :=
  match s.part? cix with
  | none => s.refuseCommand cix 6
  | some p =>
    if p.st = .run ∨ (p.st = .quiescing ∧ p.draining.isSome) then
      (s.updPart cix fun p => { p with st := .quiescing, draining := none }).preemptAll cix fun _ => true
    else if p.st = .error then s.enterScrub cix
    else s.refuseCommand cix 6
def execStop (cix : Nat) (s : State) : Host.Outcome State Fault Refusal := .next (s.stopPart cix)
def execStopInterfaceRequest (cix : Nat) (s : State) : Host.Outcome State Fault Refusal := .next (s.stopPart cix)
/-- RELEASE. -/
def execRelease (cix : Nat) (s : State) : Host.Outcome State Fault Refusal :=
  .next (match s.partState cix with
    | .configuring => s.enterScrub cix
    | .locked => s.enterScrub cix
    | .error => s.enterScrub cix
    | _ => s.refuseCommand cix 6)

/-- The commands that R247 lists for a state. -/
def listedCommand (st : PartStatus) (draining : Bool) (code : Nat) : Bool :=
  match st with
  | .free => code == 1
  | .configuring => code == 2 || code == 5
  | .locked => code == 3 || code == 5
  | .run => code == 4
  | .quiescing => draining && code == 4
  | .error => code == 4 || code == 5
  | .scrubbing => false
/-- INVALID_COMMAND: a code that names no command, or one that the state does not list. -/
def execInvalidCommand (cix : Nat) (code : Byte) (s : State) : Host.Outcome State Fault Refusal :=
  .next (if listedCommand (s.partState cix) (((s.part? cix).map fun p => p.draining.isSome).getD false) code.toNat then s
         else s.refuseCommand cix 6)

/-- Nothing of a part is placed but its foreman, its copy queues are empty and every tag is acknowledged. -/
def State.drainedPart (s : State) (cix : Nat) : Bool :=
  s.strands.all (fun t => t.id.grp.cix != cix || t.fmn || (!t.onCore && t.unacked.isEmpty && t.vq.isEmpty && t.tq.isEmpty))
    && s.groups.all (fun g => g.id.cix != cix || (g.st != .resident && g.st != .frozen && g.st != .saving))
    && !(s.jobs.any fun j => j.live && j.who.grp.cix == cix)
/-- Is a byte the part's to scrub? A part released before LOCK may name ranges and sites that are another's. -/
def State.scrubs (s : State) (p : Part) (a : Nat) : Bool :=
  p.inRanges a 1 && !(s.otherParts p).any fun q => q.st != .configuring && q.inRanges a 1
/-- The same for a site's storage: that of a ring's current part, or of a part that shares its sites with none. -/
def State.scrubsSite (s : State) (p : Part) (n : Nat) : Bool :=
  p.csite.getLsbD n && p.current && !(s.otherParts p).any fun q => q.st != .configuring && q.csite.getLsbD n && !(p.ts && q.ts && q.csite == p.csite && !q.current)
/-- Bytes of HBM whose key is gone are free values; with ZF they are zero (assumption 14). -/
def scrubCells (mine : Nat → Bool) (zf : Bool) (fresh : Nat) (m : List Host.Cell) : List Host.Cell :=
  let out := m.filter fun c => !mine c.1
  if zf then out else writeBytes out ((m.filter fun c => mine c.1).map fun c => (c.1, Config.freeBits 8 (fresh + c.1)))
/-- The storage of a list of sites is cleared: vaults, local stores, slices, hot-line arrays, L1s, TLBs; what was done to it before races nothing. -/
def State.clearSites (s : State) (on : Nat → Bool) : State :=
  { s with mem := s.mem.filter fun c => (match vaultOf c.1 with
             | some (l, _) => !on l.site
             | none => true)
           badLines := s.badLines.filter fun a => (match vaultOf a with
             | some (l, _) => !on l.site
             | none => true)
           cores := s.cores.filter fun c => !on c.loc.site, slices := s.slices.filter fun x => !on x.loc.site
           tlb := s.tlb.filter (fun e => !on e.cluster.site), ptrs := s.ptrs.filter (fun e => !on e.site), walks := s.walks.filter fun w => !on w.site
           recent := s.recent.filter fun r => (match vaultOf r.pa with
             | some (l, _) => !on l.site
             | none => true) }
/-! ### A site leaves its parts (R438) -/

def State.ownersOf (s : State) (site : Nat) : List Part := s.parts.filter fun p => p.st != .free && p.sites.contains site
/-- Groups with a strand placed on a site. -/
def State.groupOn (s : State) (site : Nat) (g : Group) : Bool :=
  s.strands.any fun t => decide (t.id.grp = g.id) && t.onCore && t.place.site == site
/-- The retirement of a site begins for its owners: a part in RUN enters QUIESCING for it. It waits for a part that is QUIESCING already. Where no part
runs, nothing stands on the site, and it leaves its owners at once, as LOCKED, ERROR and SCRUBBING leave them what they are (assumption 17). -/
def State.beginDrain (s : State) (site : Nat) : State :=
  let os := s.ownersOf site
  if os.any fun p => p.st == .quiescing then s
  else if os.any fun p => p.st == .run then
    (os.filter fun p => p.st == .run).foldl (fun (s : State) p =>
      (s.updPart p.cix fun p => { p with st := .quiescing, draining := some site }).preemptAll p.cix (s.groupOn site)) s
  else
    let s := os.foldl (fun (s : State) p => s.updPart p.cix fun p => if p.st = .configuring then p else { p with gone := site :: p.gone }) s
    (s.clearSites fun n => n == site).setSite { s.site site with stat := 2 }
/-- STOP_DRAIN_COMPLETE: the foreman is stopped; a site that was to be retired is retired. -/
def execStopDrainComplete (cix : Nat) (s : State) : Host.Outcome State Fault Refusal :=
  .next (match s.part? cix with
    | none => s
    | some p =>
      if p.st ≠ .quiescing ∨ p.draining.isSome ∨ s.drainedPart cix = false then s
      else
        let s := s.enterScrub cix
        (((s.sites.filter fun x => p.csite.getLsbD x.n && x.stat == 1).map Site.n).foldl State.beginDrain s))

/-- The next part of a ring, in ascending index, that takes its turn. -/
def State.nextInRing (s : State) (p : Part) : Option Part :=
  let others := (s.ring p).filter fun q => q.cix != p.cix
  let best (l : List Part) : Option Part := l.foldl (fun b q => match b with
    | none => some q
    | some x => if q.cix < x.cix then some q else b) none
  match best (others.filter fun q => decide (p.cix < q.cix)) with
  | some q => some q
  | none => best others
/-- SCRUB_COMPLETE: the part is FREE, and its key slots with it. The current part of a ring first hands its sites, cleared, to the next one (R252). -/
def execScrubComplete (cix : Nat) (s : State) : Host.Outcome State Fault Refusal :=
  .next (match s.part? cix with
    | none => s
    | some p =>
      if p.st ≠ .scrubbing ∨ (p.ts ∧ p.current ∧ (s.nextInRing p).isSome) then s
      else
        let mine := s.scrubs p
        let s := s.clearSites (s.scrubsSite p)
        ({ s with mem := scrubCells mine p.zf s.fresh s.mem, badLines := s.badLines.filter fun a => !(p.zf && mine a)
                  scribbled := s.scribbled.filter fun e => !mine e, cells := s.cells.filter fun g => !mine g.pa
                  sealedAt := s.sealedAt.filter fun e => !mine e.1, recent := s.recent.filter (fun r => !mine r.pa), keys := s.keys.filter fun k => !mine k.1
                  waits := s.waits.filter fun w => !mine w.pa, versions := s.versions.filter fun v => v.cix != cix
                  ptrs := s.ptrs.filter fun e => e.cix != cix
                  fresh := s.fresh + hbmEnd } : State).putPart { blankPart cix s.mid with cause := p.cause })

/-- The causes of ERROR that arise by themselves. -/
def errorCause : PartErrorCause → Byte
  | .double => 0x10
  | .ide => 0x11
  | .region => 0x12
/-- An uncorrectable error in a context region is noted at the part's lowest site (R439). -/
def State.noteRegion (s : State) (cix : Nat) (cause : PartErrorCause) : State := match cause, s.part? cix with
  | .region, some p =>
    let n := (p.sites.head?).getD 0
    s.scrivener n 9 0 cix 0 (BitVec.ofNat 32 (s.mid * 2 ^ 24 + n * 2 ^ 16)) 0 0
  | _, _ => s
/-- PART_ERROR. -/
def execPartError (cix : Nat) (cause : PartErrorCause) (s : State) : Host.Outcome State Fault Refusal :=
  .next (match s.partState cix with
    | .locked => (s.noteRegion cix cause).partError cix (errorCause cause)
    | .run => (s.noteRegion cix cause).partError cix (errorCause cause)
    | .quiescing => (s.noteRegion cix cause).partError cix (errorCause cause)
    | _ => s)

/-! ### Registers (R246, R377, R419, R426) -/

def partBlocks : Nat := 0x20100800000
def keep (x : Word64) (lo n : Nat) : Word64 := BitVec.ofNat 64 (fieldNat x lo n * 2 ^ lo)
/-- A CFLG write: SHK set allocates the shared slot, empty; with none free it stays clear (assumption 15). SHK cleared gives the slot and its key up. -/
def writeCflg (s : State) (p : Part) (x : Word64) : Part :=
  let want := keep x 0 3
  if want.getLsbD 1 ∧ p.shk = false then
    match s.freeSlot with
    | some n => { p with cflg := want, ckey := BitVec.ofNat 64 (n * 256 + p.pslot) }
    | none => { p with cflg := want &&& ~~~2 }
  else if want.getLsbD 1 then { p with cflg := want }
  else { p with cflg := want, ckey := BitVec.ofNat 64 p.pslot, sslot := false, sharedKey := 0 }
/-- An RW register of the block written, reserved bits ignored; none where the offset holds no RW field. -/
def writeReg (s : State) (p : Part) (off : Nat) (x : Word64) : Option Part :=
  if off % 8 ≠ 0 then none
  else if 0x40 ≤ off ∧ off < 0x80 then some { p with chbm := p.chbm.setIfInBounds ((off - 0x40) / 8) (keep x 30 28) }
  else if 0x140 ≤ off ∧ off < 0x1C0 then some { p with mill := p.mill.setIfInBounds ((off - 0x140) / 8) (keep x 16 48) }
  else match off with
    | 0x010 => some { p with cid := keep x 0 32 }
    | 0x018 => some { p with csite := keep x 0 32 }
    | 0x020 => some (writeCflg s p x)
    | 0x028 => some { p with cfmn := keep x 0 22 }
    | 0x030 => some { p with cfki := keep x 0 56 }
    | 0x038 => some { p with cptr := keep x 12 36 }
    | 0x080 => some { p with csavb := keep x 16 32 }
    | 0x088 => some { p with csavl := keep x 0 32 }
    | 0x090 => some { p with cwlb := keep x 16 32 }
    | 0x098 => some { p with cwll := keep x 0 32 }
    | 0x0A0 => some { p with cvsb := keep x 16 32 }
    | 0x0A8 => some { p with cvsl := keep x 0 32 }
    | 0x0B0 => some { p with cswt := keep x 0 32 }
    | 0x0B8 => some { p with ctsq := keep x 0 32 }
    | 0x0C8 => some { p with cgrace := keep x 0 32 }
    | 0x0D0 => some { p with cdpol := keep x 0 1 }
    | 0x0D8 => some { p with chtm := keep x 0 8 }
    | _ => none
/-- REGISTER_WRITE: a part's RW register, or MLOST, of which values outside 1,000 to 2^32 − 1 are ignored (assumption 16). One outside the control
registers is refused on the PCIe function (R26, R424). -/
def execRegisterWrite (addr : Nat) (value : Word64) (s : State) : Host.Outcome State Fault Refusal :=
  .next (if addr < 0x20100000000 ∨ 0x20101400000 ≤ addr then { s with out := s.out ++ [.unsupported addr] }
    else if addr = 0x20100400008 then (if 1000 ≤ fieldNat value 0 32 then { s with lostt := fieldNat value 0 32 } else s)
    else if addr < partBlocks + 0x1000 ∨ partBlocks + 0x40000 ≤ addr then s
    else
      let cix := (addr - partBlocks) / 0x1000
      match s.part? cix with
      | none => s
      | some p => match writeReg s p ((addr - partBlocks) % 0x1000) value with
        | none => s
        | some q => (match p.st with
          | .configuring => s.updPart cix fun _ => q
          | .locked => s.partError cix 0x13
          | _ => s))

/-- The address of a cluster's boundary register. -/
def vbndAddr (l : ClusterLoc) : Nat := 0x20100000100 + l.site * 0x10000 + l.cluster * 8
/-- VBND_WRITE (R182): while the site is FREE, or every part that owns it is CONFIGURING; a refused write is reported. -/
def execVbndWrite (l : ClusterLoc) (value : Word64) (s : State) : Host.Outcome State Fault Refusal :=
  .next (let win := fieldNat value 0 4
    if s.parts.any (fun q => q.csite.getLsbD l.site && q.st != .free && q.st != .configuring) then { s with out := s.out ++ [.hostError (vbndAddr l)] }
    else if 8 < win then s
    else { s with vbnd := (if win = 4 then [] else [(l, win)]) ++ s.vbnd.filter fun e => decide (e.1 ≠ l) })

/-! ### Attestation and firmware (R257, R259-R261) -/

/-- CHALLENGE: the nonce under which the next measurements are signed. -/
def execChallenge (cix : Nat) (nonce : BitVec 256) (s : State) : Host.Outcome State Fault Refusal :=
  .next (s.updPart cix fun p => if p.st = .free then p else { p with nonce := nonce })
/-- Measurements 1 and 2. -/
def State.firmwareMeasures (s : State) : List (Nat × BitVec 256) :=
  [(1, s.firmware.digest), (2, Sha.digest (leBytes 4 s.firmware.secVer.toNat))]
/-- The transcript that a reply signs, hashed by SHA-256 (R260): the nonce and the measurements, each with its index (assumption 47: the spec does
not lay the transcript out). -/
def transcript (nonce : BitVec 256) (ms : List (Nat × BitVec 256)) : BitVec 256 :=
  Sha.digest (leBytes 32 nonce.toNat ++ (ms.map fun m => leBytes 1 m.1 ++ leBytes 32 m.2.toNat).flatten)
/-- GET_MEASUREMENTS: signed with the device's key. -/
def execGetMeasurements (cix : Nat) (s : State) : Host.Outcome State Fault Refusal :=
  .next (match s.part? cix with
    | none => s
    | some p => if p.st = .free then s else 
      let ms := s.firmwareMeasures ++ p.measures
      { s with out := s.out ++ [.attest cix p.nonce ms (Config.signature (transcript p.nonce ms))] })
/-- SHARED_KEY_INSTALL: the shared slot of a part with SHK is filled. -/
def execSharedKeyInstall (cix : Nat) (key : BitVec 512) (s : State) : Host.Outcome State Fault Refusal :=
  .next (s.updPart cix fun p =>
    if p.shk = false ∨ p.st = .free ∨ p.st = .scrubbing then p else { p with sslot := true, sharedKey := key })

def firmwareOk (i : FirmwareImage) : Bool := Config.signatureGood i && decide (Config.minSecVer ≤ i.secVer.toNat)
/-- FIRMWARE_LOAD: an image that fails the check leaves a module in which no part can be created. -/
def execFirmwareLoad (i : FirmwareImage) (s : State) : Host.Outcome State Fault Refusal :=
  .next { s with firmware := { digest := i.digest, secVer := i.secVer, verified := firmwareOk i } }
/-! ### Time-sharing (R252, R253) -/

/-- Versions that a list of slices holds go to their share; those that do not fit are refuted (R384, R394). -/
def State.spillVersions (s : State) (on : ClusterLoc → Bool) : State :=
  (s.versions.filter Version.resident).foldl (fun (s : State) v => match s.part? v.cix with
    | none => s
    | some p =>
      if on (p.home v.line) = false then s
      else if s.spilledAt p (p.home v.line) < s.versionShare p then
        { s with versions := s.versions.map fun w => if sameVersion v w then { w with resident := false } else w }
      else { s.capacityRefute v.cix v.tag with versions := s.versions.filter fun w => !sameVersion v w }) s
/-- The current part has nothing to run: no strand in RUN, its foreman among them, and no group to place. It stays current for a cycle at least,
so that time passes between two switches of idle parts (assumption 69). -/
def State.idlePart (s : State) (p : Part) : Bool :=
  decide (p.since < s.clk.toNat) && s.strands.all (fun t => t.id.grp.cix != p.cix || t.status != .run) && (s.waiting p).isEmpty

/-- The foreman of an outgoing part is stopped at its next boundary. -/
def stopForeman (cix : Nat) (t : Strand) : Strand :=
  if t.id.grp.cix = cix ∧ t.fmn ∧ t.status = .run ∧ t.blocked = none ∧ t.saved = none then { t with stop := some (t.stop.getD .boundary) } else t
/-- A frozen group saved in full, strand by strand, once there is room and every strand can be saved. -/
def State.saveFrozen (s : State) (g : Group) : State :=
  let ts := (s.groupStrands g.id).filter fun t => !t.ended && t.saved.isNone
  if g.st ≠ .frozen ∨ ts.isEmpty ∨ ts.any (fun t => !s.canSave t) then s
  else match (if g.reserve.isSome then some s else s.reserve g.id (ts.foldl (fun n t => n + (s.fullLive t).size t.boundMask) 0)) with
    | none => s
    | some s => ts.foldl (fun (s : State) t => s.saveStrand t .frozen 2 t.pls (s.fullLive t) false) s
/-- The foreman saved in full, after the window images; a parked one keeps its park. -/
def State.saveForeman (s : State) (p : Part) : State :=
  match s.strand? (foremanId p.cix) with
  | none => s
  | some t =>
    if t.saved.isSome ∨ t.ended ∨ s.canSave t = false ∨ (t.status = .run ∧ t.stop = none) then s
    else s.writeRecord t .ready 2 t.pls (s.fullLive t) false ((regionOf p.csavb p.csavl).1 + s.windowBytes p)
/-- Nothing of the outgoing part stands on its sites any more. -/
def State.offSites (s : State) (cix : Nat) : Bool :=
  s.strands.all (fun t => t.id.grp.cix != cix || t.saved.isSome || (t.ended && t.vq.isEmpty && t.tq.isEmpty)) && !(s.jobs.any fun j => j.live && j.who.grp.cix == cix)
    && s.groups.all fun g => g.id.cix != cix || (g.st != .resident && g.st != .saving)

/-- The window images of a part, in its save region: written from the vaults, or put back. -/
def State.saveWindows (s : State) (p : Part) : State :=
  let base := (regionOf p.csavb p.csavl).1
  let inWin (a : Nat) : Option Nat := match vaultOf a with
    | some (l, off) => if p.clusters.contains l ∧ off < s.winOf l * 2 ^ 20 then some (base + s.imageOffset l off p.clusters) else none
    | none => none
  let bytes := s.mem.filterMap fun c => (inWin c.1).map fun a => (a, c.2)
  let clean := s.mem.filter fun c => (inWin c.1).isNone && !(decide (base ≤ c.1) && decide (c.1 < base + s.windowBytes p))
  { s with mem := writeBytes clean bytes }
/-- The window and offset of a byte of the images. -/
def State.windowAt (s : State) (off : Nat) : List ClusterLoc → Option Nat
  | [] => none
  | c :: rest => if off < s.winOf c * 2 ^ 20 then some (vaultPa c + off) else s.windowAt (off - s.winOf c * 2 ^ 20) rest
def State.restoreWindows (s : State) (p : Part) : State :=
  let base := (regionOf p.csavb p.csavl).1
  let bytes := s.mem.filterMap fun c => if base ≤ c.1 then (s.windowAt (c.1 - base) p.clusters).map fun a => (a, c.2) else none
  { s with mem := writeBytes s.mem bytes }
/-- The foreman of the incoming part: restored, or started if it never ran. -/
def State.resumeForeman (s : State) (p : Part) : State :=
  match s.strand? (foremanId p.cix) with
  | some t => (s.restoreStrand t t.place (restoredStatus t)).resumeWait t.id
  | none => match p.kernels.find? fun k => k.kid == foremanKid with
    | some k => s.startForeman p.cix k
    | none => s
/-- The frozen groups of the incoming part stand again on their cores, frozen. -/
def State.resumeFrozen (s : State) (cix : Nat) : State :=
  let gs := s.groups.filter fun g => g.id.cix == cix && g.st == .frozen
  let s := (gs.map fun g => s.groupStrands g.id).flatten.foldl (fun (s : State) t => if t.saved.isSome then s.restoreStrand t t.place .frozen else s) s
  { s with groups := s.groups.map fun (g : Group) => if g.id.cix = cix ∧ g.st = GroupStatus.frozen then { g with reserve := none } else g }
/-- TIME_SHARE_SWITCH of the current part of a ring. When its quantum has passed, or it has nothing to run, its groups are pre-empted and
its foreman stopped; once nothing of it stands on the sites, they are cleared in R252's order and the next part takes its turn. A part that has
left RUN and QUIESCING gives way at once. -/
def execTimeShareSwitch (cix : Nat) (s : State) : Host.Outcome State Fault Refusal :=
  .next (match s.part? cix with
    | none => s
    | some p => match s.nextInRing p with
      | none => s
      | some q =>
        if p.current = false ∨ p.st = .free ∨ p.st = .configuring ∨ p.st = .locked ∨ (p.serves ∧ (p.double.isSome ∨ (s.switching p = false ∧ s.idlePart p = false))) then s
        else
          let s := (s.mapStrands (stopForeman cix)).preemptAll cix fun g => g.st == .resident && g.preempt.isNone
          let s := (s.groups.filter fun g => g.id.cix == cix).foldl (fun (s : State) g => s.saveFrozen g) s
          let s := s.saveForeman p
          if s.offSites cix = false then s
          else
            let s := if p.st = .scrubbing then s else (s.spillVersions fun l => p.clusters.contains l).saveWindows p
            let s := s.clearSites fun n => p.csite.getLsbD n
            let s := (s.updPart cix fun p => { p with current := false }).updPart q.cix fun q => { q with current := true, since := s.clk.toNat }
            ((s.restoreWindows q).resumeForeman q).resumeFrozen q.cix)

end Sys2Proof.Machine
end

