-- ==== Sys2Proof/Machine/Platform.lean ====
section
/-! DEFINITION. Power, sleep, retirement of sites, soft errors and resets (spec/26_platform.md R431-R439; spec/22_hypothesis.md R394;
spec/00_scope.md R7). -/

namespace Sys2Proof.Machine

def siteLoc (s : State) (n : Nat) : BitVec 32 := BitVec.ofNat 32 (s.mid * 2 ^ 24 + n * 2 ^ 16)

/-! ### Grants and thermal trips (R431-R433) -/

/-- The duty of a grant: floor(64 × grant / demand), 1 to 64. -/
def dutyOf (watts demand : Nat) : Nat := if demand = 0 then 64 else Nat.max 1 (Nat.min 64 (64 * watts / demand))
/-- DUTY of PWRS: a trip forces 1. -/
def Site.dutyNow (x : Site) : Nat := if x.tripped then 1 else x.duty
/-- PWRS of a site (R433). -/
def State.powerWord (s : State) (n : Nat) : Word64 :=
  let x := s.site n
  BitVec.ofNat 64 (x.grant * 2 ^ 32 + x.dutyNow * 2 ^ 24 + (if s.slices.any (fun y => y.loc.site == n && y.asleep) then 2 ^ 16 else 0) + x.trips)
/-- The matrix commands that the cores of a site have queued or run, by their formats' group: does the site demand the duty it is granted? -/
def State.siteDemands (s : State) (n : Nat) (ofBlock : Bool) : Bool :=
  s.strands.any fun t => t.place.site == n && t.tq.any fun c => (c.op == .mma || c.op == .mmaz) && (!ofBlock || descFmt c.descA == some .e2m1x)
/-- The duty that the regulator sustains (R432): 64, but for E2M1X 48 while no other site leaves current unused. -/
def State.sustained (s : State) (n : Nat) : Nat :=
  if s.siteDemands n true && (List.range 32).all fun m => m == n || (s.site m).stat == 2 || s.siteDemands m false then 48 else 64
/-- GRANT: the governor's duty, within what the regulator sustains. -/
def execGrant (site watts demand : Nat) (s : State) : Host.Outcome State Fault Refusal :=
  .next (if 32 ≤ site ∨ 1024 ≤ watts then s
    else s.setSite { s.site site with grant := watts, duty := Nat.min (s.sustained site) (dutyOf watts demand) })
/-- THERMAL_TRIP: counted, recorded, and D = 1 until it clears. -/
def execThermalTrip (site : Nat) (s : State) : Host.Outcome State Fault Refusal :=
  .next (if 32 ≤ site ∨ (s.site site).tripped then s
    else (s.setSite { s.site site with tripped := true, trips := Nat.min 65535 ((s.site site).trips + 1) }).scrivener site 4 0 0 0 (siteLoc s site) 0 0)
/-- THERMAL_CLEAR. -/
def execThermalClear (site : Nat) (s : State) : Host.Outcome State Fault Refusal :=
  .next (if (s.site site).tripped then s.setSite { s.site site with tripped := false } else s)

/-! ### Retention sleep (R394, R434) -/

/-- 100 µs. -/
def idleCycles : Nat := 110000
/-- Does a strand stand on a site? -/
def State.siteBusy (s : State) (site : Nat) : Bool := s.strands.any fun t => t.place.site == site && s.occupies t
/-- RETENTION_SLEEP: versions spilled, dirty lines and active cells written back. -/
def execRetentionSleep (l : ClusterLoc) (s : State) : Host.Outcome State Fault Refusal :=
  .next (let x := s.slice l
    if x.asleep ∨ s.siteBusy l.site ∨ s.clk.toNat < x.lastUse + idleCycles ∨ x.misses ≠ [] then s
    else (s.spillVersions fun c => decide (c = l)).setSlice { x with lines := [], backs := [], hot := [], asleep := true })
/-- SLICE_WAKE. -/
def execSliceWake (l : ClusterLoc) (s : State) : Host.Outcome State Fault Refusal :=
  .next (let x := s.slice l
    if x.asleep then s.setSlice { x with asleep := false, lastUse := s.clk.toNat } else s)

/-! ### Retirement of a site (R438) -/

/-- GO: refused while the site is the only one of a part in RUN, LOCKED or QUIESCING. -/
def State.retireSite (s : State) (site : Nat) : State :=
  let x := s.site site
  let os := s.ownersOf site
  if 32 ≤ site ∨ x.stat = 1 ∨ x.stat = 2 then s
  else if os.any (fun p => (p.st == .run || p.st == .locked || p.st == .quiescing) && p.sites.length == 1) then s.setSite { x with stat := 3 }
  else
    let live := os.filter fun p => p.st == .run || p.st == .quiescing
    ((s.setSite { x with stat := 1 }).scrivener site 8 0 ((live.head?.map Part.cix).getD 0) 0 (siteLoc s site) 0 0).beginDrain site
/-- SRET_GO. -/
def execSretGo (site : Nat) (s : State) : Host.Outcome State Fault Refusal := .next (s.retireSite site)

/-- Nothing of a part stands on a site any more but its foreman, and no job of its cores runs. A FROZEN group waits for its thaw (R344). -/
def State.siteDrained (s : State) (cix site : Nat) : Bool :=
  s.strands.all (fun t => t.id.grp.cix != cix || t.fmn || t.place.site != site || !s.occupies t)
    && !s.jobs.any fun j => j.live && j.who.grp.cix == cix && j.place.site == site
/-- The core on another site to which a foreman moves whose site is retired: the default one of the remaining sites, or else the lowest that is free and
has room for its budget; a saved one needs none (assumption 17). -/
def State.foremanMoves (s : State) (p : Part) (site : Nat) : Option CoreLoc :=
  let rest := { p with cfmn := 0, gone := site :: p.gone }
  let c := s.foremanCore rest
  match s.strand? (foremanId p.cix) with
  | none => some c
  | some t =>
    if t.saved.isSome ∨ t.place.site ≠ site then some c
    else (c :: (s.freeCores p).filter fun c => c.site != site).find? fun c =>
      decide (t.bud ≤ s.budRoom c) && !s.strands.any fun u => decide (u.place = c) && s.occupies u
/-- A foreman on a site moves to another core. -/
def State.moveForeman (s : State) (cix site : Nat) : State :=
  match s.part? cix, s.strand? (foremanId cix) with
  | some p, some t =>
    if t.place.site ≠ site then s
    else match s.foremanMoves p site with
      | none => s
      | some c =>
        let old := s.core t.place
        let s := (s.setCore { s.core c with store := old.store, l1 := [] }).setStrand { t with place := c }
        (s.trimPool (coreHalf c) 144 48).updPart cix fun p => { p with cfmn := BitVec.ofNat 64 (2 ^ 21 + c.site * 2 ^ 16 + c.cluster * 2 ^ 8 + c.core) }
  | _, _ => s
/-- What the slices hold that the new homes of a part put elsewhere leaves them (R19, R185): lines, misses, active cells, and replicas of lines that
have come home. -/
def State.rehome (s : State) (p : Part) : State :=
  let moved (l : ClusterLoc) (pa : Nat) : Bool := p.inRanges pa 1 && decide (p.home pa ≠ l)
  let left (x : Slice) : Slice :=
    { x with lines := x.lines.filter (fun y => !moved x.loc y.line), misses := x.misses.filter (fun m => !moved x.loc m.1)
             hot := x.hot.filter (fun pa => !moved x.loc pa)
             queue := x.queue.filter fun id => ((s.request? id).map fun r => !moved x.loc r.target.pa).getD false
             replicas := x.replicas.filter fun q => !(p.inRanges q.line 1 && decide (p.home q.line = x.loc)) }
  { s with slices := s.slices.map left }
/-- Wait entries whose home has moved are re-attached there in arrival order (R438). -/
def State.reattach (s : State) (old p : Part) : State :=
  let s := { s with waits := s.waits.map fun w => if p.inRanges w.pa 1 ∧ old.home w.pa ≠ p.home w.pa then { w with spilled := true } else w }
  p.clusters.foldl (fun s c => s.returnSpilled p c) s
/-- Both, once a part's sites are what they will be. -/
def State.settleHomes (s : State) (old : Part) : State := match s.part? old.cix with
  | none => s
  | some p => (s.rehome p).reattach old p
/-- RETIREMENT_DRAIN_COMPLETE: the site's slices are written back, homes and logical cores are computed anew, and the parts return to
RUN, or go on with the next site that is to be retired. Wait entries keep their arrival numbers. -/
def execRetirementDrainComplete (site : Nat) (s : State) : Host.Outcome State Fault Refusal :=
  .next (let os := s.parts.filter fun p => p.st == .quiescing && p.draining == some site
    if os.isEmpty then s
    else
      if os.any (fun p => !s.siteDrained p.cix site || (s.foremanMoves p site).isNone) then s
      else
        let s := s.spillVersions fun c => c.site == site
        let s := os.foldl (fun (s : State) p => (s.moveForeman p.cix site).updPart p.cix fun p =>
          { p with gone := site :: p.gone, debug := (p.debug).filter fun d => d.site != site }) s
        let s := os.foldl (fun (s : State) p => s.updPart p.cix fun p => { p with logical := s.logicalCores p }) s
        let s := (s.clearSites fun n => n == site).setSite { s.site site with stat := 2 }
        let s := os.foldl State.settleHomes s
        let s := os.foldl (fun (s : State) p => s.updPart p.cix fun p => { p with st := .run, draining := none }) s
        ((s.sites.filter fun x => x.stat == 1).map Site.n).foldl State.beginDrain s)

/-! ### Soft errors (R403, R439) -/

/-- A strand in RUN or PARKED freezes with PARITY, ADDR 0 and INFO 0; its site's scrivener notes the error. -/
def State.softParity (s : State) (id : StrandId) : State :=
  match s.strand? id with
  | none => s
  | some t =>
    let s := s.scrivener t.place.site 9 0 id.grp.cix 0 (locWord s.mid t.place) 0 0
    if t.status = .run ∨ t.status = .parked then s.onStrand id fun s => ({ s with opnd := none } : State).raiseCode .parity else s
/-- The line that a strand fetches from fails its parity: PARITY as R31 has it, with the bits that mismatch a free value. -/
def State.fetchParity (s : State) (id : StrandId) : State :=
  match s.strand? id with
  | none => s
  | some t =>
    if t.status ≠ .run then s else
    let line : Word64 := BitVec.ofNat 64 (t.pc.toNat / 64 * 64)
    let bits := Nat.max 1 (Config.freeBits 16 s.fresh).toNat
    (s.scrivener t.place.site 9 0 id.grp.cix 0 (locWord s.mid t.place) line 0).bump.onStrand id fun s =>
      ({ s with opnd := none } : State).raise { code := .parity, addr := line, info := BitVec.ofNat 64 bits }
/-- The strand that stands on a core. -/
def State.strandOn (s : State) (c : CoreLoc) : Option StrandId := (s.strands.find? fun t => t.onCore && decide (t.place = c)).map Strand.id
/-- SOFT_ERROR. -/
def execSoftError (where_ : SoftErrorPlace) (s : State) : Host.Outcome State Fault Refusal :=
  .next (match where_ with
    | .register who => s.softParity who
    | .boundReg who v => (match s.strand? who with
      | some t => (match (t.vr v).binding.filter fun b => b.st == .resident with
        | some b => (s.setStrand (t.dropEntry v b)).scrivener t.place.site 9 0 who.grp.cix 0 (locWord s.mid t.place) 0 0
        | none => s)
      | none => s)
    | .localStore c => (match s.strandOn c with
      | some i => s.softParity i
      | none => s.scrivener c.site 9 0 0 0 (locWord s.mid c) 0 0)
    | .accumulator c => (match s.strandOn c with
      | some i => s.softParity i
      | none => s.scrivener c.site 9 0 0 0 (locWord s.mid c) 0 0)
    | .hotLine who => s.softParity who
    | .fetchLine who => s.fetchParity who
    | .line pa => if s.isBad pa then s else { s with badLines := lineOf pa :: s.badLines })

/-! ### Resets (R7, R23, R419, R435) -/

/-- What a reset leaves alone: fuses, host memory, the module's identity, the loaded firmware, and the model's own fields. -/
def State.powerUp (s : State) (inc : Nat) : State :=
  { State.reset with mem := s.mem.filter fun c => isHost c.1, hmap := s.hmap, mid := s.mid, inc := inc, firmware := s.firmware
                     agenda := s.agenda, fresh := s.fresh }
/-- COLD_RESET: the incarnation advances. -/
def execColdReset (s : State) : Host.Outcome State Fault Refusal := .next (s.powerUp (s.inc + 1))
/-- A port after a warm reset: DOWN, its retrains still counted. -/
def Port.warm (p : Port) : Port :=
  { n := p.n, st := .down, rtr := p.rtr, pinc := 0, pmid := 0, phase := false, flits := 0, sending := false, retrains := [], waiting := [], accepted := none }
/-- WARM_RESET: the clock, the scrivener, trips, retrains, incarnations and retired sites stay (R91, R433, R435, R438). Of a lost peer, of LOSTT and of
VBND the spec says nothing here: the peer is no longer lost and without a path from now on, the registers take their Reset values (assumption 83). -/
def execWarmReset (s : State) : Host.Outcome State Fault Refusal :=
  .next { s.powerUp s.inc with
    clk := s.clk, ports := s.ports.map Port.warm
    sites := s.sites.map fun x => { blankSite x.n with trips := x.trips, stat := if x.stat = 2 then 2 else 0, next := x.next, events := x.events }
    peers := s.peers.map fun p => { p with lost := false, pathless := some s.clk.toNat } }

end Sys2Proof.Machine
end

