-- ==== Sys2Proof/Machine/Link.lean ====
section
/-! DEFINITION. Links (spec/25_link.md R416-R430): die-to-die boundaries, Ranfen ports, frames and packets, incarnations, lost peers, mill
windows, and the host's accesses over CXL. -/

namespace Sys2Proof.Machine

/-! ### Die-to-die boundaries (R17, R416) -/

/-- The two sites of a boundary: 0-27 horizontal, 28-51 vertical, row by row (assumption 19). -/
def boundarySites (n : Nat) : Nat × Nat :=
  if n < 28 then (n / 7 * 8 + n % 7, n / 7 * 8 + n % 7 + 1) else (n - 28, n - 28 + 8)
def State.boundary (s : State) (n : Nat) : Boundary := (s.bounds.find? fun b => b.n == n).getD { n := n, failed := 0, out := false }
def State.setBoundary (s : State) (b : Boundary) : State := { s with bounds := b :: s.bounds.filter fun x => x.n != b.n }
/-- A site with no boundary in service. -/
def State.cutOff (s : State) (site : Nat) : Bool :=
  (List.range 52).all fun n => (s.boundary n).out || ((boundarySites n).1 != site && (boundarySites n).2 != site)
/-- FLIT_REPLAY: good when the replayed flit passes. The 16th failure in succession takes the boundary out of service. -/
def execFlitReplay (boundary : Nat) (good : Bool) (s : State) : Host.Outcome State Fault Refusal :=
  .next (let b := s.boundary boundary
    if 52 ≤ boundary ∨ b.out then s
    else if good then s.setBoundary { b with failed := 0 }
    else if b.failed < 15 then s.setBoundary { b with failed := b.failed + 1 }
    else
      let e := boundarySites boundary
      let note (s : State) (n : Nat) : State := s.scrivener n 6 0 0 boundary (siteLoc s n) 0 0
      let s := note (note (s.setBoundary { b with failed := 16, out := true }) e.1) e.2
      let cut (s : State) (n : Nat) : State := if s.cutOff n then s.retireSite n else s
      cut (cut s e.1) e.2)

/-! ### Ports and peers (R16, R419, R420, R423) -/

def blankPort (n : Nat) : Port :=
  { n := n, st := .down, rtr := 0, pinc := 0, pmid := 0, phase := false, flits := 0, sending := false, retrains := [], waiting := [], accepted := none }
def State.port (s : State) (n : Nat) : Port := (s.ports.find? fun p => p.n == n).getD (blankPort n)
def State.setPort (s : State) (p : Port) : State := { s with ports := p :: s.ports.filter fun x => x.n != p.n }
/-- The site of a Ranfen port. -/
def portSite (n : Nat) : Nat := if n < 4 then 8 else if n < 8 then 16 else if n < 12 then 15 else if n < 16 then 23 else if n = 16 then 7 else 31
def portCode : PortStatus → Nat
  | .down => 0
  | .training => 1
  | .auth => 2
  | .up => 3
  | .retraining => 4
  | .fenced => 5
/-- Peers that no port reaches any more are without a path from now on; those reached again are not. -/
def State.notePaths (s : State) : State :=
  { s with peers := s.peers.map fun q =>
      if s.ports.any fun p => p.st == .up && p.pmid == q.mid then { q with pathless := none }
      else { q with pathless := some (q.pathless.getD s.clk.toNat) } }
/-- A port enters a state: the scrivener of its site notes it. -/
def State.movePort (s : State) (p : Port) (st : PortStatus) : State :=
  ((s.setPort { p with st := st }).scrivener (portSite p.n) 2 (BitVec.ofNat 8 (portCode st)) 0 p.n (siteLoc s (portSite p.n)) 0 0).notePaths
def State.peer? (s : State) (mid : Nat) : Option Peer := s.peers.find? fun p => p.mid == mid
def State.setPeer (s : State) (p : Peer) : State := { s with peers := p :: s.peers.filter fun x => x.mid != p.mid }

/-- TRAIN. -/
def execTrain (port : Nat) (s : State) : Host.Outcome State Fault Refusal :=
  .next (let p := s.port port
    if 18 ≤ port then s else if p.st = .down ∨ p.st = .fenced then s.movePort p .training else s)
/-- FENCE. -/
def execFencePort (port : Nat) (s : State) : Host.Outcome State Fault Refusal :=
  .next (if 18 ≤ port then s else s.movePort (s.port port) .fenced)
/-- DOWN, from FENCED or UP. -/
def execDown (port : Nat) (s : State) : Host.Outcome State Fault Refusal :=
  .next (let p := s.port port
    if p.st = .fenced ∨ p.st = .up then s.movePort p .down else s)
/-- SIGNAL_DETECTED on a port that is down; every port is enabled (assumption 20). -/
def execSignalDetected (port : Nat) (s : State) : Host.Outcome State Fault Refusal :=
  .next (if 18 ≤ port ∨ (s.port port).st ≠ .down then s else s.movePort (s.port port) .training)
/-- LANES_TRAINED: in AUTH, PMID and PINC are what the session, which has begun, learns; PORT_AUTH tells them. -/
def execLanesTrained (port : Nat) (good : Bool) (s : State) : Host.Outcome State Fault Refusal :=
  .next (let p := s.port port
    if p.st ≠ .training then s else s.movePort { p with asking := good } (if good then .auth else .down))

/-! ### A lost peer, and a new incarnation (R422, R423) -/

/-- A strand's blocking access to a module is answered as that of a lost one, and a park there that it has still to take in is woken with DEAD; a code
line it asked for faults. -/
def loseStrand (mid : Nat) (s : State) (t : Strand) : State :=
  let s := match t.blocked with
    | some b =>
      if b.asked = some mid ∧ b.answer = none then s.setStrand { t with blocked := some { b with answer := some (.refused .incarn) } }
      else match b.answer, b.woken with
        | some (.parked _), none => if b.asked = some mid then s.setStrand { t with blocked := some { b with woken := some (.status .dead 0, []) } } else s
        | _, _ => s
    | none => s
  let s := match t.line with
    | some (m, _, _, none) =>
      if m = mid then
        let s := match s.strand? t.id with
          | some t => s.setStrand { t with line := none }
          | none => s
        (if t.status = .run then
          s.onStrand t.id fun s => ({ s with opnd := none } : State).raise (faultAt .pagePerm (BitVec.ofNat 64 (t.pc.toNat / 64 * 64)) Kind.execute.code)
        else s)
      else s
    | _ => s
  if (t.park.map fun k => k.mid == mid && k.result.isNone).getD false then s.deliverWake t.id (.status .dead 0) [] else s
/-- What waits for a module that is gone ends as R423 lays down; a post there finds it DEAD, and no resolve waits for it. -/
def State.losePending (s : State) (mid : Nat) : State :=
  let s : State := { s with net := s.net.map fun (r : Request) =>
    if r.target.mid = mid ∧ mid ≠ s.mid ∧ r.done = false then { r with done := true, bad := some (.pagePerm, false) } else r }
  let s := s.invs.foldl (fun s v => s.ackModule mid v) s
  let s := (s.posts.filter fun x => (x.sent.map Prod.fst) == some mid).foldl (fun s x => s.postEnds x (.done .dead 0 0)) s
  let s : State := { s with
    parts := s.parts.map (fun p => { p with
      resolves := p.resolves.map (fun r => { r with mods := r.mods.filter fun m => m.1 != mid }),
      hyps := p.hyps.map (fun e => { e with away := e.away.filter fun m => m.1 != mid }) }),
    givenUp := s.givenUp.filter (fun e => e.2.1 != mid),
    frames := s.frames.filter fun f => f.2.1 != mid }
  (s.strands.foldl (loseStrand mid) s).mapStrands fun t => { t with afar := t.afar.filter fun x => x.1 != mid }
/-- Is a party one of an older incarnation of a module? -/
def Party.outdated (mid inc : Nat) : Party → Bool
  | .remote m i _ => m == mid && i != inc
  | _ => false
/-- The purge of R422: nothing of an older incarnation of a module stays but the answers to what its requests have done. -/
def State.purge (s : State) (mid inc : Nat) : State :=
  let gone (w : Wait) : Bool := w.mid == mid && w.inc != inc
  let s := (s.waits.filter gone).foldl withdrawWait.withdrawnWait { s with waits := s.waits.filter fun w => !gone w }
  let s := abandonLocks s fun g => fieldNat g.b2 56 8 == mid % 256 && fieldNat g.b2 32 24 != inc % 2 ^ 24
  let old (p : Packet) : Bool := p.mid == mid && p.inc != inc
  let late := (s.net.filterMap fun r => if r.party.outdated mid inc ∧ r.done = false then r.tag else none)
    ++ ((s.mill.filter fun c => old c.packet).map fun c => c.packet.seqNo)
    ++ (s.posts.filterMap fun q => match q.source with
      | .remote p => if old p then some p.seqNo else none
      | _ => none)
    ++ (s.invs.filterMap fun v => v.asker.bind fun k => if old k then some k.seqNo else none)
  let s : State := { s with
    net := s.net.filter fun r => !(r.party.outdated mid inc && !r.done)
    posts := s.posts.filter fun q => (match q.source with
      | .remote p => !old p
      | _ => true)
    mill := s.mill.filter fun c => !old c.packet
    views := s.views.filter fun v => !v.1.outdated mid inc
    invs := s.invs.filter fun v => !(v.asker.map old).getD false
    out := s.out ++ late.map fun n => Outgoing.response mid n (.refused .incarn) }
  s.losePending mid
/-- An incarnation of a module is learnt: a new one purges, and ends a loss. -/
def State.learn (s : State) (mid inc : Nat) : State :=
  match s.peer? mid with
  | none => s.setPeer { mid := mid, inc := inc, lost := false, pathless := none }
  | some q => if q.inc < inc then (s.purge mid inc).setPeer { q with inc := inc } else s

/-- A port comes UP: its peer is lost no more, and this module rejoins a lost one under its own next incarnation (R419, R423). -/
def State.portUp (s : State) (p : Port) : State :=
  let wasLost := ((s.peer? p.pmid).map Peer.lost).getD false
  let s : State := { s with inc := if wasLost then s.inc + 1 else s.inc, peers := s.peers.map fun (q : Peer) => if q.mid = p.pmid then { q with lost := false } else q }
  s.movePort p .up
/-- PORT_AUTH: the port is UP when the session stands, the peer is another module, and its incarnation is no older than the one recorded. -/
def State.authPort (s : State) (p : Port) (good : Bool) (pmid pinc : Nat) : State :=
  let recorded := ((s.peer? pmid).map Peer.inc).getD 0
  let p := { p with pmid := pmid, pinc := pinc, asking := false }
  if good = false ∨ pmid = s.mid ∨ pinc < recorded then s.movePort p .fenced
  else (s.learn pmid pinc).portUp { p with phase := false, flits := 0, sending := false, accepted := none, begun := none, keyed := s.clk.toNat }
/-- A module ID has 8 bits and an incarnation number 24 (R418): no session tells of others. -/
def execPortAuth (port : Nat) (good : Bool) (pmid pinc : Nat) (s : State) : Host.Outcome State Fault Refusal :=
  .next (if (s.port port).st ≠ .auth ∨ 256 ≤ pmid ∨ 2 ^ 24 ≤ pinc then s else s.authPort (s.port port) good pmid pinc)

/-- A port leaves UP to retrain. -/
def State.retrain (s : State) (p : Port) : State :=
  s.movePort { p with rtr := Nat.min 65535 (p.rtr + 1), retrains := (s.clk.toNat :: p.retrains).take 3 } .retraining
/-- One second. -/
def secondCycles : Nat := 1100000000
/-- Three retrains within a second. -/
def Port.unsteady (p : Port) (now : Nat) : Bool := match p.retrains with
  | [_, _, t] => decide (now < t + secondCycles)
  | _ => false
/-- The next port that a live update has still to retrain, one at a time (R437). -/
def State.retrainNext (s : State) : State :=
  if s.ports.any fun p => p.st == .retraining then s
  else match s.ports.find? fun p => p.due && p.st == .up with
    | some p => s.retrain { p with due := false }
    | none => s
/-- LIVE_UPDATE (R437): verified, then applied; every scrivener notes it, every foreman receives NOTICE, and the ports retrain one after the other. -/
def execLiveUpdate (i : FirmwareImage) (s : State) : Host.Outcome State Fault Refusal :=
  .next (if firmwareOk i = false then s
    else
      let s : State := { s with firmware := { digest := i.digest, secVer := i.secVer, verified := true } }
      let s := (List.range 32).foldl (fun (s : State) n => s.scrivener n 7 0 0 0 (BitVec.ofNat 32 (s.mid * 2 ^ 24 + n * 2 ^ 16)) (i.secVer.setWidth 64) 0) s
      let s : State := { s with ports := s.ports.map fun p => { p with due := p.st == .up } }
      ((s.parts.filter Part.serves).foldl (fun (s : State) p =>
        sendRecord s p.cix none { blankRecord .notice with info := i.secVer.setWidth 64, clk := s.clk }) s).retrainNext)
/-- RETRAIN_COMPLETE: good is false for a failed rekey. -/
def execRetrainComplete (port : Nat) (good : Bool) (pmid pinc : Nat) (s : State) : Host.Outcome State Fault Refusal :=
  .next (let p := s.port port
    if p.st ≠ .retraining then s
    else if good = false ∨ p.unsteady s.clk.toNat then s.movePort p .fenced
    else if pmid = p.pmid ∧ pinc = p.pinc then (s.portUp p).retrainNext
    else if 256 ≤ pmid ∨ 2 ^ 24 ≤ pinc then s
    else s.movePort { p with pmid := pmid, pinc := pinc, asking := false } .auth)
/-- LANE_ERROR beyond replay. -/
def execLaneError (port : Nat) (s : State) : Host.Outcome State Fault Refusal :=
  .next (if (s.port port).st = .up then s.retrain (s.port port) else s)
/-- The least time that 2^32 flits of 256 bytes take at 224 GB/s (R418, R421). -/
def keyCycles : Nat := (2 ^ 32 * 44 + 34) / 35
/-- KEY_UPDATE: the sender moves to the next key at a frame boundary, 2^32 flits after the last one, which the link cannot have carried sooner than its
rate allows (assumption 20); a refused update fences the port. -/
def execKeyUpdate (port : Nat) (good : Bool) (s : State) : Host.Outcome State Fault Refusal :=
  .next (let p := s.port port
    if p.st ≠ .up ∨ s.clk.toNat < p.keyed + keyCycles then s
    else if good then s.setPort { p with sending := !p.sending, keyed := s.clk.toNat } else s.movePort p .fenced)

/-- Has a sequence number been accepted already (R425)? -/
def seen (last : Option (BitVec 16)) (n : BitVec 16) : Bool := match last with
  | none => false
  | some l => decide ((l - n).toNat < 32768)
def Port.takePacket (p : Port) (k : Packet) : Port :=
  let p := if p.begun = some k.linkNo then { p with begun := none } else p
  if seen p.accepted k.linkNo ∨ 256 ≤ k.mid ∨ 2 ^ 24 ≤ k.inc then p else { p with waiting := p.waiting ++ [k], accepted := some k.linkNo }
/-- FRAME_RECEIVE: a frame whose tag fails is discarded whole, and the port retrains. One of the other key phase is the first under the session's next
key: the tag of an old one fails from then on. A packet that has come in part is discarded when its first flit comes again (R425). -/
def execFrameReceive (port : Nat) (frame : Frame) (s : State) : Host.Outcome State Fault Refusal :=
  .next (let p := s.port port
    if p.st ≠ .up then s
    else if frame.tagOk = false then s.retrain p
    else
      let p := { p with phase := frame.keyPhase, flits := if frame.keyPhase = p.phase then p.flits + 16 else 16 }
      let p := frame.packets.foldl Port.takePacket p
      s.setPort { p with begun := if frame.begun.isSome then frame.begun else p.begun })

/-- A peer is lost: what waits for it ends. -/
def State.losePeer (s : State) (mid : Nat) : State :=
  let q : Peer := match s.peer? mid with
    | some q => { q with lost := true }
    | none => { mid := mid, inc := 0, lost := true, pathless := some 0 }
  (s.setPeer q).losePending mid
/-- PEER_LOST: no port has offered a path for LOSTT µs. -/
def execPeerLost (mid : Nat) (s : State) : Host.Outcome State Fault Refusal :=
  .next (let since : Option Nat := match s.peer? mid with
      | some q => if q.lost then none else q.pathless
      | none => some 0
    match since with
    | none => s
    | some t =>
      if mid = s.mid ∨ s.clk.toNat < t + s.lostt * 1100 then s
      else
        s.losePeer mid)
/-- An answer of another module: INCARN makes its home a lost one (R424). -/
def State.homeAsked (s : State) (to_ : Asker) : Option Nat :=
  match s.askedOf (RemoteParty.here to_.party) to_.seqNo with
  | some r => some r.target.mid
  | none => match to_.party with
    | .strand who _ => (s.givenUp.find? fun e => decide (e.1 = who) && e.2.2 == to_.seqNo).map (fun e => e.2.1) <|>
        (s.strand? who).bind fun t => (t.blocked.bind fun b => if b.answer.isNone then b.asked else none) <|> (t.line.map fun l => l.1) <|> (t.park.map Park.mid)
    | q => (s.posts.find? fun x => (x.party.unit == q) && (x.sent.map Prod.snd) == some to_.seqNo).bind fun x => x.sent.map Prod.fst
/-- BLOCKING_RESPONSE. -/
def execBlockingResponse (to_ : Asker) (a : Answer) (s : State) : Host.Outcome State Fault Refusal :=
  .next (match a, s.homeAsked to_ with
    | .refused .incarn, some mid => if mid = s.mid then s else s.losePeer mid
    | _, _ => s.answered to_ a)

/-! ### Packets at this module (R250, R377, R422, R424, R425) -/

/-- Does an address lie where the part's lines may (R26, R424)? -/
def State.reaches (s : State) (p : Part) (pa n : Nat) : Bool :=
  if isHbm pa then p.inRanges pa n
  else if isHost pa then decide (pa + n ≤ 2 ^ 48)
  else match vaultOf pa with
    | some (c, off) => p.sites.contains c.site && decide (off + n ≤ s.winOf c * 2 ^ 20)
    | none => false
/-- A hypothesis instruction of another module at the table home (R377, R395-R400). A module whose strand opens or enters a hypothesis is told of its
chain (assumption 67). -/
def State.remoteHyp (s : State) (p : Part) (k : Packet) (sub : Nat) (h : Word64) (refute : Bool) (counter : Option Word64) : State × Answer :=
  let tag : BitVec 20 := h.setWidth 20
  let id := hypId tag
  let mine := p.effective (hypId k.hyp)
  let ok (v : Word64) : Answer := .status .ok v 0
  let dead : Answer := .status .dead 0 0
  let sync (t : BitVec 20) : Answer := .fault .hypSync (t.setWidth 64)
  if p.tableModule ≠ s.mid ∨ p.st ≠ .run then (s, dead)
  else match sub with
    | 0 =>
      if p.isRefuted mine then (s, dead)
      else match s.freeId p with
        | none => (s, .status .full 0 0)
        | some i => if p.depthOf mine = 15 then (s, .status .full 0 0)
                    else (let r := s.openAt p i mine; (r.1.tellTree ((r.1.part? p.cix).getD p) k.mid r.2, ok (r.2.setWidth 64)))
    | 1 =>
      if s.matches p h = false then (s, .status .stale 0 0)
      else if p.openOrRoot id = false then (s, dead)
      else if (p.chain id).contains mine = false then (s, sync tag) else (s.tellTree p k.mid tag, ok (tag.setWidth 64))
    | 2 =>
      if hypId k.hyp = 0 then (s, .status .empty 0 0)
      else if p.isRefuted mine then (s, dead) else (s, ok ((p.tagOf (p.parentOf mine)).setWidth 64))
    | 3 =>
      let chain := p.chain mine
      if s.matches p h = false then (s, .status .stale 0 0)
      else if id = 0 ∨ p.openOrRoot id = false then (s, dead)
      else if chain.contains (p.parentOf id) = false then (s, sync (p.tagOf (p.parentOf id)))
      else if chain.contains id ∧ mine ≠ id then (s, sync tag)
      else
        let view := View.raise (s.viewOf (Packet.sender k)) (Packet.sender k) s.fresh
        ((s.setPart (if refute then p.refute id 1 s.fresh counter view else p.confirm id s.fresh counter view)).bump, ok 0)
    | _ =>
      (s, .status (if s.matches p h then .ok else .stale) (queryHyp p (h.toNat % 4096)) 0)
/-- A request to a home of this module, or a contribution that a switch holds (R427). -/
def State.admitRequest (s : State) (p : Part) (k : Packet) (kind : RequestKind) (n : Nat) (fill : Bool) : State :=
  if s.reaches p k.pa n = false then s.respond k (.refused .addr)
  else match if isHbm k.pa then s.typedIn k.pa n else none with
  | some g => s.respond k (.fault .type (BitVec.ofNat 64 g.tag.code))
  | none =>
    let merges : Bool := match kind with
      | .reduce _ _ _ => k.mid != s.mid && p.millWindows.any fun w => decide (w.1 ≤ k.pa) && decide (k.pa + n ≤ w.1 + w.2)
      | _ => false
    if merges then { s with mill := s.mill ++ [{ line := lineOf k.pa, cix := p.cix, packet := k }] }
    else
      let t : Target := { va := BitVec.ofNat 64 k.pa, mid := s.mid, pa := k.pa, leaf := Packet.leaf k s.mid }
      { s with net := s.net ++ [{ id := s.fresh, party := Packet.sender k, loc := k.loc, sig := k.tag, cix := p.cix, target := t, kind := kind, reply := .none
                                  hyp := k.hyp, tag := some k.seqNo, pc := 0, number := s.fresh, view := [], rels := [], fill := fill, skip := [], done := false, seen := 0
                                  bad := none, value := 0, line := 0 }], fresh := s.fresh + 1 }
/-- A cell operation of another module's party, or its withdrawal, on its way to the escapement. -/
def State.admitCell (s : State) (p : Part) (k : Packet) (hnd : Word64) (op : CellOp) : State :=
  { s with posts := s.posts ++ [{ id := s.fresh, cix := p.cix, source := .remote k, handle := hnd, hyp := k.hyp, op := op, party := Packet.sender k
                                  view := [], sent := none }], fresh := s.fresh + 1 }
/-- What a part that serves does with a packet. What needs no answer gets none: a wait that another
module's part discards, and what the table's module tells of hypotheses, which is taken in before. -/
def State.serve (s : State) (p : Part) (k : Packet) : State := match k.access with
  | .invalidate base len =>
    { s with invs := s.invs ++ [{ n := s.fresh, cix := p.cix, base := base, len := len, acked := [], mods := [], asker := some k }], fresh := s.fresh + 1 }
  | .cell hnd _ _ op => if isHbm k.pa ∧ p.inRanges k.pa 32 then s.admitCell p k hnd op else s.respond k (.refused .addr)
  | .withdraw hnd => s.admitCell p k hnd .qry
  | .discard hnd => s.admitCell p k hnd .qry
  | .frame bits => s.respond k (if s.reaches p k.pa (2 ^ bits) then .status .ok 0 0 else .refused .addr)
  | .sweep tags =>
    if p.tableModule = k.mid then s.updPart p.cix fun p => { p with sweeps := p.sweeps ++ [{ tags := tags, swept := [], asker := k }] }
    else s.respond k (.status .ok 0 0)
  | .opened _ _ => s
  | .resolve hyp confirm tags target kids =>
    if p.tableModule = k.mid then (s.updPart p.cix fun p => p.learnResolve s.fresh k hyp confirm tags target kids).bump
    else s.respond k (.status .ok 0 0)
  | .hypothesis sub h refute counter =>
    if sub = capacityCode then s.capacityRefute p.cix (h.setWidth 20)
    else
      let r := s.remoteHyp p k sub h refute counter
      r.1.respond k r.2
  | .read n => s.admitRequest p k (.read n) n false
  | .readLine n => s.admitRequest p k (.read n) n true
  | .write n d => s.admitRequest p k (.write n d) n false
  | .atom aop n x => s.admitRequest p k (.atom aop n x) n false
  | .cas n o x => s.admitRequest p k (.cas n o x) n false
  | .reduce rop et d => s.admitRequest p k (.reduce rop et d) (etBytes et) false
/-- Does a packet wait for an answer? -/
def RemoteAccess.answered : RemoteAccess → Bool
  | .discard _ => false
  | .opened _ _ => false
  | .hypothesis sub _ _ _ => sub != capacityCode
  | _ => true
/-- What a packet tells a part of the hypotheses of its context, whose table is on another module; a part that does not run yet learns it too. -/
def State.hearTree (s : State) (p : Part) (k : Packet) : State :=
  if p.tableModule = s.mid then s
  else
    let s := s.updPart p.cix fun p => p.learnTree k.tree
    match k.access with
    | .opened tag parent => if p.tableModule = k.mid then s.updPart p.cix fun p => p.learnOpened tag parent else s
    | _ => s
/-- A packet reaches this module: its incarnation, its part, then what it asks for. -/
def State.takeIn (s : State) (k : Packet) : State :=
  let recorded := ((s.peer? k.mid).map Peer.inc).getD 0
  let refuse (s : State) (why : WireCode) : State := if RemoteAccess.answered k.access then s.respond k (.refused why) else s
  if k.inc < recorded then refuse s .incarn
  else
    let s := s.learn k.mid k.inc
    match s.parts.find? fun p => p.st != .free && fieldNat p.cid 0 32 == k.cid.toNat with
    | none => refuse s .part
    | some p =>
      let s := s.hearTree p k
      let p := (s.part? p.cix).getD p
      if p.serves = false then refuse s .part
      else if k.hsh ∧ (p.shk && p.sslot) = false then refuse s .key
      else s.serve p k
/-- PACKET_FORWARD: the first packet that a port has received and checked goes on into the module. -/
def execPacketForward (link : Nat) (s : State) : Host.Outcome State Fault Refusal :=
  .next (let p := s.port link
    match p.waiting with
    | [] => s
    | k :: rest => (s.setPort { p with waiting := rest }).takeIn k)

/-! ### Mill windows (R427) -/

def reduceOf (k : Packet) : Option (Rop × Et × Nat) := match k.access with
  | .reduce rop et d => some (rop, et, d.toNat % 2 ^ (8 * etBytes et))
  | _ => none
/-- Two contributions merged: floating-point ones as FP32. -/
def mergeTwo (rop : Rop) (et : Et) (a b : Nat) : Nat :=
  match rop with
  | .add => if etFloat et then atomFadd a b else (a + b) % 2 ^ 32
  | _ => if etFloat et then floatMinMax fp32Format (rop == .max) a b else reduceElement rop et a b
/-- A BF16 element as FP32. -/
def widen (et : Et) (x : Nat) : Nat := if et = .bf16 then x * 65536 else x
/-- Each element of a list with the others. -/
def picks : List Nat → List (Nat × List Nat)
  | [] => []
  | a :: rest => (a, rest) :: (picks rest).map fun x => (x.1, a :: x.2)
/-- The results of every tree over contributions, merged two at a time. -/
def mergeTrees (rop : Rop) (et : Et) : Nat → List Nat → List Nat
  | 0, _ => []
  | _ + 1, [] => []
  | _ + 1, [a] => [a]
  | n + 1, xs => ((picks xs).flatMap fun x => (picks x.2).map fun y => mergeTwo rop et x.1 y.1 :: y.2).flatMap (mergeTrees rop et n)
/-- The merged value of one element: that of some tree over the contributions, which the spec leaves open (R427). -/
def mergeAll (rop : Rop) (et : Et) (fresh : Nat) (xs : List Nat) : Nat :=
  let all := mergeTrees rop et xs.length (xs.map (widen et))
  (all[(Config.freeBits 32 fresh).toNat % all.length]?).getD 0
/-- What the home makes of a merged value: the prior value added last. -/
def millNew (rop : Rop) (et : Et) (old x : Nat) : Nat :=
  if etFloat et then
    match rop with
    | .add => (roundTo (formatOf et) .rne false 0 (exactAdd .rne (decodeFloat (formatOf et) old) (decodeFloat fp32Format x))).1
    | _ => (let y := floatMinMax fp32Format (rop == .max) (widen et old) x
        if et = .bf16 then y / 65536 else y)
  else reduceElement rop et old x
/-- The merged value of an element performed at its home, and every contributor answered; each of them has made the write. -/
def State.millElement (s : State) (p : Part) (cs : List Contribution) (rop : Rop) (et : Et) (pa : Nat) : State :=
  let mine := cs.filter fun c => c.packet.pa == pa
  match mine with
  | [] => s
  | c :: _ =>
    let x := mergeAll rop et s.fresh (mine.filterMap fun c => (reduceOf c.packet).map fun r => r.2.2)
    let n := etBytes et
    let t : Target := { va := BitVec.ofNat 64 pa, mid := s.mid, pa := pa, leaf := { Packet.leaf c.packet s.mid with vbase := pa / 2 ^ 16 * 2 ^ 16, frame := pa / 2 ^ 16 * 2 ^ 16 } }
    let old := s.homeBytes p t.leaf.hsh pa n (if t.leaf.hyp then c.packet.hyp else 0)
    let w (s : State) (k : Packet) : Writer :=
      { party := Packet.sender k, kind := 2, loc := k.loc, sig := k.tag, strand := none, hyp := k.hyp, number := s.fresh, view := s.viewOf (Packet.sender k)
        rels := [], atomic := false }
    let s := s.bump.homeWrite p t n c.packet.hyp (millNew rop et old x) (w s c.packet)
    let s := (mine.drop 1).foldl (fun (s : State) c => (s.noteRecent p pa n true (if t.leaf.hyp then c.packet.hyp else 0) (w s c.packet)).bump) s
    mine.foldl (fun (s : State) c => s.respond c.packet (.data 0)) s
/-- MILL_MERGE_FORWARD: contributions to a line with one ROP, ET and hypothesis are merged and performed. -/
def execMillMergeForward (line : Nat) (s : State) : Host.Outcome State Fault Refusal :=
  .next (match s.mill.find? fun c => c.line == line with
    | none => s
    | some c => match reduceOf c.packet, s.part? c.cix with
      | some (rop, et, _), some p =>
        let same (d : Contribution) : Bool := d.line == line && d.cix == c.cix && d.packet.hyp == c.packet.hyp &&
          ((reduceOf d.packet).map fun r => r.1 == rop && r.2.1 == et).getD false
        let cs := s.mill.filter same
        let s : State := { s with mill := s.mill.filter fun d => !same d }
        if p.serves = false then cs.foldl (fun (s : State) d => s.respond d.packet (.refused .part)) s
        else ((List.range 128).map fun i => line + i).foldl (fun (s : State) pa => s.millElement p cs rop et pa) s
      | _, _ => { s with mill := s.mill.filter fun d => d.line != line })

/-! ### The host over CXL (R26, R257, R273, R424, R428, R429) -/

/-- The HOST_SHARED page of a part in RUN that holds a span, and that part. -/
def State.hostPage (s : State) (pa n : Nat) : Option (Part × Leaf) :=
  (s.parts.filter fun p => p.st == .run).findSome? fun p =>
    ((s.leaves p).find? fun l =>
      l.hsh && l.mid == s.mid && decide (l.st ≠ .poisoned) && s.frameOk p l && decide (l.frame ≤ pa) && decide (pa + n ≤ l.frame + 2 ^ l.bits)).map fun l => (p, l)
/-- The part in CONFIGURING whose ranges hold a span. -/
def State.hostConfig (s : State) (pa n : Nat) : Option Part := s.parts.find? fun p => p.st == .configuring && p.inRanges pa n
/-- Lines that another part's ranges name as well, LOCK not having checked them yet: they are not under the key of one part alone, and what passes under
another key than a line's own is undefined (R257). -/
def State.sharedLine (s : State) (p : Part) (line : Nat) : Bool := (s.otherParts p).any fun q => q.inRanges line 1
/-- n bytes as the host reads them. -/
def State.configByte (s : State) (p : Part) (pa : Nat) : Byte :=
  if s.sharedLine p (lineOf pa) ∨ s.otherKey false pa then Config.freeBits 8 (s.fresh * 4096 + pa) else readByte s.mem pa

/-- An entry of the scrivener as 32 bytes (R435). -/
def Scrivened.word (e : Scrivened) : Nat :=
  e.clk.toNat + e.kind % 256 * 2 ^ 64 + e.code.toNat * 2 ^ 72 + e.cix % 256 * 2 ^ 80 + e.port % 256 * 2 ^ 88 + e.seqNo.toNat * 2 ^ 96 + e.loc.toNat * 2 ^ 128
    + e.addr.toNat * 2 ^ 160 + e.info.toNat * 2 ^ 224
/-- A register of a site's block by its offset (R182, R433, R436, R438). -/
def State.siteWord (s : State) (site off : Nat) : Option Word64 :=
  if 0x100 ≤ off ∧ off < 0x1A0 then some (BitVec.ofNat 64 (s.winOf { site := site, cluster := (off - 0x100) / 8 }))
  else if off = 0x200 then some (s.powerWord site)
  else if off = 0x208 then some (BitVec.ofNat 64 ((s.site site).stat * 256))
  else if off = 0x210 then some ((s.site site).next.setWidth 64)
  else none
/-- RFSTAT of a port (R419): PINC and PMID where they are valid, a free value while the session of AUTH has not told the model what it has learnt. -/
def Port.word (p : Port) (fresh : Nat) : Word64 :=
  let known : Nat := match p.st with
    | .auth => if p.asking then (Config.freeBits 32 fresh).toNat * 256 else p.pinc % 2 ^ 24 * 2 ^ 16 + p.pmid % 256 * 256
    | .up | .retraining => p.pinc % 2 ^ 24 * 2 ^ 16 + p.pmid % 256 * 256
    | _ => 0
  BitVec.ofNat 64 (p.rtr * 2 ^ 48 + known + portCode p.st)
/-- A register of a part's block by its offset (R246, R360); CMD is write-only. -/
def Part.word (p : Part) (off : Nat) : Option Word64 :=
  if off = 0 then some (BitVec.ofNat 64 (p.cause.toNat * 256 + p.st.code))
  else if off = 8 then some 0
  else if 0x100 ≤ off ∧ off < 0x140 then some (wordOf 512 p.cdrec ((off - 0x100) / 8))
  else if off < 0xE0 ∨ (0x140 ≤ off ∧ off < 0x1C0) then some (p.reg off)
  else none
/-- A word of the module control registers as the host link reads it (R5, R6, R24): a write-only field and a reserved one read zero. -/
def State.controlWord (s : State) (addr : Nat) : Option Word64 :=
  if addr % 8 ≠ 0 ∨ addr < 0x20100000000 then none
  else if addr < 0x20100200000 then s.siteWord ((addr - 0x20100000000) / 0x10000) ((addr - 0x20100000000) % 0x10000)
  else if addr = 0x20100400000 then some (BitVec.ofNat 64 (s.mid * 2 ^ 24 + s.inc % 2 ^ 24))
  else if addr = 0x20100400008 then some (BitVec.ofNat 64 s.lostt)
  else if 0x20100400100 ≤ addr ∧ addr < 0x20100400100 + 18 * 0x20 then
    (let off := (addr - 0x20100400100) % 0x20
     if off = 0 then some ((s.port ((addr - 0x20100400100) / 0x20)).word s.fresh) else if off = 8 then some 0 else none)
  else if partBlocks + 0x1000 ≤ addr ∧ addr < partBlocks + 0x40000 then
    (let cix := (addr - partBlocks) / 0x1000
     ((s.part? cix).getD (blankPart cix s.mid)).word ((addr - partBlocks) % 0x1000))
  else if 0x20101000000 ≤ addr ∧ addr < 0x20101400000 then
    (let off := (addr - 0x20101000000) % 0x20000
     some (((s.site ((addr - 0x20101000000) / 0x20000)).events.find? fun e => e.seqNo.toNat % 4096 == off / 32).map (fun e => BitVec.ofNat 64 (e.word / 2 ^ (64 * (off % 32 / 8)))) |>.getD 0))
  else none
/-- Words of the registers, one after the other; none where one of them is no register. -/
def State.controlBytes (s : State) (addr : Nat) : Nat → Option (List Byte)
  | 0 => some []
  | n + 1 => match s.controlWord addr, s.controlBytes (addr + 8) n with
    | some w, some l => some (leBytes 8 w.toNat ++ l)
    | _, _ => none
/-- Lines of a span that have an uncorrectable error. -/
def State.errorsIn (s : State) (pa n : Nat) : Bool := s.badLines.any fun b => overlaps b 128 pa n

/-- Is an address one of the module control registers' (R24)? -/
def controlSpace (addr : Nat) : Bool := decide (0x20100000000 ≤ addr) && decide (addr < 0x20101400000)
/-- Does a span of a SYNC page touch a typed granule, whose bytes no load or store reaches (R274, R307)? -/
def State.typedSpan (s : State) (l : Leaf) (pa n : Nat) : Bool := l.sync && (s.typedIn pa n).isSome
/-- CXL_MEM_READ: a read that is refused completes with an error: CXL.mem offers no range outside parts (R428). A read of the control registers is one
on the PCIe function, by which alone the host link reaches them, and is answered or refused there (R26, R424). -/
def execCxlMemRead (addr len : Nat) (s : State) : Host.Outcome State Fault Refusal :=
  .next (if controlSpace addr then
      { s with out := s.out ++ [match if 0 < len ∧ len % 8 = 0 then s.controlBytes addr (len / 8) else none with
        | some bytes => Outgoing.registerData addr bytes
        | none => Outgoing.unsupported addr] }.bump
    else match s.hostConfig addr len, s.hostPage addr len with
    | some p, _ => ({ s with out := s.out ++ [.hostData addr ((List.range len).map fun i => s.configByte p (addr + i))] } : State).bump
    | none, some (p, l) =>
      let t : Target := { va := BitVec.ofNat 64 (l.vbase + (addr - l.frame)), mid := s.mid, pa := addr, leaf := l }
      if s.typedSpan l addr len then { s with out := s.out ++ [.hostError addr] }
      else if s.errorsIn addr len then
        let s := s.meetErrorOf p 0 t
        { s with out := s.out ++ [.hostError addr] }
      else
        match if p.current then s.sliceVisit (p.home addr) t false else some s with
        | none => s
        | some s => { s with out := s.out ++ [.hostData addr (leBytes len (s.homeBytes p l.hsh addr len 0))] }
    | none, none => { s with out := s.out ++ [.hostError addr] })
/-- Bytes from an address as one number. -/
def bytesNat (l : List Byte) : Nat := leNat l
/-- The host as a writer. -/
def State.hostWriter (s : State) : Writer :=
  { party := .host, kind := 3, loc := BitVec.ofNat 32 (s.mid * 2 ^ 24), sig := 0, strand := none, hyp := 0, number := s.fresh, view := s.viewOf .host
    rels := [], atomic := false }
/-- The part of a host's write that lies in one 64-byte line; none while the line is not at hand. -/
def State.hostLine (s : State) (addr : Nat) (bytes : List Byte) : Option State :=
  let n := bytes.length
  match s.hostConfig addr n, s.hostPage addr n with
  | some p, _ =>
    some (if s.sharedLine p (lineOf addr) then (s.writeMem none false (lineOf addr) 128 (Config.freeBits 1024 s.fresh).toNat).bump else s.writeMem none false addr n (bytesNat bytes))
  | none, some (p, l) =>
    let t : Target := { va := BitVec.ofNat 64 (l.vbase + (addr - l.frame)), mid := s.mid, pa := addr, leaf := { l with hyp := false } }
    if s.typedSpan l addr n then some s
    else if s.errorsIn addr n then some (s.meetErrorOf p 0 t)
    else (if p.current then s.sliceVisit (p.home addr) t true else some s).map fun s => s.homeWrite p t n 0 (bytesNat bytes) s.hostWriter
  | none, none => some (if isHost addr ∧ !s.bridge.any (fun h => h.1 == addr / 64 * 64) then s.writeMem none true addr n (bytesNat bytes) else s)
/-- CXL_MEM_WRITE, line by line, once they are at hand; what is refused is dropped. At an address of host memory it stands for what the host itself writes
there, which it does only to halves that the bridge does not hold (R429, assumption 86). -/
def execCxlMemWrite (addr : Nat) (bytes : List Byte) (s : State) : Host.Outcome State Fault Refusal :=
  .next (((List.range (bytes.length / 64 + 2)).foldl (fun (s : Option State) i =>
    let lo := if i = 0 then 0 else 64 * i - addr % 64
    let part := (bytes.drop lo).take (if i = 0 then 64 - addr % 64 else 64)
    if part.isEmpty then s else s.bind fun s => s.hostLine (addr + lo) part) (some s)).getD s)

/-- HOST_SNOOP of a half: modified data go back, and the half falls to S or I. -/
def execHostSnoop (addr : Nat) (inval : Bool) (s : State) : Host.Outcome State Fault Refusal :=
  .next (let half := addr / 64 * 64
    match s.bridge.find? fun h => h.1 == half with
    | none => s
    | some (_, st) =>
      let rest := s.bridge.filter fun h => h.1 != half
      let data := (List.range 64).map fun i => readByte s.mem (half + i)
      { s with bridge := if inval then rest else (half, .shared) :: rest
               out := if st = .modified then s.out ++ [.hostData half data] else s.out })

end Sys2Proof.Machine
end

