-- ==== Sys2Proof/Machine/Agenda.lean ====
section
/-! DEFINITION. Which move comes next (assumption 1). The agenda names moves; with none named, the first step of another agent that would
change anything is taken, else the strands issue in turn, else a cycle passes. And a slot placed where the next step fetches it
(assumption 10). -/

namespace Sys2Proof.Machine

/-! ### Steps that may be due -/

/-- A step of some agent. -/
abbrev DueStep := State → Host.Outcome State Fault Refusal
/-- Answers and homes. -/
def duePort (s : State) : List DueStep :=
  (s.net.map fun r =>
      if r.done then (if r.writes then execStoreAck r.id else execLoadReturn r.id)
      else if r.kind.isAtomic && r.target.leaf.plc.isHostly then execAtomicProxy r.id
      else if r.writes then execHomeWrite r.id else execHomeRead r.id)
    ++ s.walks.map (fun w => execPageWalk w.cluster w.cix (BitVec.ofNat 64 (w.page * 2 ^ 16))) ++ s.wakes.map (fun w => execWake w.id) ++ s.posts.map (fun p => execCellOperation p.id)
    ++ ((s.slices.map fun x => x.misses.map fun m => execHbmMissReturn x.loc m.1).flatten)
    ++ ((s.slices.filter fun x => !x.backs.isEmpty).map fun x => execWritebackDrain x.loc)
    ++ ((s.ports.filter fun p => !p.waiting.isEmpty).map fun p => execPacketForward p.n) ++ s.mill.map fun c => execMillMergeForward c.line
/-- Units: vector, matrix and copy. -/
def dueUnits (s : State) : List DueStep :=
  ((s.strands.filter fun t => !t.vq.isEmpty).map fun t => execVectorCommandRun (coreHalf t.place))
    ++ ((s.strands.filter fun t => t.tq.any TileCommand.running).map fun t => execTileCommandRetire t.place)
    ++ ((s.strands.filter fun t => !t.tq.isEmpty).map fun t => execTileCommandStart (coreCluster t.place))
    ++ ((s.jobs.filter fun j => j.st == .queued).map fun j => execCopyJobStart (coreCluster j.place))
    ++ ((s.jobs.filter fun j => j.st == .running).map fun j => [execCopyChunk j.n 0, execCopyJobDone j.n]).flatten
/-- Pages being unsealed, of the parts that run. -/
def duePages (s : State) : List DueStep :=
  let leaves := ((s.parts.filter Part.serves).map fun p => s.leaves p).flatten.filter fun l => decide (l.st = .unsealing)
  ((s.slices.map fun x => (x.replicas.filter fun q => leaves.any fun l => l.entry == q.entry).map fun q => execReplicaDrop x.loc q.line).flatten)
    ++ leaves.map fun l => execUnsealComplete l.entry
/-- Cycles between the ends of scrub passes that the model takes by itself: within the bound of R440. -/
def scrubGap : Nat := 2 ^ 20
/-- The scheduler of a part, its resolves, its foreman's records, and the management processor. -/
def duePart (s : State) (p : Part) : List DueStep :=
  let gs := s.groups.filter fun g => g.id.cix == p.cix
  (if p.double.isSome then [execDouble p.cix] else [])
    ++ (p.resolves.map fun r => (p.sites.map fun n => execResolveApply p.cix r.rid n) ++ [execResolveComplete p.cix r.rid]).flatten
    ++ ((s.invs.filter fun v => v.cix == p.cix).map fun v => p.sites.map fun n => execTlbInvSiteAck v.n s.mid n).flatten
    ++ (p.queues.map fun q => [execReplenishment p.cix q.lqi, execOverrun p.cix q.lqi, execLaunchTake p.cix q.lqi]).flatten
    ++ ((p.kernels.filter fun k => k.st != .loaded).map fun k => execKernelLoad p.cix k.kimg)
    ++ (gs.map fun g => [execSaveComplete g.id, execSwap g.id] ++ (if g.reserve.isNone then [execSaveRetry g.id] else [])
          ++ (s.groupStrands g.id).map fun t => execGraceExpiry t.id).flatten
    ++ (p.launches.map fun l => [execLaunchEnd p.cix l.lid, execQuiescenceSweep p.cix l.lid]).flatten
    ++ [execGroupPlace p.cix, execStopDrainComplete p.cix, execScrubComplete p.cix, execTimeShareSwitch p.cix]
    ++ (match p.draining with
      | some n => [execRetirementDrainComplete n]
      | none => [])
    ++ (if s.clk.toNat % scrubGap = 0 ∧ (p.hyps.any (fun e => e.resolved && e.st != .free) ∨ p.sweeps ≠ []) then p.clusters.map execScrubPassEnd else [])
/-- All of them, in the order in which the model tries them. -/
def State.due (s : State) : List DueStep :=
  duePort s ++ dueUnits s ++ s.records.map (fun d => execFaultRecordDelivery d.id) ++ duePages s ++ (s.parts.map (duePart s)).flatten

/-- The state after the first of a list of steps that changes anything. -/
def firstChange (s : State) : List DueStep → Option State
  | [] => none
  | m :: rest => match m s with
    | .next t => if t = s then firstChange s rest else some t
    | _ => firstChange s rest
/-- The strand whose turn it is: the first of the others that issues, else the issuing one. -/
def State.takeTurn (s : State) : State :=
  match s.others.find? Strand.issues with
  | none => s
  | some t => { s with cur := t, others := (s.others.filter fun u => decide (u.id ≠ t.id)) ++ [s.cur] }
/-- The move when the agenda names none. -/
def freeMove (run : Run) (s : State) : Host.Outcome State Fault Refusal :=
  match firstChange s s.due with
  | some t => .next t
  | none =>
    let t := s.takeTurn
    if t.cur.issues then issueStrand run t.cur.id t else .next (s.advance 1)
/-- One move. A slot instruction stands in no agenda: it issues from a line. -/
def nextMove (run : Run) (s : State) : Host.Outcome State Fault Refusal :=
  match s.agenda with
  | [] => freeMove run s
  | .issue id :: rest => issueStrand run id { s with agenda := rest }
  | .act i :: rest => if (payloadOf i).isNone then run i { s with agenda := rest } else .next { s with agenda := rest }
  | .tick n :: rest => .next (({ s with agenda := rest } : State).advance n)

/-! ### A slot placed for the next step (assumption 10) -/

/-- A line whose slot 0 is given and whose other slots are zero, with its parity. -/
def lineWith (w : SlotBits) : LineBits :=
  let body : LineBits := (w.setWidth 512) <<< 32
  let sp : Nat := (regMask 15 fun k => parityBit 32 (body.extractLsb' (32 + 32 * k) 32).toNat).toNat
  let word : BitVec 32 := BitVec.ofNat 32 (1 + sp * 2 ^ 16 + (if parityBit 16 1 then 2 ^ 31 else 0))
  body ||| word.setWidth 512
def placedStrand : StrandId := { grp := { cix := 1, lid := 1, lgi := 0 }, sidx := 0 }
/-- A sealed executable page of HBM at virtual address 0. -/
def placedLeaf (mid : Nat) : Leaf :=
  { vbase := 0, bits := 16, mid := mid, frame := 0, hsh := false, wa := false, evp := 0, hyp := false, repl := false, sealable := true
    sync := false, plc := .hbmCached, x := true, w := false, st := .sealed, sgen := 0, entry := 0x10000 }
/-- A part in RUN that owns site 0 and the first GiB of HBM, a strand of it in RUN at PC 0, the line there, and that strand's issue next. -/
def State.placeSlot (s : State) (w : SlotBits) : State :=
  let c : CoreLoc := { site := 0, cluster := 0, core := 1 }
  let s := s.putPart { blankPart 1 s.mid with st := .run, csite := 1, chbm := (Vector.replicate 8 (0 : Word64)).set 0 (BitVec.ofNat 64 (2 ^ 48)) }
  { s with cur := Strand.blank placedStrand c, others := s.others.filter fun t => decide (t.id ≠ placedStrand)
           mem := writeNat s.mem 0 (lineWith w).toNat 64, badLines := s.badLines.filter fun a => a != 0
           versions := s.versions.filter (fun v => v.cix != 1 || v.line != 0), keys := s.keys.filter fun k => k.1 != 0
           tlb := { cluster := coreCluster c, cix := 1, leaf := placedLeaf s.mid } :: s.tlb
           agenda := [.issue placedStrand], opnd := none }

end Sys2Proof.Machine
end

