-- ==== Sys2Proof/Machine/Scalar.lean ====
section
/-! DEFINITION. The scalar integer instructions (spec/06_scalar.md R121-R126): one meaning for each, over the width rule of R121 and the
results of R122-R124. -/

namespace Sys2Proof.Machine

/-! ### Results of R122, on w-bit readings -/

def aluAdd (_w a b : Nat) : Nat := a + b
def aluSub (w a b : Nat) : Nat := a + 2 ^ w - b
def aluMul (_w a b : Nat) : Nat := a * b
def aluMulh (w a b : Nat) : Nat := a * b / 2 ^ w
def aluMulhs (w a b : Nat) : Nat := ofSigned w ((toSigned w a * toSigned w b).fdiv (2 ^ w))
def aluAnd (_w a b : Nat) : Nat := a &&& b
def aluOr (_w a b : Nat) : Nat := a ||| b
def aluXor (_w a b : Nat) : Nat := a ^^^ b
def aluAndn (w a b : Nat) : Nat := a &&& (2 ^ w - 1 - b)
def aluOrn (w a b : Nat) : Nat := a ||| (2 ^ w - 1 - b)
def aluShl (w a b : Nat) : Nat := a * 2 ^ (b % w)
def aluShr (w a b : Nat) : Nat := a / 2 ^ (b % w)
def aluShra (w a b : Nat) : Nat := ofSigned w ((toSigned w a).fdiv (2 ^ (b % w)))
def aluRor (w a b : Nat) : Nat := a / 2 ^ (b % w) + a * 2 ^ (w - b % w)
def aluMin (_w a b : Nat) : Nat := if b < a then b else a
def aluMax (_w a b : Nat) : Nat := if a < b then b else a
def aluMins (w a b : Nat) : Nat := if toSigned w b < toSigned w a then b else a
def aluMaxs (w a b : Nat) : Nat := if toSigned w a < toSigned w b then b else a
/-- DIV, DIVS, REM and REMS with b = 0 give all ones or a (R123). -/
def aluDiv (w a b : Nat) : Nat := if b = 0 then 2 ^ w - 1 else a / b
def aluDivs (w a b : Nat) : Nat := if b = 0 then 2 ^ w - 1 else ofSigned w ((toSigned w a).tdiv (toSigned w b))
def aluRem (_w a b : Nat) : Nat := if b = 0 then a else a % b
def aluRems (w a b : Nat) : Nat := if b = 0 then a else ofSigned w ((toSigned w a).tmod (toSigned w b))
/-- Leading zeros in w bits. -/
def aluClz (w a : Nat) : Nat := if a = 0 then w else w - 1 - Nat.log2 a
/-- Trailing zeros in w bits; fuel is w. -/
def countTrailing : Nat → Nat → Nat
  | 0, _ => 0
  | fuel + 1, a => if a % 2 = 1 then 0 else 1 + countTrailing fuel (a / 2)
def aluCtz (w a : Nat) : Nat := countTrailing w a
def aluPopc (w a : Nat) : Nat := countLanes (fun i => a.testBit i) w
def aluBrev (w a : Nat) : Nat := packLanes 1 (fun i => laneOf 1 a (w - 1 - i)) w
def aluBswap (w a : Nat) : Nat := packLanes 8 (fun i => laneOf 8 a (w / 8 - 1 - i)) (w / 8)

/-- A w-bit result as 64 bits: sign-extended in the signed forms, zero-extended in the others (R121). -/
def extendResult (sgn : Bool) (w r : Nat) : Word64 :=
  let x := r % 2 ^ w
  if sgn then BitVec.ofInt 64 (toSigned w x) else BitVec.ofNat 64 x

/-- G(GD) of a two-operand form: op at the width of W on G(GA) and b. -/
def aluValue (op : Nat → Nat → Nat → Nat) (sgn : Bool) (f : FormA) (s : State) (b : Word64) : Word64 :=
  let w := widthBits f.w
  extendResult sgn w (op w (lowBits w (s.rdG f.ga)) (lowBits w b))
/-- A two-operand form with its second operand given. -/
def alu (op : Nat → Nat → Nat → Nat) (sgn : Bool) (f : FormA) (b : State → Word64) (s : State) : Host.Outcome State Fault Refusal :=
  issue f.grd s fun s => s.putG f.gd (aluValue op sgn f s (b s))
/-- A division: SSW.DZ is set when the divisor is 0 (R123). -/
def aluDivision (op : Nat → Nat → Nat → Nat) (sgn : Bool) (f : FormA) (b : State → Word64) (s : State) : Host.Outcome State Fault Refusal :=
  issue f.grd s fun s =>
    let t := s.putG f.gd (aluValue op sgn f s (b s))
    if lowBits (widthBits f.w) (b s) = 0 then t.setDz else t
/-- A one-operand form. -/
def aluUnary (op : Nat → Nat → Nat) (f : FormA) (s : State) : Host.Outcome State Fault Refusal :=
  issue f.grd s fun s =>
    let w := widthBits f.w
    s.putG f.gd (extendResult false w (op w (lowBits w (s.rdG f.ga))))
/-- MADD: the product plus G(GD) at the width (R122). -/
def maddValue (f : FormA) (s : State) (b : Word64) : Word64 :=
  let w := widthBits f.w
  extendResult false w (lowBits w (s.rdG f.ga) * lowBits w b + lowBits w (s.rdG f.gd))
/-- The register operand and the immediate operand (R121). -/
def opReg (f : FormA) (s : State) : Word64 := s.rdG f.gb
def opImm (f : FormA) (_s : State) : Word64 := immWord f.imm

/-- The mask of a bit field (R124): length n, at most 64, at position p. -/
def fieldMask (e : Word64) : Word64 :=
  let n := Nat.min (e.toNat / 2 ^ 8 % 2 ^ 7) 64
  BitVec.ofNat 64 ((2 ^ n - 1) * 2 ^ (e.toNat % 64))
/-- BFX: the field, zero-extended. -/
def fieldExtract (a e : Word64) : Word64 := (a &&& fieldMask e) >>> (e.toNat % 64)
/-- BFI: a inserted into d. -/
def fieldInsert (d a e : Word64) : Word64 := (d &&& ~~~fieldMask e) ||| ((a <<< (e.toNat % 64)) &&& fieldMask e)

/-- ADD (R122). -/
def execAdd (f : FormA) (s : State) : Host.Outcome State Fault Refusal := alu aluAdd false f (opReg f) s
/-- ADDI (R122). -/
def execAddi (f : FormA) (s : State) : Host.Outcome State Fault Refusal := alu aluAdd false f (opImm f) s
/-- SUB (R122). -/
def execSub (f : FormA) (s : State) : Host.Outcome State Fault Refusal := alu aluSub false f (opReg f) s
/-- SUB_IMM (R122). -/
def execSubImm (f : FormA) (s : State) : Host.Outcome State Fault Refusal := alu aluSub false f (opImm f) s
/-- MUL (R122). -/
def execMul (f : FormA) (s : State) : Host.Outcome State Fault Refusal := alu aluMul false f (opReg f) s
/-- MUL_IMM (R122). -/
def execMulImm (f : FormA) (s : State) : Host.Outcome State Fault Refusal := alu aluMul false f (opImm f) s
/-- MULH (R122). -/
def execMulh (f : FormA) (s : State) : Host.Outcome State Fault Refusal := alu aluMulh false f (opReg f) s
/-- MULH_IMM (R122). -/
def execMulhImm (f : FormA) (s : State) : Host.Outcome State Fault Refusal := alu aluMulh false f (opImm f) s
/-- MULHS (R122). -/
def execMulhs (f : FormA) (s : State) : Host.Outcome State Fault Refusal := alu aluMulhs true f (opReg f) s
/-- MULHS_IMM (R122). -/
def execMulhsImm (f : FormA) (s : State) : Host.Outcome State Fault Refusal := alu aluMulhs true f (opImm f) s
/-- AND (R122). -/
def execAnd (f : FormA) (s : State) : Host.Outcome State Fault Refusal := alu aluAnd false f (opReg f) s
/-- AND_IMM (R122). -/
def execAndImm (f : FormA) (s : State) : Host.Outcome State Fault Refusal := alu aluAnd false f (opImm f) s
/-- OR (R122). -/
def execOr (f : FormA) (s : State) : Host.Outcome State Fault Refusal := alu aluOr false f (opReg f) s
/-- OR_IMM (R122). -/
def execOrImm (f : FormA) (s : State) : Host.Outcome State Fault Refusal := alu aluOr false f (opImm f) s
/-- XOR (R122). -/
def execXor (f : FormA) (s : State) : Host.Outcome State Fault Refusal := alu aluXor false f (opReg f) s
/-- XOR_IMM (R122). -/
def execXorImm (f : FormA) (s : State) : Host.Outcome State Fault Refusal := alu aluXor false f (opImm f) s
/-- ANDN (R122). -/
def execAndn (f : FormA) (s : State) : Host.Outcome State Fault Refusal := alu aluAndn false f (opReg f) s
/-- ANDN_IMM (R122). -/
def execAndnImm (f : FormA) (s : State) : Host.Outcome State Fault Refusal := alu aluAndn false f (opImm f) s
/-- ORN (R122). -/
def execOrn (f : FormA) (s : State) : Host.Outcome State Fault Refusal := alu aluOrn false f (opReg f) s
/-- ORN_IMM (R122). -/
def execOrnImm (f : FormA) (s : State) : Host.Outcome State Fault Refusal := alu aluOrn false f (opImm f) s
/-- SHL (R122). -/
def execShl (f : FormA) (s : State) : Host.Outcome State Fault Refusal := alu aluShl false f (opReg f) s
/-- SHL_IMM (R122). -/
def execShlImm (f : FormA) (s : State) : Host.Outcome State Fault Refusal := alu aluShl false f (opImm f) s
/-- SHR (R122). -/
def execShr (f : FormA) (s : State) : Host.Outcome State Fault Refusal := alu aluShr false f (opReg f) s
/-- SHR_IMM (R122). -/
def execShrImm (f : FormA) (s : State) : Host.Outcome State Fault Refusal := alu aluShr false f (opImm f) s
/-- SHRA (R122). -/
def execShra (f : FormA) (s : State) : Host.Outcome State Fault Refusal := alu aluShra true f (opReg f) s
/-- SHRA_IMM (R122). -/
def execShraImm (f : FormA) (s : State) : Host.Outcome State Fault Refusal := alu aluShra true f (opImm f) s
/-- ROR (R122). -/
def execRor (f : FormA) (s : State) : Host.Outcome State Fault Refusal := alu aluRor false f (opReg f) s
/-- ROR_IMM (R122). -/
def execRorImm (f : FormA) (s : State) : Host.Outcome State Fault Refusal := alu aluRor false f (opImm f) s
/-- MIN (R122). -/
def execMin (f : FormA) (s : State) : Host.Outcome State Fault Refusal := alu aluMin false f (opReg f) s
/-- MIN_IMM (R122). -/
def execMinImm (f : FormA) (s : State) : Host.Outcome State Fault Refusal := alu aluMin false f (opImm f) s
/-- MAX (R122). -/
def execMax (f : FormA) (s : State) : Host.Outcome State Fault Refusal := alu aluMax false f (opReg f) s
/-- MAX_IMM (R122). -/
def execMaxImm (f : FormA) (s : State) : Host.Outcome State Fault Refusal := alu aluMax false f (opImm f) s
/-- MINS (R122). -/
def execMins (f : FormA) (s : State) : Host.Outcome State Fault Refusal := alu aluMins true f (opReg f) s
/-- MINS_IMM (R122). -/
def execMinsImm (f : FormA) (s : State) : Host.Outcome State Fault Refusal := alu aluMins true f (opImm f) s
/-- MAXS (R122). -/
def execMaxs (f : FormA) (s : State) : Host.Outcome State Fault Refusal := alu aluMaxs true f (opReg f) s
/-- MAXS_IMM (R122). -/
def execMaxsImm (f : FormA) (s : State) : Host.Outcome State Fault Refusal := alu aluMaxs true f (opImm f) s
/-- DIV (R122, R123). -/
def execDiv (f : FormA) (s : State) : Host.Outcome State Fault Refusal := aluDivision aluDiv false f (opReg f) s
/-- DIV_IMM (R122, R123). -/
def execDivImm (f : FormA) (s : State) : Host.Outcome State Fault Refusal := aluDivision aluDiv false f (opImm f) s
/-- DIVS (R122, R123). -/
def execDivs (f : FormA) (s : State) : Host.Outcome State Fault Refusal := aluDivision aluDivs true f (opReg f) s
/-- DIVS_IMM (R122, R123). -/
def execDivsImm (f : FormA) (s : State) : Host.Outcome State Fault Refusal := aluDivision aluDivs true f (opImm f) s
/-- REM (R122, R123). -/
def execRem (f : FormA) (s : State) : Host.Outcome State Fault Refusal := aluDivision aluRem false f (opReg f) s
/-- REM_IMM (R122, R123). -/
def execRemImm (f : FormA) (s : State) : Host.Outcome State Fault Refusal := aluDivision aluRem false f (opImm f) s
/-- REMS (R122, R123). -/
def execRems (f : FormA) (s : State) : Host.Outcome State Fault Refusal := aluDivision aluRems true f (opReg f) s
/-- REMS_IMM (R122, R123). -/
def execRemsImm (f : FormA) (s : State) : Host.Outcome State Fault Refusal := aluDivision aluRems true f (opImm f) s
/-- CLZ (R122). -/
def execClz (f : FormA) (s : State) : Host.Outcome State Fault Refusal := aluUnary aluClz f s
/-- CTZ (R122). -/
def execCtz (f : FormA) (s : State) : Host.Outcome State Fault Refusal := aluUnary aluCtz f s
/-- POPC (R122). -/
def execPopc (f : FormA) (s : State) : Host.Outcome State Fault Refusal := aluUnary aluPopc f s
/-- BREV (R122). -/
def execBrev (f : FormA) (s : State) : Host.Outcome State Fault Refusal := aluUnary aluBrev f s
/-- BSWAP (R122). -/
def execBswap (f : FormA) (s : State) : Host.Outcome State Fault Refusal := aluUnary aluBswap f s
/-- MADD (R122). -/
def execMadd (f : FormA) (s : State) : Host.Outcome State Fault Refusal := issue f.grd s fun s => s.putG f.gd (maddValue f s (s.rdG f.gb))
/-- MADD_IMM (R122). -/
def execMaddImm (f : FormA) (s : State) : Host.Outcome State Fault Refusal := issue f.grd s fun s => s.putG f.gd (maddValue f s (immWord f.imm))
/-- BFX (R124). -/
def execBfx (f : FormA) (s : State) : Host.Outcome State Fault Refusal :=
  issue f.grd s fun s => s.putG f.gd (fieldExtract (s.rdG f.ga) (s.rdG f.gb))
/-- BFX_IMM (R124). -/
def execBfxImm (f : FormA) (s : State) : Host.Outcome State Fault Refusal :=
  issue f.grd s fun s => s.putG f.gd (fieldExtract (s.rdG f.ga) (f.imm.setWidth 64))
/-- BFI (R124). -/
def execBfi (f : FormA) (s : State) : Host.Outcome State Fault Refusal :=
  issue f.grd s fun s => s.putG f.gd (fieldInsert (s.rdG f.gd) (s.rdG f.ga) (s.rdG f.gb))
/-- BFI_IMM (R124). -/
def execBfiImm (f : FormA) (s : State) : Host.Outcome State Fault Refusal :=
  issue f.grd s fun s => s.putG f.gd (fieldInsert (s.rdG f.gd) (s.rdG f.ga) (f.imm.setWidth 64))
/-- CMP (R125). -/
def execCmp (f : FormA) (s : State) : Host.Outcome State Fault Refusal :=
  issue f.grd s fun s => s.putK f.kd (cmpHolds f.cc f.w (s.rdG f.ga) (s.rdG f.gb))
/-- CMPI (R125). -/
def execCmpi (f : FormA) (s : State) : Host.Outcome State Fault Refusal :=
  issue f.grd s fun s => s.putK f.kd (cmpHolds f.cc f.w (s.rdG f.ga) (immWord f.imm))
/-- KOP (R125). -/
def execKop (f : FormA) (s : State) : Host.Outcome State Fault Refusal :=
  issue f.grd s fun s => s.putK f.kd (boolOp f.cc.toNat (s.rdK f.ka) (s.rdK f.kb))
/-- SEL (R125). -/
def execSel (f : FormA) (s : State) : Host.Outcome State Fault Refusal :=
  issue f.grd s fun s => s.putG f.gd (if s.rdK f.ka then s.rdG f.ga else s.rdG f.gb)
/-- LEA (R126): the register form. -/
def execLea (f : FormA) (s : State) : Host.Outcome State Fault Refusal :=
  issue f.grd s fun s => s.putG f.gd (s.rdG f.ga + (s.rdG f.gb <<< f.imm.toNat))
/-- The address of the line a PC lies in (R126). -/
def lineAddr (pc : BitVec 56) : Word64 := (pc &&& ~~~(7 : BitVec 56)).setWidth 64
/-- LEA_PC (R126): the PC-relative form. -/
def execLeaPc (f : FormA) (s : State) : Host.Outcome State Fault Refusal :=
  issue f.grd s fun s => s.putG f.gd (lineAddr s.cur.pc + s.rdG f.ga + immWord f.imm)
/-- MOVI (R126). -/
def execMovi (f : FormI) (s : State) : Host.Outcome State Fault Refusal := issue f.grd s fun s => s.putG f.gd (f.imm.signExtend 64)
/-- MOVH (R126): the top 16 bits. -/
def execMovh (f : FormI) (s : State) : Host.Outcome State Fault Refusal :=
  issue f.grd s fun s => s.putG f.gd (((f.imm.setWidth 64) <<< 48) ||| ((s.rdG f.gd).setWidth 48).setWidth 64)

end Sys2Proof.Machine
end

