-- ==== Sys2Proof/Machine/ScalarFp.lean ====
section
/-! DEFINITION. The scalar FP32 instructions and the full/empty registers (spec/06_scalar.md R127-R132). -/

namespace Sys2Proof.Machine

/-- The low 32 bits of a register as an FP32 value (R127). -/
def fpVal (x : Word64) : FloatVal := decodeFloat fp32Format (lowBits 32 x)
/-- A rounded FP32 result written, with its flags (R127). -/
def State.putFloat (s : State) (n : BitVec 6) (r : Nat × FloatFlags) : State := ((s.wrG n (BitVec.ofNat 64 r.1)).raiseFlags r.2).done

/-- FADD (R128). -/
def execFadd (f : FormA) (s : State) : Host.Outcome State Fault Refusal :=
  issue f.grd s fun s => s.putFloat f.gd (roundTo fp32Format f.rm false 0 (exactAdd f.rm (fpVal (s.rdG f.ga)) (fpVal (s.rdG f.gb))))
/-- FSUB (R128). -/
def execFsub (f : FormA) (s : State) : Host.Outcome State Fault Refusal :=
  issue f.grd s fun s => s.putFloat f.gd (roundTo fp32Format f.rm false 0 (exactAdd f.rm (fpVal (s.rdG f.ga)) (fpVal (s.rdG f.gb)).negate))
/-- FMUL (R128). -/
def execFmul (f : FormA) (s : State) : Host.Outcome State Fault Refusal :=
  issue f.grd s fun s => s.putFloat f.gd (roundTo fp32Format f.rm false 0 (exactMul (fpVal (s.rdG f.ga)) (fpVal (s.rdG f.gb))))
/-- FFMA (R128): the third operand is G(GD). -/
def execFfma (f : FormA) (s : State) : Host.Outcome State Fault Refusal :=
  issue f.grd s fun s =>
    s.putFloat f.gd (roundTo fp32Format f.rm false 0 (exactFma f.rm (fpVal (s.rdG f.ga)) (fpVal (s.rdG f.gb)) (fpVal (s.rdG f.gd))))
/-- FDIV (R128). -/
def execFdiv (f : FormA) (s : State) : Host.Outcome State Fault Refusal :=
  issue f.grd s fun s => s.putFloat f.gd (roundTo fp32Format f.rm false 0 (exactDiv (fpVal (s.rdG f.ga)) (fpVal (s.rdG f.gb))))
/-- FSQRT (R128). -/
def execFsqrt (f : FormA) (s : State) : Host.Outcome State Fault Refusal :=
  issue f.grd s fun s => s.putFloat f.gd (roundTo fp32Format f.rm false 0 (exactSqrt (fpVal (s.rdG f.ga))))
/-- FMIN (R129). -/
def execFmin (f : FormA) (s : State) : Host.Outcome State Fault Refusal :=
  issue f.grd s fun s => s.putFloat f.gd (floatMinMax fp32Format false (lowBits 32 (s.rdG f.ga)) (lowBits 32 (s.rdG f.gb)), 0)
/-- FMAX (R129). -/
def execFmax (f : FormA) (s : State) : Host.Outcome State Fault Refusal :=
  issue f.grd s fun s => s.putFloat f.gd (floatMinMax fp32Format true (lowBits 32 (s.rdG f.ga)) (lowBits 32 (s.rdG f.gb)), 0)
/-- FCMP (R129). -/
def execFcmp (f : FormA) (s : State) : Host.Outcome State Fault Refusal :=
  issue f.grd s fun s =>
    let r := fcmpHolds f.cc (s.rdG f.ga) (s.rdG f.gb)
    ((s.wrK f.kd r.1).raiseFlags r.2).done
/-- FCVT by its code (R130): the value written and its flags. -/
def fcvtValue (code : Nat) (rm : Rm) (a : Word64) : Word64 × FloatFlags :=
  let toInt := fun w : Nat =>
    let r := floatToInt rm 0 (-(2 ^ (w - 1))) (2 ^ (w - 1) - 1) (fpVal a)
    (BitVec.ofInt 64 r.1, r.2)
  let word := fun r : Nat × FloatFlags => (BitVec.ofNat 64 r.1, r.2)
  match code with
  | 0 => toInt 32
  | 1 => toInt 64
  | 2 => word (roundTo fp32Format rm false 0 (intVal (toSigned 32 (lowBits 32 a))).exactly)
  | 3 => word (roundTo fp32Format rm false 0 (intVal (toSigned 64 a.toNat)).exactly)
  | 4 => word (convertFloat fp32Format bf16Format rm false 0 (lowBits 32 a))
  | 5 => word (convertFloat bf16Format fp32Format rm false 0 (lowBits 16 a))
  | 6 => word (convertFloat fp32Format fp16Format rm false 0 (lowBits 32 a))
  | _ => word (convertFloat fp16Format fp32Format rm false 0 (lowBits 16 a))
/-- FCVT (R130). -/
def execFcvt (f : FormA) (s : State) : Host.Outcome State Fault Refusal :=
  issue f.grd s fun s =>
    let r := fcvtValue f.imm.toNat f.rm (s.rdG f.ga)
    ((s.wrG f.gd r.1).raiseFlags r.2).done
/-- The class of an FP32 value as a bit number (R131). -/
def fclassBit (v : FloatVal) : Nat :=
  match v with
  | .nan => 8
  | .inf n => if n then 0 else 7
  | .fin n m e =>
    if m = 0 then (if n then 3 else 4)
    else if m < 2 ^ 23 ∧ e = -149 then (if n then 2 else 5)
    else if n then 1 else 6
/-- FCLASS (R131). -/
def execFclass (f : FormA) (s : State) : Host.Outcome State Fault Refusal :=
  issue f.grd s fun s =>
    let b := fclassBit (fpVal (s.rdG f.ga))
    ((s.wrG f.gd (BitVec.ofNat 64 (2 ^ b))).wrK f.kd (f.imm.getLsbD b)).done
/-- FSGN's result (R128). -/
def fsgnValue (op : Nat) (a b : Word64) : Word64 :=
  let sa := a.getLsbD 31
  let sb := b.getLsbD 31
  let n := match op with
    | 0 => sb
    | 1 => !sb
    | _ => sa ^^ sb
  if (fpVal a).isNan then BitVec.ofNat 64 fp32Format.nan else BitVec.ofNat 64 (fp32Format.signed n (lowBits 31 a))
/-- FSGN (R128). -/
def execFsgn (f : FormA) (s : State) : Host.Outcome State Fault Refusal :=
  issue f.grd s fun s => s.putG f.gd (fsgnValue f.imm.toNat (s.rdG f.ga) (s.rdG f.gb))

/-! ### Full/empty (R107, R132) -/

/-- FGET: stalls while producers are pending; reads and empties a FULL register; with none pending and nothing arrived, reads the value and
sets SSW.FU. In a pair it reads the register as it was before the group (R37); a result of the group's first slot stays to be read. -/
def execFget (f : FormA) (s : State) : Host.Outcome State Fault Refusal :=
  issue f.grd s fun s =>
    let n := f.imm.toNat
    let r := s.src.f' n
    let now := s.cur.f' n
    if r.producers.isEmpty = false then s.stall
    else if r.arrived then
      let t := s.wrG f.gd r.value
      { t with cur := t.cur.setF n { now with arrived := false } }.done
    else (s.wrG f.gd r.value).setFu.done
/-- FPEEK: the value and whether the register is FULL; changes neither. -/
def execFpeek (f : FormA) (s : State) : Host.Outcome State Fault Refusal :=
  issue f.grd s fun s =>
    let r := s.src.f' f.imm.toNat
    ((s.wrG f.gd r.value).wrK f.kd r.full).done

end Sys2Proof.Machine
end

