-- ==== Sys2Proof/Machine/System.lean ====
section
/-! DEFINITION. System registers and geometry (spec/05_strand.md R91-R95, R102; spec/06_scalar.md R133-R136; spec/18_group.md R339). -/

namespace Sys2Proof.Machine

/-- A queued vector or tile command of the issuing strand has not retired (R93). -/
def State.drained (s : State) : Bool := s.cur.vq.isEmpty && s.cur.tq.isEmpty

def State.launchQueue? (s : State) (lqi : Nat) : Option LaunchQueue := (s.part? s.cix).bind fun p => p.queues.find? fun q => q.lqi == lqi
/-- HMAP word n: the masks of module clusters 8n to 8n + 7 (R56). -/
def State.hmapWord (s : State) (n : Nat) : Word64 :=
  BitVec.ofNat 64 ((List.range 8).foldl (fun x b => x + ((s.hmap[8 * n + b]?).getD 0).toNat * 256 ^ b) 0)
/-- An LMAP entry (R339); 0xFFFF beyond the last logical core. -/
def lmapEntry (cores : List CoreLoc) (j : Nat) : Nat :=
  match cores[j]? with
  | some c => c.site * 256 + c.cluster * 8 + c.core
  | none => 0xFFFF
def State.lmapWord (s : State) (n : Nat) : Word64 :=
  let cores := ((s.part? s.cix).map Part.logical).getD []
  BitVec.ofNat 64 ((List.range 4).foldl (fun x i => x + lmapEntry cores (4 * n + i) * 65536 ^ i) 0)

/-- The value SRD reads (R56, R91); none when the selector names nothing here. -/
def State.sysRead (s : State) (sel : Nat) (imm : BitVec 32) : Option Word64 :=
  match sel with
  | 1 => some s.cur.ssw
  | 2 => some (if imm.getLsbD 0 then s.cur.ggr1 else s.cur.ggr0)
  | 3 => some (s.cur.hcur.setWidth 64)
  | 4 => some s.cur.rbud
  | 5 => some (s.cur.vflags.setWidth 64)
  | 6 => some (s.cur.seqTag.setWidth 64)
  | 7 => some (((s.part? s.cix).map Part.swapt).getD 0)
  | 8 => (s.launchQueue? imm.toNat).map LaunchQueue.period
  | 9 => (s.launchQueue? imm.toNat).map LaunchQueue.budget
  | 10 => (s.launchQueue? imm.toNat).map LaunchQueue.deadline
  | 11 => (s.launchQueue? imm.toNat).map LaunchQueue.remain
  | 12 => some s.clk
  | 13 => some s.cur.luta
  | 14 => some s.cur.lutb
  | n => if 0x100 ≤ n ∧ n ≤ 0x14F then some (s.hmapWord (n - 0x100)) else if 0x800 ≤ n ∧ n ≤ 0xCFF then some (s.lmapWord (n - 0x800)) else none

/-- SRD (R133). -/
def execSrd (f : FormS) (s : State) : Host.Outcome State Fault Refusal := issue f.grd s fun s =>
  match s.sysRead f.sel.toNat f.imm with
  | none => s.raiseCode .illegalOp
  | some v => if f.sel.toNat = 5 ∧ s.drained = false then s.stall else s.putG f.gd v

/-- BUD under R102: at most 48, no smaller than HELD, and the half's sum at most 144. -/
def State.setBudget (s : State) (x : Word64) : State :=
  let n := x.toNat % 64
  if 48 < n ∨ n < s.cur.heldCount ∨ 144 < s.budSum (coreHalf s.cur.place) - s.cur.bud + n then
    s.raise { code := .regBudget, addr := 0, info := BitVec.ofNat 64 (s.cur.bud * 256) }
  else { s with cur := { s.cur with bud := n } }.done
/-- A scheduler register of a launch queue, for the foreman alone (R320). -/
def State.setQueueReg (s : State) (lqi : Nat) (ok : Bool) (g : LaunchQueue → LaunchQueue) : State :=
  if s.cur.fmn = false ∨ (s.launchQueue? lqi).isNone ∨ ok = false then s.raiseCode .illegalOp
  else (s.updPart s.cix fun p => { p with queues := p.queues.map fun q => if q.lqi = lqi then g q else q }).done

/-- SWR (R133, R91): reserved bits are ignored; what R91 forbids faults. -/
def sysWrite (s : State) (sel : Nat) (imm : BitVec 32) (x : Word64) : State :=
  match sel with
  | 1 => { s with cur := { s.cur with fu := s.cur.fu && !x.getLsbD 3, rsm := s.cur.rsm && !x.getLsbD 2, dz := s.cur.dz && !x.getLsbD 0 } }.done
  | 4 => s.setBudget x
  | 5 => if s.drained = false then s.stall else { s with cur := { s.cur with vflags := x.setWidth 6 } }.done
  | 7 => if s.cur.fmn then (s.updPart s.cix fun p => { p with swapt := (x.setWidth 32).setWidth 64 }).done else s.raiseCode .illegalOp
  | 8 => s.setQueueReg imm.toNat (decide (1100 ≤ fieldNat x 0 40)) fun q => { q with period := (x.setWidth 40).setWidth 64 }
  | 9 => s.setQueueReg imm.toNat true fun q => { q with budget := (x.setWidth 32).setWidth 64 }
  | 13 => { s with cur := { s.cur with luta := x } }.done
  | 14 => { s with cur := { s.cur with lutb := x } }.done
  | _ => s.raiseCode .illegalOp
def execSwr (f : FormS) (s : State) : Host.Outcome State Fault Refusal := issue f.grd s fun s => sysWrite s f.sel.toNat f.imm (s.rdG f.gd)

/-- GEO (R134). -/
def geoValue (t : Strand) : Nat → Nat
  | 0 => t.gx.toNat
  | 1 => t.gy.toNat
  | 2 => t.gz.toNat
  | 3 => t.nx.toNat
  | 4 => t.ny.toNat
  | 5 => t.nz.toNat
  | 6 => t.id.sidx
  | 7 => t.scnt
  | 8 => t.groupIndex
  | 9 => t.strandIndex
  | _ => t.groupCount
def execGeo (f : FormS) (s : State) : Host.Outcome State Fault Refusal := issue f.grd s fun s =>
  if f.imm.toNat ≤ 10 then s.putG f.gd (BitVec.ofNat 64 (geoValue s.cur f.imm.toNat)) else s.raiseCode .illegalOp

/-- CLK (R135). -/
def execClk (f : FormS) (s : State) : Host.Outcome State Fault Refusal := issue f.grd s fun s => s.putG f.gd s.clk

/-- The first place of an element in a list. -/
def placeOf {α : Type} [DecidableEq α] (x : α) : List α → Nat → Option Nat
  | [], _ => none
  | y :: rest, i => if x = y then some i else placeOf x rest (i + 1)
/-- ID (R136). -/
def idValue (s : State) : Nat → Nat
  | 0 => if s.cur.fmn then 0xFFFF else (placeOf s.cur.place (((s.part? s.cix).map Part.logical).getD []) 0).getD 0xFFFF
  | 1 => s.cur.place.site * 2 ^ 16 + s.cur.place.cluster * 2 ^ 8 + s.cur.place.core
  | 2 => s.mid
  | 3 => (((s.part? s.cix).map Part.cid).getD 0).toNat % 2 ^ 32
  | _ => if s.cur.fmn then 0 else s.cur.ent
def execId (f : FormS) (s : State) : Host.Outcome State Fault Refusal := issue f.grd s fun s =>
  if f.imm.toNat ≤ 4 then s.putG f.gd (BitVec.ofNat 64 (idValue s f.imm.toNat)) else s.raiseCode .illegalOp

end Sys2Proof.Machine
end

