-- ==== Sys2Proof/Machine/Dispatch.lean ====
section
/-! DEFINITION. The meaning of every row of the opcode table: one arm per constructor of Instr. -/

namespace Sys2Proof.Machine

def exec (i : Instr) (s : State) : Host.Outcome State Fault Refusal :=
  match i with
  | .nop f => Sys2Proof.Machine.execNop f s
  | .br f => Sys2Proof.Machine.execBr f s
  | .bri f => Sys2Proof.Machine.execBri f s
  | .call f => Sys2Proof.Machine.execCall f s
  | .calli f => Sys2Proof.Machine.execCalli f s
  | .ret f => Sys2Proof.Machine.execRet f s
  | .loop f => Sys2Proof.Machine.execLoop f s
  | .lexit f => Sys2Proof.Machine.execLexit f s
  | .exit f => Sys2Proof.Machine.execExit f s
  | .trap f => Sys2Proof.Machine.execTrap f s
  | .brk f => Sys2Proof.Machine.execBrk f s
  | .prePoint f => Sys2Proof.Machine.execPrePoint f s
  | .yield f => Sys2Proof.Machine.execYield f s
  | .add f => Sys2Proof.Machine.execAdd f s
  | .sub f => Sys2Proof.Machine.execSub f s
  | .mul f => Sys2Proof.Machine.execMul f s
  | .mulh f => Sys2Proof.Machine.execMulh f s
  | .mulhs f => Sys2Proof.Machine.execMulhs f s
  | .div f => Sys2Proof.Machine.execDiv f s
  | .divs f => Sys2Proof.Machine.execDivs f s
  | .rem f => Sys2Proof.Machine.execRem f s
  | .rems f => Sys2Proof.Machine.execRems f s
  | .madd f => Sys2Proof.Machine.execMadd f s
  | .and f => Sys2Proof.Machine.execAnd f s
  | .or f => Sys2Proof.Machine.execOr f s
  | .xor f => Sys2Proof.Machine.execXor f s
  | .andn f => Sys2Proof.Machine.execAndn f s
  | .orn f => Sys2Proof.Machine.execOrn f s
  | .shl f => Sys2Proof.Machine.execShl f s
  | .shr f => Sys2Proof.Machine.execShr f s
  | .shra f => Sys2Proof.Machine.execShra f s
  | .ror f => Sys2Proof.Machine.execRor f s
  | .min f => Sys2Proof.Machine.execMin f s
  | .max f => Sys2Proof.Machine.execMax f s
  | .mins f => Sys2Proof.Machine.execMins f s
  | .maxs f => Sys2Proof.Machine.execMaxs f s
  | .clz f => Sys2Proof.Machine.execClz f s
  | .ctz f => Sys2Proof.Machine.execCtz f s
  | .popc f => Sys2Proof.Machine.execPopc f s
  | .brev f => Sys2Proof.Machine.execBrev f s
  | .bswap f => Sys2Proof.Machine.execBswap f s
  | .bfx f => Sys2Proof.Machine.execBfx f s
  | .bfi f => Sys2Proof.Machine.execBfi f s
  | .cmp f => Sys2Proof.Machine.execCmp f s
  | .kop f => Sys2Proof.Machine.execKop f s
  | .sel f => Sys2Proof.Machine.execSel f s
  | .lea f => Sys2Proof.Machine.execLea f s
  | .addi f => Sys2Proof.Machine.execAddi f s
  | .subImm f => Sys2Proof.Machine.execSubImm f s
  | .mulImm f => Sys2Proof.Machine.execMulImm f s
  | .mulhImm f => Sys2Proof.Machine.execMulhImm f s
  | .mulhsImm f => Sys2Proof.Machine.execMulhsImm f s
  | .divImm f => Sys2Proof.Machine.execDivImm f s
  | .divsImm f => Sys2Proof.Machine.execDivsImm f s
  | .remImm f => Sys2Proof.Machine.execRemImm f s
  | .remsImm f => Sys2Proof.Machine.execRemsImm f s
  | .maddImm f => Sys2Proof.Machine.execMaddImm f s
  | .andImm f => Sys2Proof.Machine.execAndImm f s
  | .orImm f => Sys2Proof.Machine.execOrImm f s
  | .xorImm f => Sys2Proof.Machine.execXorImm f s
  | .andnImm f => Sys2Proof.Machine.execAndnImm f s
  | .ornImm f => Sys2Proof.Machine.execOrnImm f s
  | .shlImm f => Sys2Proof.Machine.execShlImm f s
  | .shrImm f => Sys2Proof.Machine.execShrImm f s
  | .shraImm f => Sys2Proof.Machine.execShraImm f s
  | .rorImm f => Sys2Proof.Machine.execRorImm f s
  | .minImm f => Sys2Proof.Machine.execMinImm f s
  | .maxImm f => Sys2Proof.Machine.execMaxImm f s
  | .minsImm f => Sys2Proof.Machine.execMinsImm f s
  | .maxsImm f => Sys2Proof.Machine.execMaxsImm f s
  | .bfxImm f => Sys2Proof.Machine.execBfxImm f s
  | .bfiImm f => Sys2Proof.Machine.execBfiImm f s
  | .cmpi f => Sys2Proof.Machine.execCmpi f s
  | .leaPc f => Sys2Proof.Machine.execLeaPc f s
  | .movi f => Sys2Proof.Machine.execMovi f s
  | .movh f => Sys2Proof.Machine.execMovh f s
  | .fadd f => Sys2Proof.Machine.execFadd f s
  | .fsub f => Sys2Proof.Machine.execFsub f s
  | .fmul f => Sys2Proof.Machine.execFmul f s
  | .ffma f => Sys2Proof.Machine.execFfma f s
  | .fdiv f => Sys2Proof.Machine.execFdiv f s
  | .fsqrt f => Sys2Proof.Machine.execFsqrt f s
  | .fmin f => Sys2Proof.Machine.execFmin f s
  | .fmax f => Sys2Proof.Machine.execFmax f s
  | .fcmp f => Sys2Proof.Machine.execFcmp f s
  | .fcvt f => Sys2Proof.Machine.execFcvt f s
  | .fclass f => Sys2Proof.Machine.execFclass f s
  | .fsgn f => Sys2Proof.Machine.execFsgn f s
  | .fget f => Sys2Proof.Machine.execFget f s
  | .fpeek f => Sys2Proof.Machine.execFpeek f s
  | .ld f => Sys2Proof.Machine.execLd f s
  | .lds f => Sys2Proof.Machine.execLds f s
  | .st f => Sys2Proof.Machine.execSt f s
  | .atom f => Sys2Proof.Machine.execAtom f s
  | .cas f => Sys2Proof.Machine.execCas f s
  | .pref f => Sys2Proof.Machine.execPref f s
  | .vldg f => Sys2Proof.Machine.execVldg f s
  | .vstg f => Sys2Proof.Machine.execVstg f s
  | .seal f => Sys2Proof.Machine.execSeal f s
  | .unseal f => Sys2Proof.Machine.execUnseal f s
  | .l1inv f => Sys2Proof.Machine.execL1inv f s
  | .l1invAll f => Sys2Proof.Machine.execL1invAll f s
  | .ldl f => Sys2Proof.Machine.execLdl f s
  | .stl f => Sys2Proof.Machine.execStl f s
  | .ldn f => Sys2Proof.Machine.execLdn f s
  | .stn f => Sys2Proof.Machine.execStn f s
  | .vld f => Sys2Proof.Machine.execVld f s
  | .vst f => Sys2Proof.Machine.execVst f s
  | .fence f => Sys2Proof.Machine.execFence f s
  | .fenceXp f => Sys2Proof.Machine.execFenceXp f s
  | .wack f => Sys2Proof.Machine.execWack f s
  | .seq f => Sys2Proof.Machine.execSeq f s
  | .cellInit f => Sys2Proof.Machine.execCellInit f s
  | .cellKill f => Sys2Proof.Machine.execCellKill f s
  | .cellQry f => Sys2Proof.Machine.execCellQry f s
  | .ctrAdd f => Sys2Proof.Machine.execCtrAdd f s
  | .ctrRd f => Sys2Proof.Machine.execCtrRd f s
  | .ctrWge f => Sys2Proof.Machine.execCtrWge f s
  | .barArr f => Sys2Proof.Machine.execBarArr f s
  | .barWt f => Sys2Proof.Machine.execBarWt f s
  | .barArw f => Sys2Proof.Machine.execBarArw f s
  | .barDrop f => Sys2Proof.Machine.execBarDrop f s
  | .barAdj f => Sys2Proof.Machine.execBarAdj f s
  | .lckTake f => Sys2Proof.Machine.execLckTake f s
  | .lckTry f => Sys2Proof.Machine.execLckTry f s
  | .lckGive f => Sys2Proof.Machine.execLckGive f s
  | .cndWait f => Sys2Proof.Machine.execCndWait f s
  | .cndSig f => Sys2Proof.Machine.execCndSig f s
  | .cndAll f => Sys2Proof.Machine.execCndAll f s
  | .qPut f => Sys2Proof.Machine.execQPut f s
  | .qTake f => Sys2Proof.Machine.execQTake f s
  | .qTryput f => Sys2Proof.Machine.execQTryput f s
  | .qTrytake f => Sys2Proof.Machine.execQTrytake f s
  | .qJoin f => Sys2Proof.Machine.execQJoin f s
  | .qJoinGovernor f => Sys2Proof.Machine.execQJoinGovernor f s
  | .qClose f => Sys2Proof.Machine.execQClose f s
  | .vadd f => Sys2Proof.Machine.execVadd f s
  | .vsub f => Sys2Proof.Machine.execVsub f s
  | .vmul f => Sys2Proof.Machine.execVmul f s
  | .vfma f => Sys2Proof.Machine.execVfma f s
  | .vfms f => Sys2Proof.Machine.execVfms f s
  | .vmin f => Sys2Proof.Machine.execVmin f s
  | .vmax f => Sys2Proof.Machine.execVmax f s
  | .vabs f => Sys2Proof.Machine.execVabs f s
  | .vneg f => Sys2Proof.Machine.execVneg f s
  | .vrcp f => Sys2Proof.Machine.execVrcp f s
  | .vrsq f => Sys2Proof.Machine.execVrsq f s
  | .vsqrt f => Sys2Proof.Machine.execVsqrt f s
  | .vexp2 f => Sys2Proof.Machine.execVexp2 f s
  | .vlog2 f => Sys2Proof.Machine.execVlog2 f s
  | .vtanh f => Sys2Proof.Machine.execVtanh f s
  | .viadd f => Sys2Proof.Machine.execViadd f s
  | .visub f => Sys2Proof.Machine.execVisub f s
  | .vimul f => Sys2Proof.Machine.execVimul f s
  | .vand f => Sys2Proof.Machine.execVand f s
  | .vor f => Sys2Proof.Machine.execVor f s
  | .vxor f => Sys2Proof.Machine.execVxor f s
  | .vshl f => Sys2Proof.Machine.execVshl f s
  | .vshr f => Sys2Proof.Machine.execVshr f s
  | .vshra f => Sys2Proof.Machine.execVshra f s
  | .vcmp f => Sys2Proof.Machine.execVcmp f s
  | .vsel f => Sys2Proof.Machine.execVsel f s
  | .mop f => Sys2Proof.Machine.execMop f s
  | .mpop f => Sys2Proof.Machine.execMpop f s
  | .vmov f => Sys2Proof.Machine.execVmov f s
  | .vbcast f => Sys2Proof.Machine.execVbcast f s
  | .vext f => Sys2Proof.Machine.execVext f s
  | .vperm f => Sys2Proof.Machine.execVperm f s
  | .vshuf f => Sys2Proof.Machine.execVshuf f s
  | .vslide f => Sys2Proof.Machine.execVslide f s
  | .vzip f => Sys2Proof.Machine.execVzip f s
  | .vred f => Sys2Proof.Machine.execVred f s
  | .vscan f => Sys2Proof.Machine.execVscan f s
  | .vdot f => Sys2Proof.Machine.execVdot f s
  | .vcvt f => Sys2Proof.Machine.execVcvt f s
  | .vqnt f => Sys2Proof.Machine.execVqnt f s
  | .vdq f => Sys2Proof.Machine.execVdq f s
  | .vlut f => Sys2Proof.Machine.execVlut f s
  | .vmac f => Sys2Proof.Machine.execVmac f s
  | .vclamp f => Sys2Proof.Machine.execVclamp f s
  | .vectorCommandRun u => Sys2Proof.Machine.execVectorCommandRun u s
  | .mma f => Sys2Proof.Machine.execMma f s
  | .mmaz f => Sys2Proof.Machine.execMmaz f s
  | .mzero f => Sys2Proof.Machine.execMzero f s
  | .movc f => Sys2Proof.Machine.execMovc f s
  | .movcv f => Sys2Proof.Machine.execMovcv f s
  | .mdesc f => Sys2Proof.Machine.execMdesc f s
  | .mgeo f => Sys2Proof.Machine.execMgeo f s
  | .lutld f => Sys2Proof.Machine.execLutld f s
  | .mwait f => Sys2Proof.Machine.execMwait f s
  | .mwt f => Sys2Proof.Machine.execMwt f s
  | .tileCommandStart u => Sys2Proof.Machine.execTileCommandStart u s
  | .tileCommandRetire core => Sys2Proof.Machine.execTileCommandRetire core s
  | .cpy f => Sys2Proof.Machine.execCpy f s
  | .cpyc f => Sys2Proof.Machine.execCpyc f s
  | .cpym f => Sys2Proof.Machine.execCpym f s
  | .cpyg f => Sys2Proof.Machine.execCpyg f s
  | .cpys f => Sys2Proof.Machine.execCpys f s
  | .cpyr f => Sys2Proof.Machine.execCpyr f s
  | .cpyq f => Sys2Proof.Machine.execCpyq f s
  | .cpyk f => Sys2Proof.Machine.execCpyk f s
  | .copyJobStart u => Sys2Proof.Machine.execCopyJobStart u s
  | .copyChunk job pick => Sys2Proof.Machine.execCopyChunk job pick s
  | .copyJobDone job => Sys2Proof.Machine.execCopyJobDone job s
  | .hypOpen f => Sys2Proof.Machine.execHypOpen f s
  | .hypEnter f => Sys2Proof.Machine.execHypEnter f s
  | .hypLeave f => Sys2Proof.Machine.execHypLeave f s
  | .hypRsv f => Sys2Proof.Machine.execHypRsv f s
  | .hypQry f => Sys2Proof.Machine.execHypQry f s
  | .resolveApply cix rid site => Sys2Proof.Machine.execResolveApply cix rid site s
  | .resolveComplete cix rid => Sys2Proof.Machine.execResolveComplete cix rid s
  | .scrubPassEnd l => Sys2Proof.Machine.execScrubPassEnd l s
  | .rcpBind f => Sys2Proof.Machine.execRcpBind f s
  | .rcpFree f => Sys2Proof.Machine.execRcpFree f s
  | .rcpDrop f => Sys2Proof.Machine.execRcpDrop f s
  | .rcpAnch f => Sys2Proof.Machine.execRcpAnch f s
  | .rcpQry f => Sys2Proof.Machine.execRcpQry f s
  | .srd f => Sys2Proof.Machine.execSrd f s
  | .swr f => Sys2Proof.Machine.execSwr f s
  | .geo f => Sys2Proof.Machine.execGeo f s
  | .clk f => Sys2Proof.Machine.execClk f s
  | .id f => Sys2Proof.Machine.execId f s
  | .winRd f => Sys2Proof.Machine.execWinRd f s
  | .winWr f => Sys2Proof.Machine.execWinWr f s
  | .grpFrz f => Sys2Proof.Machine.execGrpFrz f s
  | .grpThaw f => Sys2Proof.Machine.execGrpThaw f s
  | .grpKill f => Sys2Proof.Machine.execGrpKill f s
  | .tlbInv f => Sys2Proof.Machine.execTlbInv f s
  | .tlbInvSiteAck n mid site => Sys2Proof.Machine.execTlbInvSiteAck n mid site s
  | .pageWalk cluster cix va => Sys2Proof.Machine.execPageWalk cluster cix va s
  | .homeRead req => Sys2Proof.Machine.execHomeRead req s
  | .homeWrite req => Sys2Proof.Machine.execHomeWrite req s
  | .storeAck req => Sys2Proof.Machine.execStoreAck req s
  | .loadReturn req => Sys2Proof.Machine.execLoadReturn req s
  | .blockingResponse who answer => Sys2Proof.Machine.execBlockingResponse who answer s
  | .writebackDrain l => Sys2Proof.Machine.execWritebackDrain l s
  | .replicaDrop l line => Sys2Proof.Machine.execReplicaDrop l line s
  | .unsealComplete leaf => Sys2Proof.Machine.execUnsealComplete leaf s
  | .cellOperation n => Sys2Proof.Machine.execCellOperation n s
  | .hotLineFill l granule => Sys2Proof.Machine.execHotLineFill l granule s
  | .wake n => Sys2Proof.Machine.execWake n s
  | .hqput cix lqi offset bytes => Sys2Proof.Machine.execHqput cix lqi offset bytes s
  | .hqsRead cix lqi offset => Sys2Proof.Machine.execHqsRead cix lqi offset s
  | .launchTake cix lqi => Sys2Proof.Machine.execLaunchTake cix lqi s
  | .kernelLoad cix kimg => Sys2Proof.Machine.execKernelLoad cix kimg s
  | .groupPlace cix => Sys2Proof.Machine.execGroupPlace cix s
  | .launchEnd cix lid => Sys2Proof.Machine.execLaunchEnd cix lid s
  | .quiescenceSweep cix lid => Sys2Proof.Machine.execQuiescenceSweep cix lid s
  | .replenishment cix lqi => Sys2Proof.Machine.execReplenishment cix lqi s
  | .overrun cix lqi => Sys2Proof.Machine.execOverrun cix lqi s
  | .swap g => Sys2Proof.Machine.execSwap g s
  | .saveComplete g => Sys2Proof.Machine.execSaveComplete g s
  | .graceExpiry who => Sys2Proof.Machine.execGraceExpiry who s
  | .saveRetry g => Sys2Proof.Machine.execSaveRetry g s
  | .faultRecordDelivery r => Sys2Proof.Machine.execFaultRecordDelivery r s
  | .double cix => Sys2Proof.Machine.execDouble cix s
  | .create cix => Sys2Proof.Machine.execCreate cix s
  | .lock cix => Sys2Proof.Machine.execLock cix s
  | .start cix => Sys2Proof.Machine.execStart cix s
  | .stop cix => Sys2Proof.Machine.execStop cix s
  | .release cix => Sys2Proof.Machine.execRelease cix s
  | .invalidCommand cix code => Sys2Proof.Machine.execInvalidCommand cix code s
  | .stopDrainComplete cix => Sys2Proof.Machine.execStopDrainComplete cix s
  | .scrubComplete cix => Sys2Proof.Machine.execScrubComplete cix s
  | .partError cix cause => Sys2Proof.Machine.execPartError cix cause s
  | .registerWrite addr value => Sys2Proof.Machine.execRegisterWrite addr value s
  | .vbndWrite l value => Sys2Proof.Machine.execVbndWrite l value s
  | .lockInterfaceRequest cix => Sys2Proof.Machine.execLockInterfaceRequest cix s
  | .startInterfaceRequest cix => Sys2Proof.Machine.execStartInterfaceRequest cix s
  | .stopInterfaceRequest cix => Sys2Proof.Machine.execStopInterfaceRequest cix s
  | .challenge cix nonce => Sys2Proof.Machine.execChallenge cix nonce s
  | .getMeasurements cix => Sys2Proof.Machine.execGetMeasurements cix s
  | .sharedKeyInstall cix key => Sys2Proof.Machine.execSharedKeyInstall cix key s
  | .timeShareSwitch cix => Sys2Proof.Machine.execTimeShareSwitch cix s
  | .firmwareLoad image => Sys2Proof.Machine.execFirmwareLoad image s
  | .liveUpdate image => Sys2Proof.Machine.execLiveUpdate image s
  | .sretGo site => Sys2Proof.Machine.execSretGo site s
  | .retirementDrainComplete site => Sys2Proof.Machine.execRetirementDrainComplete site s
  | .grant site watts demand => Sys2Proof.Machine.execGrant site watts demand s
  | .thermalTrip site => Sys2Proof.Machine.execThermalTrip site s
  | .thermalClear site => Sys2Proof.Machine.execThermalClear site s
  | .retentionSleep l => Sys2Proof.Machine.execRetentionSleep l s
  | .sliceWake l => Sys2Proof.Machine.execSliceWake l s
  | .softError w => Sys2Proof.Machine.execSoftError w s
  | .flitReplay boundary good => Sys2Proof.Machine.execFlitReplay boundary good s
  | .train port => Sys2Proof.Machine.execTrain port s
  | .fencePort port => Sys2Proof.Machine.execFencePort port s
  | .down port => Sys2Proof.Machine.execDown port s
  | .signalDetected port => Sys2Proof.Machine.execSignalDetected port s
  | .lanesTrained port good => Sys2Proof.Machine.execLanesTrained port good s
  | .portAuth port good pmid pinc => Sys2Proof.Machine.execPortAuth port good pmid pinc s
  | .frameReceive port frame => Sys2Proof.Machine.execFrameReceive port frame s
  | .retrainComplete port good pmid pinc => Sys2Proof.Machine.execRetrainComplete port good pmid pinc s
  | .keyUpdate port good => Sys2Proof.Machine.execKeyUpdate port good s
  | .peerLost mid => Sys2Proof.Machine.execPeerLost mid s
  | .packetForward link => Sys2Proof.Machine.execPacketForward link s
  | .millMergeForward line => Sys2Proof.Machine.execMillMergeForward line s
  | .cxlMemRead addr len => Sys2Proof.Machine.execCxlMemRead addr len s
  | .cxlMemWrite addr bytes => Sys2Proof.Machine.execCxlMemWrite addr bytes s
  | .hostSnoop addr inval => Sys2Proof.Machine.execHostSnoop addr inval s
  | .atomicProxy req => Sys2Proof.Machine.execAtomicProxy req s
  | .coldReset => Sys2Proof.Machine.execColdReset s
  | .warmReset => Sys2Proof.Machine.execWarmReset s
  | .laneError port => Sys2Proof.Machine.execLaneError port s
  | .hbmMissReturn l line => Sys2Proof.Machine.execHbmMissReturn l line s

end Sys2Proof.Machine
end

