-- ==== Sys2Proof/Machine/Step.lean ====
section
/-! DEFINITION. One step of the machine: the next move, with exec as the meaning of every instruction. -/

namespace Sys2Proof.Machine

/-- One step (assumption 1). -/
def step (s : State) : Host.Outcome State Fault Refusal := nextMove exec s

/-- The state with a slot placed where the next step fetches it (assumption 10). -/
def State.withFetchWord (s : State) (_nbits w : Nat) : State := s.placeSlot (BitVec.ofNat 96 w)

end Sys2Proof.Machine
end

