-- ==== Sys2Proof/Safety.lean ====
section
/-! DEFINITION. What a safe run keeps: module memory and every local store stay in their canonical form. -/

namespace Sys2Proof

/-- Module memory and every local store are in canonical form. -/
def Safe (s : Machine.State) : Prop :=
  Machine.Memory.wf s.mem = true ∧ ∀ c ∈ s.cores, Machine.Memory.wf c.store = true

end Sys2Proof
end

