-- ==== Sys2Proof/Certificates/Slice0/Obligations.lean ====
section
/-! DEFINITION. What is stated about the model, for the provers. Each docstring names the rules it speaks of; a clause that rests on a choice
of the model names the log entry. -/

namespace Sys2Proof.Says

open Sys2Proof.Machine

/-! ### Vocabulary of the statements -/

/-- The slot executes: the issuing strand is in RUN and the guard holds (R41). -/
def Executes (g : Guard) (s : State) : Prop := s.cur.status = .run ∧ guardHolds g s = true
/-- Its live-set index lies within the image's table as well (R67). -/
def ExecutesWait (g : Guard) (ls : BitVec 8) (s : State) : Prop := Executes g s ∧ ls.toNat < s.liveCount
/-- The issuing strand is the foreman's as well (R57). -/
def ExecutesForeman (g : Guard) (s : State) : Prop := Executes g s ∧ s.cur.fmn = true

/-- A result at the operation width (R121): op on the low bits of a and b, zero-extended. -/
def atWidth (w : Width) (op : (n : Nat) → BitVec n → BitVec n → BitVec n) (a b : Word64) : Word64 :=
  (op (widthBits w) (a.setWidth _) (b.setWidth _)).setWidth 64
/-- The same in a signed form: sign-extended. -/
def atWidthSigned (w : Width) (op : (n : Nat) → BitVec n → BitVec n → BitVec n) (a b : Word64) : Word64 :=
  (op (widthBits w) (a.setWidth _) (b.setWidth _)).signExtend 64

/-- The results of R122 on words of n bits. -/
def mulhOf (n : Nat) (a b : BitVec n) : BitVec n := ((a.setWidth (2 * n)) * (b.setWidth (2 * n))).extractLsb' n n
def mulhsOf (n : Nat) (a b : BitVec n) : BitVec n := ((a.signExtend (2 * n)) * (b.signExtend (2 * n))).extractLsb' n n
def shlOf (n : Nat) (a b : BitVec n) : BitVec n := a <<< (b.toNat % n)
def shrOf (n : Nat) (a b : BitVec n) : BitVec n := a >>> (b.toNat % n)
def shraOf (n : Nat) (a b : BitVec n) : BitVec n := a.sshiftRight (b.toNat % n)
def rorOf (n : Nat) (a b : BitVec n) : BitVec n := a.rotateRight (b.toNat % n)
def minOf (n : Nat) (a b : BitVec n) : BitVec n := if b.ult a then b else a
def maxOf (n : Nat) (a b : BitVec n) : BitVec n := if a.ult b then b else a
def minsOf (n : Nat) (a b : BitVec n) : BitVec n := if b.slt a then b else a
def maxsOf (n : Nat) (a b : BitVec n) : BitVec n := if a.slt b then b else a
/-- The quotients and remainders of R123. -/
def divOf (n : Nat) (a b : BitVec n) : BitVec n := if b = 0 then BitVec.allOnes n else a.udiv b
def divsOf (n : Nat) (a b : BitVec n) : BitVec n := if b = 0 then BitVec.allOnes n else a.sdiv b
def remOf (n : Nat) (a b : BitVec n) : BitVec n := if b = 0 then a else a.umod b
def remsOf (n : Nat) (a b : BitVec n) : BitVec n := if b = 0 then a else a.srem b

/-- SSW.DZ set when the divisor is 0 at the width (R123). -/
def withDz (w : Width) (b : Word64) (s : State) : State := if b.setWidth (widthBits w) = 0 then s.setDz else s

/-- r counts, at the width of w, the zeros above the highest one of a (R122). -/
def LeadingZeros (w : Width) (a r : Word64) : Prop :=
  r.toNat ≤ widthBits w ∧ (∀ i, widthBits w - r.toNat ≤ i → i < widthBits w → a.getLsbD i = false)
    ∧ (r.toNat < widthBits w → a.getLsbD (widthBits w - 1 - r.toNat) = true)
/-- r counts the zeros below the lowest one of a. -/
def TrailingZeros (w : Width) (a r : Word64) : Prop :=
  r.toNat ≤ widthBits w ∧ (∀ i, i < r.toNat → a.getLsbD i = false) ∧ (r.toNat < widthBits w → a.getLsbD r.toNat = true)

/-- The condition codes of CMP (R53, R125) at a width. -/
def compares (cc : Nat) (n : Nat) (a b : BitVec n) : Bool :=
  match cc with
  | 0 => a == b
  | 1 => a != b
  | 2 => a.slt b
  | 3 => !a.slt b
  | 4 => a.ult b
  | 5 => !a.ult b
  | 6 => !b.slt a
  | 7 => b.slt a
  | 8 => !b.ult a
  | _ => b.ult a
/-- The operations of KOP (R53, R125). -/
def kops (op : Nat) (a b : Bool) : Bool :=
  match op with
  | 0 => a && b
  | 1 => a || b
  | 2 => a ^^ b
  | 3 => a && !b
  | 4 => a || !b
  | _ => a == b

end Sys2Proof.Says

open Sys2Proof Sys2Proof.Machine Sys2Proof.Says

/-! ### Scalar integer (spec/06_scalar.md R121-R126) -/

/-- The two-operand results of R122 but for the divisions (DivisionsAndBitFields), in both operand forms, and MADD: the slot completes with the result
in G(GD) and nothing else changed (RegisterWritesAndFullEmptyReads says what a write of G(GD) changes).
CLZ, CTZ, POPC, BREV and BSWAP (R122). -/
def Obligations.IntegerResults : Prop :=
  (∀ (f : FormA) (s : State), Executes f.grd s →
    let a := s.rdG f.ga
    let b := s.rdG f.gb
    let i := f.imm.signExtend 64
    let d := s.rdG f.gd
    let u (op : (n : Nat) → BitVec n → BitVec n → BitVec n) (y : Word64) : Host.Outcome State Fault Refusal :=
      .next (s.putG f.gd (atWidth f.w op a y))
    let z (op : (n : Nat) → BitVec n → BitVec n → BitVec n) (y : Word64) : Host.Outcome State Fault Refusal :=
      .next (s.putG f.gd (atWidthSigned f.w op a y))
    (exec (.add f) s = u (fun _ x y => x + y) b ∧ exec (.addi f) s = u (fun _ x y => x + y) i)
    ∧ (exec (.sub f) s = u (fun _ x y => x - y) b ∧ exec (.subImm f) s = u (fun _ x y => x - y) i)
    ∧ (exec (.mul f) s = u (fun _ x y => x * y) b ∧ exec (.mulImm f) s = u (fun _ x y => x * y) i)
    ∧ (exec (.mulh f) s = u mulhOf b ∧ exec (.mulhImm f) s = u mulhOf i)
    ∧ (exec (.mulhs f) s = z mulhsOf b ∧ exec (.mulhsImm f) s = z mulhsOf i)
    ∧ (exec (.and f) s = u (fun _ x y => x &&& y) b ∧ exec (.andImm f) s = u (fun _ x y => x &&& y) i)
    ∧ (exec (.or f) s = u (fun _ x y => x ||| y) b ∧ exec (.orImm f) s = u (fun _ x y => x ||| y) i)
    ∧ (exec (.xor f) s = u (fun _ x y => x ^^^ y) b ∧ exec (.xorImm f) s = u (fun _ x y => x ^^^ y) i)
    ∧ (exec (.andn f) s = u (fun _ x y => x &&& ~~~y) b ∧ exec (.andnImm f) s = u (fun _ x y => x &&& ~~~y) i)
    ∧ (exec (.orn f) s = u (fun _ x y => x ||| ~~~y) b ∧ exec (.ornImm f) s = u (fun _ x y => x ||| ~~~y) i)
    ∧ (exec (.shl f) s = u shlOf b ∧ exec (.shlImm f) s = u shlOf i)
    ∧ (exec (.shr f) s = u shrOf b ∧ exec (.shrImm f) s = u shrOf i)
    ∧ (exec (.shra f) s = z shraOf b ∧ exec (.shraImm f) s = z shraOf i)
    ∧ (exec (.ror f) s = u rorOf b ∧ exec (.rorImm f) s = u rorOf i)
    ∧ (exec (.min f) s = u minOf b ∧ exec (.minImm f) s = u minOf i)
    ∧ (exec (.max f) s = u maxOf b ∧ exec (.maxImm f) s = u maxOf i)
    ∧ (exec (.mins f) s = z minsOf b ∧ exec (.minsImm f) s = z minsOf i)
    ∧ (exec (.maxs f) s = z maxsOf b ∧ exec (.maxsImm f) s = z maxsOf i)
    ∧ (exec (.madd f) s = u (fun n x y => x * y + d.setWidth n) b ∧ exec (.maddImm f) s = u (fun n x y => x * y + d.setWidth n) i))
  ∧ (∀ (f : FormA) (s : State), Executes f.grd s →
    let a := s.rdG f.ga
    (∃ r, exec (.clz f) s = .next (s.putG f.gd r) ∧ LeadingZeros f.w a r)
    ∧ (∃ r, exec (.ctz f) s = .next (s.putG f.gd r) ∧ TrailingZeros f.w a r)
    ∧ (∃ r : Word64, exec (.popc f) s = .next (s.putG f.gd r)
        ∧ r.toNat = (List.range (widthBits f.w)).countP fun i => a.getLsbD i)
    ∧ (∃ r : Word64, exec (.brev f) s = .next (s.putG f.gd r)
        ∧ ∀ i, i < 64 → r.getLsbD i = (decide (i < widthBits f.w) && a.getLsbD (widthBits f.w - 1 - i)))
    ∧ (∃ r : Word64, exec (.bswap f) s = .next (s.putG f.gd r)
        ∧ ∀ j k, j < 8 → k < 8 → r.getLsbD (8 * j + k) = (decide (8 * j < widthBits f.w) && a.getLsbD (widthBits f.w - 8 - 8 * j + k))))

/-- The divisions of R123: with a divisor of 0 all ones or the dividend, and SSW.DZ set; the most negative number by -1 gives itself with remainder 0.
BFX and BFI (R124): with the specifier e of the form, position p and length n, bit j of the field of a stands at bit p + j; what would stand beyond
bit 63 is dropped. No other W is an instruction, and the immediate form takes no specifier but those of R124. -/
def Obligations.DivisionsAndBitFields : Prop :=
  ((∀ (f : FormA) (s : State), Executes f.grd s →
    let a := s.rdG f.ga
    let b := s.rdG f.gb
    let i := f.imm.signExtend 64
    (exec (.div f) s = .next (withDz f.w b (s.putG f.gd (atWidth f.w divOf a b)))
      ∧ exec (.divImm f) s = .next (withDz f.w i (s.putG f.gd (atWidth f.w divOf a i))))
    ∧ (exec (.divs f) s = .next (withDz f.w b (s.putG f.gd (atWidthSigned f.w divsOf a b)))
      ∧ exec (.divsImm f) s = .next (withDz f.w i (s.putG f.gd (atWidthSigned f.w divsOf a i))))
    ∧ (exec (.rem f) s = .next (withDz f.w b (s.putG f.gd (atWidth f.w remOf a b)))
      ∧ exec (.remImm f) s = .next (withDz f.w i (s.putG f.gd (atWidth f.w remOf a i))))
    ∧ (exec (.rems f) s = .next (withDz f.w b (s.putG f.gd (atWidthSigned f.w remsOf a b)))
      ∧ exec (.remsImm f) s = .next (withDz f.w i (s.putG f.gd (atWidthSigned f.w remsOf a i)))))
  ∧ (∀ w : Width, divsOf (widthBits w) (BitVec.intMin _) (BitVec.allOnes _) = BitVec.intMin _
      ∧ remsOf (widthBits w) (BitVec.intMin _) (BitVec.allOnes _) = 0))
  ∧ ((∀ (f : FormA) (s : State), Executes f.grd s →
    let spec (e x d r y : Word64) : Prop :=
      let p := e.toNat % 64
      let n := Nat.min (e.toNat / 256 % 128) 64
      (∀ j, j < 64 → x.getLsbD j = (decide (j < n) && y.getLsbD (p + j)))
      ∧ (∀ j, j < 64 → r.getLsbD j = if p ≤ j ∧ j < p + n then y.getLsbD (j - p) else d.getLsbD j)
    ∃ x r x' r' : Word64,
      exec (.bfx f) s = .next (s.putG f.gd x) ∧ exec (.bfi f) s = .next (s.putG f.gd r)
      ∧ exec (.bfxImm f) s = .next (s.putG f.gd x') ∧ exec (.bfiImm f) s = .next (s.putG f.gd r')
      ∧ spec (s.rdG f.gb) x (s.rdG f.gd) r (s.rdG f.ga)
      ∧ spec (f.imm.setWidth 64) x' (s.rdG f.gd) r' (s.rdG f.ga))
  ∧ ∀ (f : FormA) (w : SlotBits),
      (f.w ≠ .w64 → decodeSlot w ≠ .ok (.bfx f) ∧ decodeSlot w ≠ .ok (.bfi f) ∧ decodeSlot w ≠ .ok (.bfxImm f) ∧ decodeSlot w ≠ .ok (.bfiImm f))
      ∧ (¬(f.imm.extractLsb' 15 17 = 0 ∧ f.imm.extractLsb' 6 2 = 0 ∧ (f.imm.extractLsb' 8 7).toNat ≤ 64) →
          decodeSlot w ≠ .ok (.bfxImm f) ∧ decodeSlot w ≠ .ok (.bfiImm f)))

/-- CMP, CMPI, KOP and SEL (R125); a write to k0 is discarded; and the codes and fields with which no word is one of them.
MOVI, MOVH and both forms of LEA (R126), and the immediates and widths with which no word is one of them. -/
def Obligations.PredicatesConstantsAndAddresses : Prop :=
  ((∀ (f : FormA) (s : State), Executes f.grd s →
    let n := widthBits f.w
    exec (.cmp f) s = .next (s.putK f.kd (compares f.cc.toNat n ((s.rdG f.ga).setWidth n) ((s.rdG f.gb).setWidth n)))
    ∧ exec (.cmpi f) s = .next (s.putK f.kd (compares f.cc.toNat n ((s.rdG f.ga).setWidth n) ((f.imm.signExtend 64).setWidth n)))
    ∧ exec (.kop f) s = .next (s.putK f.kd (kops f.cc.toNat (s.rdK f.ka) (s.rdK f.kb)))
    ∧ exec (.sel f) s = .next (s.putG f.gd (if s.rdK f.ka then s.rdG f.ga else s.rdG f.gb)))
  ∧ (∀ (s : State) (b : Bool), s.putK 0 b = { s with last := .seq })
  ∧ ∀ (f : FormA) (w : SlotBits),
      (10 ≤ f.cc.toNat → decodeSlot w ≠ .ok (.cmp f) ∧ decodeSlot w ≠ .ok (.cmpi f)) ∧ (6 ≤ f.cc.toNat → decodeSlot w ≠ .ok (.kop f))
      ∧ (f.gd ≠ 0 → decodeSlot w ≠ .ok (.cmp f) ∧ decodeSlot w ≠ .ok (.cmpi f))
      ∧ (f.w ≠ .w64 → decodeSlot w ≠ .ok (.kop f) ∧ decodeSlot w ≠ .ok (.sel f)))
  ∧ ((∀ (f : FormI) (s : State), Executes f.grd s →
    exec (.movi f) s = .next (s.putG f.gd (f.imm.signExtend 64))
    ∧ exec (.movh f) s = .next (s.putG f.gd ((f.imm.setWidth 16) ++ (s.rdG f.gd).setWidth 48)))
  ∧ (∀ (f : FormA) (s : State), Executes f.grd s →
    exec (.lea f) s = .next (s.putG f.gd (BitVec.ofNat 64 ((s.rdG f.ga).toNat + (s.rdG f.gb).toNat * 2 ^ f.imm.toNat)))
    ∧ exec (.leaPc f) s
        = .next (s.putG f.gd (BitVec.ofInt 64 ((s.cur.pc.toNat / 8 * 8 : Nat) + ((s.rdG f.ga).toNat : Int) + f.imm.toInt))))
  ∧ (∀ (f : FormI) (w : SlotBits), 2 ^ 16 ≤ f.imm.toNat → decodeSlot w ≠ .ok (.movh f))
  ∧ ∀ (f : FormA) (w : SlotBits),
      (8 ≤ f.imm.toNat → decodeSlot w ≠ .ok (.lea f)) ∧ (f.w ≠ .w64 → decodeSlot w ≠ .ok (.lea f) ∧ decodeSlot w ≠ .ok (.leaPc f)))

/-! ### Scalar FP32 and the full/empty registers (R127-R132) -/

/-- The arithmetic of R128: each result is the exact one rounded once to FP32 under RM, zero-extended, its VFLAGS bits raised; FSGN, FMIN and FMAX raise
none.
FMIN and FMAX on their corners (R129): -0 lies below +0, one NaN gives the other operand, two the canonical NaN; and FCMP with a NaN. -/
def Obligations.ScalarFloatResults : Prop :=
  (∀ (f : FormA) (s : State), Executes f.grd s →
    let a := decodeFloat fp32Format ((s.rdG f.ga).toNat % 2 ^ 32)
    let b := decodeFloat fp32Format ((s.rdG f.gb).toNat % 2 ^ 32)
    let d := decodeFloat fp32Format ((s.rdG f.gd).toNat % 2 ^ 32)
    let rounded (x : ExactVal) (o : Host.Outcome State Fault Refusal) : Prop :=
      ∃ r : BitVec 32, ∃ t, o = .next t ∧ r.toNat = (roundTo fp32Format f.rm false 0 x).1
        ∧ t = { (s.putG f.gd (r.setWidth 64)) with
                cur := { (s.putG f.gd (r.setWidth 64)).cur with vflags := s.cur.vflags ||| (roundTo fp32Format f.rm false 0 x).2 } }
    rounded (exactAdd f.rm a b) (exec (.fadd f) s)
    ∧ rounded (exactAdd f.rm a b.negate) (exec (.fsub f) s)
    ∧ rounded (exactMul a b) (exec (.fmul f) s)
    ∧ rounded (exactFma f.rm a b d) (exec (.ffma f) s)
    ∧ rounded (exactDiv a b) (exec (.fdiv f) s)
    ∧ rounded (exactSqrt a) (exec (.fsqrt f) s)
    ∧ exec (.fmin f) s = .next (s.putG f.gd ((BitVec.ofNat 32 (floatMinMax fp32Format false ((s.rdG f.ga).toNat % 2 ^ 32)
        ((s.rdG f.gb).toNat % 2 ^ 32))).setWidth 64))
    ∧ exec (.fmax f) s = .next (s.putG f.gd ((BitVec.ofNat 32 (floatMinMax fp32Format true ((s.rdG f.ga).toNat % 2 ^ 32)
        ((s.rdG f.gb).toNat % 2 ^ 32))).setWidth 64))
    ∧ (f.imm.toNat < 3 → exec (.fsgn f) s = .next (s.putG f.gd (
        if a = .nan then 0x7FC00000 else
        let sa := (s.rdG f.ga).getLsbD 31
        let sb := (s.rdG f.gb).getLsbD 31
        let n := if f.imm.toNat = 0 then sb else if f.imm.toNat = 1 then !sb else sa ^^ sb
        ((BitVec.ofBool n) ++ (s.rdG f.ga).setWidth 31).setWidth 64))))
  ∧ ((∀ x : Nat, x < 2 ^ 32 → decodeFloat fp32Format x ≠ .nan →
    floatMinMax fp32Format false 0x7FC00000 x = x ∧ floatMinMax fp32Format true x 0x7FC00000 = x)
  ∧ (∀ x y : Nat, decodeFloat fp32Format x = .nan → decodeFloat fp32Format y = .nan → ∀ m, floatMinMax fp32Format m x y = 0x7FC00000)
  ∧ floatMinMax fp32Format false 0 0x80000000 = 0x80000000 ∧ floatMinMax fp32Format true 0x80000000 0 = 0
  ∧ (∀ (f : FormA) (s : State), Executes f.grd s →
      ∃ (b : Bool) (fl : FloatFlags), exec (.fcmp f) s = .next { (s.putK f.kd b) with
          cur := { (s.putK f.kd b).cur with vflags := s.cur.vflags ||| fl } }
        ∧ (decodeFloat fp32Format ((s.rdG f.ga).toNat % 2 ^ 32) = .nan ∨ decodeFloat fp32Format ((s.rdG f.gb).toNat % 2 ^ 32) = .nan →
            (f.cc ∈ [0, 2, 3, 6, 7, 11] → b = false) ∧ (f.cc ∈ [1, 10] → b = true)
            ∧ fl = if f.cc ∈ [2, 3, 6, 7] then flagNV else 0)))

/-- FCVT and FCLASS (R130, R131). The class of a is one of nine, and exactly one bit of G(GD) is set; code 0 clamps to INT32 and a NaN gives 0 with NV. -/
def Obligations.ConversionsAndClasses : Prop :=
  ∀ (f : FormA) (s : State), Executes f.grd s →
    let a := (s.rdG f.ga).toNat % 2 ^ 32
    let bare : Word64 × FloatFlags → Host.Outcome State Fault Refusal := fun r =>
      .next { (s.putG f.gd r.1) with cur := { (s.putG f.gd r.1).cur with vflags := s.cur.vflags ||| r.2 } }
    (f.imm = 0 → decodeFloat fp32Format a = .nan → exec (.fcvt f) s = bare (0, flagNV))
    ∧ (∀ w : Nat, f.imm = 0 ∧ w = 32 ∨ f.imm = 1 ∧ w = 64 →
        let r := floatToInt f.rm 0 (-2 ^ (w - 1)) (2 ^ (w - 1) - 1) (decodeFloat fp32Format a)
        exec (.fcvt f) s = bare (BitVec.ofInt 64 r.1, r.2) ∧ -2 ^ (w - 1) ≤ r.1 ∧ r.1 < 2 ^ (w - 1))
    ∧ (f.imm = 2 → exec (.fcvt f) s = bare (((roundTo fp32Format f.rm false 0
        (intVal ((s.rdG f.ga).setWidth 32).toInt).exactly)).map (BitVec.ofNat 64) id))
    ∧ (f.imm = 3 → exec (.fcvt f) s = bare (((roundTo fp32Format f.rm false 0 (intVal (s.rdG f.ga).toInt).exactly)).map (BitVec.ofNat 64) id))
    ∧ (f.imm = 4 → exec (.fcvt f) s = bare ((convertFloat fp32Format bf16Format f.rm false 0 a).map (BitVec.ofNat 64) id))
    ∧ (f.imm = 5 → exec (.fcvt f) s = bare ((convertFloat bf16Format fp32Format f.rm false 0 (a % 2 ^ 16)).map (BitVec.ofNat 64) id))
    ∧ (f.imm = 6 → exec (.fcvt f) s = bare ((convertFloat fp32Format fp16Format f.rm false 0 a).map (BitVec.ofNat 64) id))
    ∧ (f.imm = 7 → exec (.fcvt f) s = bare ((convertFloat fp16Format fp32Format f.rm false 0 (a % 2 ^ 16)).map (BitVec.ofNat 64) id))
    ∧ ∃ c, c < 9 ∧ exec (.fclass f) s = .next ((s.putG f.gd (BitVec.twoPow 64 c)).putK f.kd (f.imm.getLsbD c))
        ∧ (c = 8 ↔ decodeFloat fp32Format a = .nan) ∧ (c = 7 ↔ a = 0x7F800000) ∧ (c = 0 ↔ a = 0xFF800000)
        ∧ (c = 4 ↔ a = 0) ∧ (c = 3 ↔ a = 0x80000000)

/-- What a write of a g or k register changes (R59): the register named and no other state; register 0 discards it and reads 0, or 1 as a predicate. The
mark of an uncorrectable load leaves the register with the write (R355).
FGET and FPEEK (R132, R107). In a pair both read the register as it was before the group (R37); FGET leaves it EMPTY, with the producers that the
group's first slot has added. -/
def Obligations.RegisterWritesAndFullEmptyReads : Prop :=
  (∀ s : State,
    s.rdG 0 = 0 ∧ s.rdK 0 = true
    ∧ (∀ (x : Word64) (b : Bool), s.putG 0 x = { s with last := .seq } ∧ s.putK 0 b = { s with last := .seq })
    ∧ (∀ (n : BitVec 6) (x : Word64), n ≠ 0 → ∃ g,
        s.putG n x = { s with cur := { s.cur with g := g, spoiled := s.cur.spoiled.filter fun e => e.1 != n }, last := .seq }
        ∧ g.get n.toFin = x ∧ ∀ r : BitVec 6, r ≠ n → g.get r.toFin = s.cur.g.get r.toFin)
    ∧ (∀ (n : BitVec 3) (b : Bool), n ≠ 0 → ∃ k : BitVec 8,
        s.putK n b = { s with cur := { s.cur with k := k }, last := .seq }
        ∧ k.getLsbD n.toNat = b ∧ ∀ r : BitVec 3, r ≠ n → k.getLsbD r.toNat = s.cur.k.getLsbD r.toNat))
  ∧ (∀ (f : FormA) (s : State), Executes f.grd s →
    let n := f.imm.toNat
    let r := s.src.f' n
    (s.opnd = none → s.src = s.cur)
    ∧ (r.producers ≠ [] → exec (.fget f) s = .next s.stall)
    ∧ (r.producers = [] → r.arrived = true →
        exec (.fget f) s = .next { (s.putG f.gd r.value) with
          cur := { (s.putG f.gd r.value).cur with f := s.cur.f.setIfInBounds n { s.cur.f' n with arrived := false } } })
    ∧ (r.producers = [] → r.arrived = false →
        exec (.fget f) s = .next { (s.putG f.gd r.value) with cur := { (s.putG f.gd r.value).cur with fu := true } })
    ∧ exec (.fpeek f) s = .next ((s.putG f.gd r.value).putK f.kd (r.producers.isEmpty && r.arrived)))
/-! ### Control (R108-R120) -/

/-- BR, BRI, CALL, CALLI, RET and LEXIT (R114, R110): a target inside the 56-bit space is taken, with the loop entries popped whose body does not hold
it and the return PC linked; a target outside it, or a register that is no PC, is CFI and nothing else. -/
def Obligations.TransfersAndTheirFaults : Prop :=
  ∀ (f : FormB) (s : State), Executes f.grd s →
    let i := s.cur.pc.toNat / 64 * 5 + s.cur.pc.toNat % 8
    let t : Int := i + f.off.toInt
    let x := s.rdG f.ga
    let u := (x.toNat / 64) * 5 + x.toNat % 8
    let regOk := x.extractLsb' 56 8 = 0 ∧ x.extractLsb' 3 3 = 0 ∧ x.toNat % 8 ≤ 4
    let offOk := 0 ≤ t ∧ t < 5 * 2 ^ 50
    let pops (l : List LoopEntry) (n : Nat) := l.dropWhile fun e => !(decide (e.start ≤ n) && decide (n ≤ e.final))
    let back : Word64 := (pcOf (i + 1)).setWidth 64
    let goes (s : State) (l : List LoopEntry) (n : Nat) : Host.Outcome State Fault Refusal :=
      .next { s with cur := { s.cur with loops := l }, last := .transfer (pcOf n) }
    (offOk → exec (.br f) s = goes s (pops s.cur.loops t.toNat) t.toNat
        ∧ exec (.call f) s = goes (s.wrG f.glk back) s.cur.loops t.toNat
        ∧ (∀ e rest, s.cur.loops = e :: rest → exec (.lexit f) s = goes s (pops rest t.toNat) t.toNat)
        ∧ (s.cur.loops = [] → exec (.lexit f) s = .next (s.raiseCode .loop)))
    ∧ (regOk → exec (.bri f) s = goes s (pops s.cur.loops u) u
        ∧ exec (.calli f) s = goes (s.wrG f.glk back) s.cur.loops u
        ∧ exec (.ret f) s = goes s s.cur.loops u)
    ∧ (¬offOk → ∃ va, exec (.br f) s = .next (s.raise { code := .cfi, addr := va, info := 0 })
        ∧ exec (.call f) s = exec (.br f) s ∧ exec (.lexit f) s = exec (.br f) s)
    ∧ (¬regOk → exec (.bri f) s = .next (s.raise { code := .cfi, addr := x, info := 0 })
        ∧ exec (.calli f) s = exec (.bri f) s ∧ exec (.ret f) s = exec (.bri f) s)

/-- LOOP (R108).
After an issue group that takes no transfer (R109): the entries on top whose end lies in the group and whose count is at most 1 are popped; of the
next one, if its end lies in the group as well, the count falls by 1 and control returns to its start. -/
def Obligations.LoopsRepeatTheirBodies : Prop :=
  (∀ (f : FormB) (s : State), Executes f.grd s →
    let i := s.cur.pc.toNat / 64 * 5 + s.cur.pc.toNat % 8
    let n := if f.cs then f.cnt.toNat else (s.rdG f.ga).toNat
    (f.off.toInt < 1 → exec (.loop f) s = .next (s.raiseCode .illegalOp))
    ∧ (1 ≤ f.off.toInt →
        (2 ^ 48 ≤ n → exec (.loop f) s = .next (s.raiseCode .loop))
        ∧ (n = 0 → exec (.loop f) s = .next { s with last := .skip (i + f.off.toNat + 1) })
        ∧ (0 < n → n < 2 ^ 48 → s.cur.loops.length = 4 → exec (.loop f) s = .next (s.raiseCode .loop))
        ∧ (0 < n → n < 2 ^ 48 → s.cur.loops.length < 4 →
            exec (.loop f) s = .next { s with
              cur := { s.cur with loops := { start := i + 1, final := i + f.off.toNat, count := n } :: s.cur.loops }, last := .seq })))
  ∧ (∀ (lo hi next : Nat) (done below : List LoopEntry),
    (∀ e ∈ done, lo ≤ e.final ∧ e.final ≤ hi ∧ e.count ≤ 1) →
      (below = [] → loopReturn lo hi next (done ++ below) = (next, []))
      ∧ (∀ e rest, below = e :: rest → ¬(lo ≤ e.final ∧ e.final ≤ hi) → loopReturn lo hi next (done ++ below) = (next, below))
      ∧ (∀ e rest, below = e :: rest → lo ≤ e.final → e.final ≤ hi → 1 < e.count →
          loopReturn lo hi next (done ++ below) = (e.start, { e with count := e.count - 1 } :: rest)))

/-- NOP does nothing (R113), and EXIT ends the strand with its loops, k registers, v registers and budget released (R117, R101), and a record marked EXT
for each discarded store it has not been told of (R189); its group retires with its last strand, and under a pending pre-emption is READY when all
its other strands are saved or have ended (R343); the foreman may not exit.
TRAP and BRK (R118): complete, then the strand freezes at the next instruction with SWTRAP or BREAK, the code of CNT in INFO, and the record's PC at
the instruction itself; no register, no byte of memory and no local store changes. The strand stops at PcOf(Index(PC) + 1) wherever it stands
(R355), and no loop returns (the model's reading, log 60). -/
def Obligations.NopExitTrapAndBreak : Prop :=
  ((∀ (f : FormN) (s : State), Executes f.grd s → exec (.nop f) s = .next { s with last := .seq })
  ∧ (∀ (f : FormB) (s : State), Executes f.grd s →
      (s.cur.fmn = true → exec (.exit f) s = .next (s.raiseCode .illegalOp))
      ∧ (s.cur.fmn = false → ∃ c gs ds st n, exec (.exit f) s = .next { s with cur := c, last := .stopped, groups := gs, records := s.records ++ ds, sites := st, fresh := n }
          ∧ ds.map Delivery.record = s.cur.lost.map (lostRecord s s.cur) ∧ (∀ d ∈ ds, d.cix = s.cix ∧ d.record.ext = true ∧ d.record.code = .pagePerm)
          ∧ (∀ g ∈ s.groups, g.st = .resident →
            let ended := ∀ t ∈ s.others, t.id.grp = g.id → t.status = .exited ∨ t.status = .exitedOrphan
            (g.id = s.cur.id.grp → ended → ∀ x ∈ gs, x.id = g.id → x.st = .unplaced)
            ∧ (g.id = s.cur.id.grp → ¬ended → g.preempt = none → g ∈ gs)
            ∧ (g.id = s.cur.id.grp → ¬ended → g.preempt.isSome = true →
                (∀ t ∈ s.others, t.id.grp = g.id → t.status = .exited ∨ t.status = .exitedOrphan ∨ t.status = .ready) → { g with st := .ready } ∈ gs)
            ∧ (g.id ≠ s.cur.id.grp → ¬ended → g.preempt = none → g ∈ gs))
          ∧ c.status = .exited ∧ c.loops = [] ∧ c.k = 1 ∧ c.bud = 0 ∧ (∀ n, (c.vr n).held = false ∧ (c.vr n).binding = none)
          ∧ c = { s.cur with status := c.status, loops := c.loops, k := c.k, bud := c.bud, vres := c.vres, byTransfer := false, lost := [] })))
  ∧ (∀ (f : FormB) (s : State), Executes f.grd s →
    ∀ (i : Instr) (c : FaultCode), (i = .trap f ∧ c = .swTrap) ∨ (i = .brk f ∧ c = .brk) →
      ∃ t : State, exec i s = .next t
        ∧ t.cur.status = .frozen
        ∧ t.cur.pc = pcOf (s.cur.pc.toNat / 64 * 5 + s.cur.pc.toNat % 8 + 1) ∧ t.cur.loops = s.cur.loops
        ∧ t.last = .trapped { code := c, addr := 0, info := f.cnt.setWidth 64 }
        ∧ t.cur.g = s.cur.g ∧ t.cur.k = s.cur.k ∧ t.cur.v = s.cur.v ∧ t.cur.m = s.cur.m ∧ t.cur.c = s.cur.c ∧ t.cur.f = s.cur.f
        ∧ t.cur.d = s.cur.d ∧ t.cur.vflags = s.cur.vflags ∧ t.cur.hcur = s.cur.hcur
        ∧ (∀ a, readByte t.mem a = readByte s.mem a) ∧ t.cores = s.cores ∧ t.cells = s.cells
        ∧ (s.cur.fmn = false → ∃ d, t.records = s.records ++ [d] ∧ d.cix = s.cix ∧ d.record.code = c
            ∧ d.record.pc = s.cur.pc.setWidth 64 ∧ d.record.info = f.cnt.setWidth 64 ∧ d.record.frz = true))

/-- PRE.POINT and YIELD (R119, R120): an index beyond the live-set table is ILLEGAL_OP whatever the guard; with no pre-emption pending, and none
granted, they do nothing; under a pending one the strand stops there, to resume at the next instruction (in a loop's end slot where R109 leads: the
model's reading, log 60), with PLS set to the index, and waits there while its queues or its stores have not drained. -/
def Obligations.PreemptionPoints : Prop :=
  ∀ (f : FormB) (s : State), s.cur.status = .run →
    (s.liveCount ≤ f.ls.toNat → exec (.prePoint f) s = .next (s.raiseCode .illegalOp) ∧ exec (.yield f) s = .next (s.raiseCode .illegalOp))
    ∧ (ExecutesWait f.grd f.ls s →
        (s.preemptPending s.cur.id.grp = false →
          exec (.prePoint f) s = .next { s with last := .seq }
          ∧ (s.cur.fmn = true ∨ s.yieldGranted = false → exec (.yield f) s = .next { s with last := .seq }))
        ∧ (s.preemptPending s.cur.id.grp = true →
          (let i := s.cur.pc.toNat / 64 * 5 + s.cur.pc.toNat % 8
          let r := loopReturn i i (i + 1) s.cur.loops
          exec (.prePoint f) s = .next (({ s with cur := { s.cur with loops := r.2 } } : State).stopAt (.point f.ls) (pcOf r.1)))
          ∧ exec (.yield f) s = exec (.prePoint f) s))
    ∧ (∀ (pc : BitVec 56) (g : Group), s.group? s.cur.id.grp = some g → g.reserve ≠ none → s.cur.vq ≠ [] ∨ s.cur.tq ≠ [] ∨ s.cur.unacked ≠ [] →
        ∃ net, s.stopAt (.point f.ls) pc
            = { s with cur := { s.cur with stop := some (.point f.ls), pc := pc, pls := f.ls, byTransfer := false }, net := net, last := .stopped }
          ∧ ∀ r ∈ s.net, r.forReader = false → r ∈ net)

/-! ### System registers and geometry (R91-R95, R102, R133-R136) -/

/-- SRD completes with the register that its selector names (R56, R91-R95, R102, R339), CLK with the clock, and ID and GEO at each of their codes; other
selectors and codes are ILLEGAL_OP, and VFLAGS waits for the strand's queues (R93).
SWR (R91, R92, R93, R102, R133): the fields of SSW that are written by 1 clear, VFLAGS and the LUT registers take the value, the budget takes a
value that R102 admits, SWAPT and the queue registers are the foreman's alone, and every other register refuses. -/
def Obligations.SystemRegisters : Prop :=
  (∀ (f : FormS) (s : State), Executes f.grd s →
    let reads (v : Word64) := exec (.srd f) s = .next (s.putG f.gd v)
    let t := s.cur;
    (f.sel = 2 → t.id.sidx < 64 → t.scnt < 128 → ∃ v : Word64, reads v ∧ if f.imm.getLsbD 0
        then v.extractLsb' 0 16 = t.nx ∧ v.extractLsb' 16 16 = t.ny ∧ v.extractLsb' 32 16 = t.nz ∧ v.extractLsb' 48 16 = 0
        else v.extractLsb' 0 16 = t.gx ∧ v.extractLsb' 16 16 = t.gy ∧ v.extractLsb' 32 16 = t.gz ∧ (v.extractLsb' 48 6).toNat = t.id.sidx
          ∧ (v.extractLsb' 54 10).toNat = t.scnt)
    ∧ (f.sel = 4 → reads (BitVec.ofNat 64 (t.resCount * 2 ^ 16 + t.heldCount * 2 ^ 8 + t.bud)))
    ∧ (∀ p, s.part? s.cix = some p →
        (f.sel = 7 → reads p.swapt)
        ∧ (∀ q, (p.queues.find? fun q => q.lqi == f.imm.toNat) = some q →
          (f.sel = 8 → reads q.period) ∧ (f.sel = 9 → reads q.budget) ∧ (f.sel = 10 → reads q.deadline) ∧ (f.sel = 11 → reads q.remain))
        ∧ ((p.queues.find? fun q => q.lqi == f.imm.toNat) = none → f.sel.toNat ∈ [8, 9, 10, 11] → exec (.srd f) s = .next (s.raiseCode .illegalOp))
        ∧ ((∀ c ∈ p.logical, c.site < 32 ∧ c.cluster < 20 ∧ c.core < 8) → ∀ n, f.sel.toNat = 0x800 + n → n < 0x500 → ∃ v : Word64, reads v ∧
          ∀ i, i < 4 → v.toNat / 65536 ^ i % 65536 = match p.logical[4 * n + i]? with
            | some c => c.site * 256 + c.cluster * 8 + c.core
            | none => 0xFFFF))
    ∧ (f.sel = 1 → ∃ v, reads v ∧ v.getLsbD 0 = t.dz ∧ v.getLsbD 1 = t.ap ∧ v.getLsbD 2 = t.rsm ∧ v.getLsbD 3 = t.fu ∧ v.getLsbD 4 = t.orp
        ∧ v.getLsbD 16 = t.fmn ∧ (t.loops.length < 8 → v.extractLsb' 17 3 = BitVec.ofNat 3 t.loops.length ∧ v.extractLsb' 24 8 = t.pls))
    ∧ (f.sel = 3 → reads (t.hcur.setWidth 64))
    ∧ (f.sel = 5 → (t.vq = [] ∧ t.tq = [] → reads (t.vflags.setWidth 64)) ∧ (t.vq ≠ [] ∨ t.tq ≠ [] → exec (.srd f) s = .next s.stall))
    ∧ (f.sel = 6 → reads (t.seqTag.setWidth 64))
    ∧ (f.sel = 12 → reads s.clk) ∧ (f.sel = 13 → reads t.luta) ∧ (f.sel = 14 → reads t.lutb)
    ∧ (∀ n, f.sel.toNat = 0x100 + n → n < 80 → ∃ v, reads v ∧ ∀ b, b < 8 → v.toNat / 256 ^ b % 256 = ((s.hmap[8 * n + b]?).getD 0).toNat)
    ∧ ((f.sel = 0 ∨ f.sel.toNat ∈ [15, 0xFF, 0x150, 0x7FF, 0xD00]) → exec (.srd f) s = .next (s.raiseCode .illegalOp))
    ∧ exec (.clk f) s = .next (s.putG f.gd s.clk)
    ∧ (f.imm.toNat ≤ 4 → ∃ v : Word64, exec (.id f) s = .next (s.putG f.gd v)
        ∧ (f.imm = 1 → v = BitVec.ofNat 64 (t.place.site * 2 ^ 16 + t.place.cluster * 2 ^ 8 + t.place.core))
        ∧ (f.imm = 2 → v = BitVec.ofNat 64 s.mid)
        ∧ (t.fmn = true → (f.imm = 0 → v = 0xFFFF) ∧ (f.imm = 4 → v = 0))
        ∧ (t.fmn = false → f.imm = 4 → v = BitVec.ofNat 64 t.ent))
    ∧ (5 ≤ f.imm.toNat → exec (.id f) s = .next (s.raiseCode .illegalOp))
    ∧ (f.imm.toNat ≤ 10 →
        let gi := t.gx.toNat + t.nx.toNat * (t.gy.toNat + t.ny.toNat * t.gz.toNat)
        ∃ v, [t.gx.toNat, t.gy.toNat, t.gz.toNat, t.nx.toNat, t.ny.toNat, t.nz.toNat, t.id.sidx, t.scnt, gi, gi * t.scnt + t.id.sidx,
            t.nx.toNat * t.ny.toNat * t.nz.toNat][f.imm.toNat]? = some v
          ∧ exec (.geo f) s = .next (s.putG f.gd (BitVec.ofNat 64 v)))
    ∧ (11 ≤ f.imm.toNat → exec (.geo f) s = .next (s.raiseCode .illegalOp)))
  ∧ (∀ (f : FormS) (s : State), Executes f.grd s →
    let x := s.rdG f.gd
    let writes (c : Strand) := exec (.swr f) s = .next { s with cur := c, last := .seq }
    let refused := exec (.swr f) s = .next (s.raiseCode .illegalOp)
    let t := s.cur;
    (f.sel = 1 → writes { t with dz := t.dz && !x.getLsbD 0, rsm := t.rsm && !x.getLsbD 2, fu := t.fu && !x.getLsbD 3 })
    ∧ (f.sel = 4 → t.bud ≤ s.budSum (coreHalf t.place) →
        let n := (x.setWidth 6).toNat;
        (n ≤ 48 ∧ t.heldCount ≤ n ∧ s.budSum (coreHalf t.place) - t.bud + n ≤ 144 → writes { t with bud := n })
        ∧ (¬(n ≤ 48 ∧ t.heldCount ≤ n ∧ s.budSum (coreHalf t.place) - t.bud + n ≤ 144) →
            ∃ i, exec (.swr f) s = .next (s.raise { code := .regBudget, addr := 0, info := i })))
    ∧ (f.sel = 5 → (t.vq = [] ∧ t.tq = [] → writes { t with vflags := x.setWidth 6 }) ∧ (t.vq ≠ [] ∨ t.tq ≠ [] → exec (.swr f) s = .next s.stall))
    ∧ (f.sel = 13 → writes { t with luta := x }) ∧ (f.sel = 14 → writes { t with lutb := x })
    ∧ (f.sel = 7 → (t.fmn = false → refused)
        ∧ (t.fmn = true → ∃ u : State, exec (.swr f) s = .next u ∧ u = { s with parts := u.parts, last := .seq }
            ∧ ∀ p, s.part? s.cix = some p → u.part? s.cix = some { p with swapt := (x.setWidth 32).setWidth 64 }))
    ∧ (f.sel = 8 ∨ f.sel = 9 → t.fmn = false → refused)
    ∧ (t.fmn = true → ∀ p, s.part? s.cix = some p →
        ((p.queues.find? fun q => q.lqi == f.imm.toNat) = none → f.sel = 8 ∨ f.sel = 9 → refused)
        ∧ (∀ q, (p.queues.find? fun q => q.lqi == f.imm.toNat) = some q →
          let sets (g : LaunchQueue → LaunchQueue) := ∃ u : State, exec (.swr f) s = .next u ∧ u = { s with parts := u.parts, last := .seq }
            ∧ u.part? s.cix = some { p with queues := p.queues.map fun q => if q.lqi = f.imm.toNat then g q else q }
          (f.sel = 8 → (x.setWidth 40).toNat < 1100 → refused)
          ∧ (f.sel = 8 → 1100 ≤ (x.setWidth 40).toNat → sets fun q => { q with period := (x.setWidth 40).setWidth 64 })
          ∧ (f.sel = 9 → sets fun q => { q with budget := (x.setWidth 32).setWidth 64 })))
    ∧ (f.sel.toNat ∈ [2, 3, 6, 10, 11, 12] ∨ 0x100 ≤ f.sel.toNat → refused))

/-! ### Ordering (R212, R222-R226) -/

/-- FENCE, FENCE.XP and WACK wait for what they cover and then complete (R222-R225, R212, R213); a release waits for the earlier loads and every tag,
and makes the strand's later stores releases at its scope; an acquire drops the core's L1 lines but those of SEALED pages, and takes over what
happened before the releases that the strand's earlier reads have read from, at a scope that pairs (R210, R213), of cell reads also for the copy
jobs enqueued later (R218); FENCE.XP also orders the copy jobs enqueued later behind all that the strand has done (R215); at core scope a fence does
nothing.
SEQ (R226): the number of unacknowledged tags, the oldest one or the successor of the latest, and the latest. -/
def Obligations.FencesAndSequenceWord : Prop :=
  (∀ (f : FormM) (s : State), Executes f.grd s →
    let quiet := s.loadsOut = false ∧ s.cur.unacked = [] ∧ s.cur.lost = []
    let fenced (c : Scp) : List Scp := c :: s.cur.fences.filter fun x => x != c
    let cleared (t : State) : Prop :=
      t.last = .seq ∧ (t.core s.cur.place).l1 = (s.core s.cur.place).l1.filter L1Line.isSealed
      ∧ (t.core s.cur.place).store = (s.core s.cur.place).store ∧ t.mem = s.mem
    let acquired (c : Scp) (v : View) : Prop :=
      (∀ p, View.upTo s.cur.view p ≤ View.upTo v p)
      ∧ ∀ r ∈ s.cur.heard, scopesPair r c (some (strandSpot s.mid s.cur)) = true → ∀ e ∈ r.view, e.2 ≤ View.upTo v e.1
    let acquiredForJobs (c : Scp) (v : View) : Prop :=
      (∀ p, View.upTo s.cur.jobView p ≤ View.upTo v p)
      ∧ ∀ r ∈ s.cur.heardCell, scopesPair r c (some (strandSpot s.mid s.cur)) = true → ∀ e ∈ r.view, e.2 ≤ View.upTo v e.1;
    (f.scp = .core → exec (.fence f) s = .next { s with last := .seq })
    ∧ (f.scp ≠ .core → f.ord = .rel → s.loadsOut = true ∨ s.cur.unacked ≠ [] → exec (.fence f) s = .next s.stall)
    ∧ (f.scp ≠ .core → f.ord = .rel → quiet →
        exec (.fence f) s = .next { s with cur := { s.cur with fences := fenced f.scp }, last := .seq })
    ∧ (f.scp ≠ .core → f.ord = .acq → s.loadsOut = true → exec (.fence f) s = .next s.stall)
    ∧ (f.scp ≠ .core → f.ord = .acq → s.loadsOut = false → ∃ t : State, exec (.fence f) s = .next t ∧ cleared t
        ∧ t.cur = { s.cur with view := t.cur.view, jobView := t.cur.jobView } ∧ acquired f.scp t.cur.view ∧ acquiredForJobs f.scp t.cur.jobView)
    ∧ (f.scp ≠ .core → f.ord = .ar → quiet → ∃ t : State, exec (.fence f) s = .next t ∧ cleared t
        ∧ t.cur = { s.cur with view := t.cur.view, fences := fenced f.scp, jobView := t.cur.jobView } ∧ acquired f.scp t.cur.view
        ∧ acquiredForJobs f.scp t.cur.jobView)
    ∧ (f.scp ≠ .core → f.ord = .ar → s.loadsOut = true ∨ s.cur.unacked ≠ [] → exec (.fence f) s = .next s.stall)
    ∧ (quiet → ∃ t : State, exec (.fenceXp f) s = .next t ∧ cleared t
        ∧ t.cur = { s.cur with view := t.cur.view, fences := fenced .pod, jobView := t.cur.jobView } ∧ acquired .pod t.cur.view
        ∧ acquiredForJobs .pod t.cur.jobView
        ∧ (∀ p, View.upTo t.cur.view p ≤ View.upTo t.cur.jobView p) ∧ s.fresh ≤ View.upTo t.cur.jobView (.strand s.cur.id))
    ∧ (s.loadsOut = true ∨ s.cur.unacked ≠ [] → exec (.fenceXp f) s = .next s.stall)
    ∧ (let covers := wackCovers s.cur.seqTag ((s.rdG f.gt).setWidth 16);
        (s.cur.unacked.any covers = true → exec (.wack f) s = .next s.stall)
        ∧ (s.cur.unacked.any covers = false → (∀ e ∈ s.cur.lost, covers e.1 = false) → exec (.wack f) s = .next { s with last := .seq })))
  ∧ (∀ (f : FormM) (s : State), Executes f.grd s → s.cur.unacked.length ≤ 256 →
    ∃ v : Word64, exec (.seq f) s = .next (s.putG f.gt v)
      ∧ v.extractLsb' 41 23 = 0
      ∧ (v.extractLsb' 32 9).toNat = s.cur.unacked.length
      ∧ (∀ t rest, s.cur.unacked = t :: rest → v.extractLsb' 16 16 = t)
      ∧ (s.cur.unacked = [] → v.extractLsb' 16 16 = if s.cur.seqTag = 65535 then 1 else s.cur.seqTag + 1)
      ∧ v.extractLsb' 0 16 = s.cur.seqTag)
/-! ### Global memory (spec/09_line.md R179, R186, R190, R198-R201, R206-R208; spec/13_page.md R270) -/

namespace Sys2Proof.Says

/-- An access that the issuing strand begins passes every check of R198: n bytes at va, aligned, at the place t in this module, on no typed granule; a
write finds its page MAPPED and may write it under HCUR. -/
def Reaches (s : State) (va : Word64) (n : Nat) (kind : Kind) (t : Target) : Prop :=
  s.cur.blocked = none ∧ va.extractLsb' 56 8 = 0 ∧ va.toNat % n = 0 ∧ s.translate s.cix (coreCluster s.cur.place) va kind = .ok t
    ∧ t.mid = s.mid ∧ (t.leaf.sync = true → (s.granule t.pa).tag = .free)
    ∧ (kind = .write → t.leaf.st = .mapped ∧ (s.cur.hcur.toNat % 4096 = 0 ∨ t.leaf.hyp = true))

/-- The home performs an access of n bytes at once on committed memory: nothing of the strand's own is ahead of it, the slice has the line or room to
bring it in, the line is sound and stands under the access's own key (R257), no access of another size is remembered there, no version and no device
region stands there. -/
def HomeIsQuiet (s : State) (t : Target) (n : Nat) (write : Bool) (p : Part) : Prop :=
  s.part? s.cix = some p ∧ s.inOrder t = true ∧ (s.sliceVisit (p.home t.pa) t write).isSome = true ∧ s.isBad t.pa = false ∧ t.leaf.hyp = false
    ∧ t.leaf.plc.isHostly = false ∧ p.inRegion t.pa n = false ∧ s.otherKey t.leaf.hsh t.pa = false ∧ s.lineVersions p.cix (lineOf t.pa) = []
    ∧ ∀ r ∈ s.recent, overlaps t.pa n r.pa r.size = true → r.size = n
/-- A further tagged operation may take its tag (R190, R225): fewer than 256 are out, and none lies 256 steps or more behind it. -/
def TagIsFree (s : State) : Prop :=
  s.cur.unacked.length < 256
    ∧ ∀ u ∈ s.cur.unacked, tagsBack (if s.cur.seqTag = 65535 then 1 else s.cur.seqTag + 1) u < 256

/-- The new value of an ATOM on w bits (R53, R200). -/
def atomSays (aop : Aop) (w : Nat) (old x : BitVec w) : BitVec w :=
  match aop with
  | .add => old + x
  | .and => old &&& x
  | .or => old ||| x
  | .xor => old ^^^ x
  | .min => if x.slt old then x else old
  | .max => if old.slt x then x else old
  | .umin => if x.ult old then x else old
  | .umax => if old.ult x then x else old
  | .xchg => x
  | .fadd => BitVec.ofNat w (roundTo fp32Format .rne false 0 (exactAdd .rne (decodeFloat fp32Format old.toNat) (decodeFloat fp32Format x.toNat))).1

/-- The value a load of n bytes writes to its register (R199). -/
def loaded (n : Nat) (signed : Bool) (v : Nat) : Word64 :=
  if signed then (BitVec.ofNat (8 * n) v).signExtend 64 else (BitVec.ofNat (8 * n) v).setWidth 64
/-- The same written: to the register, or to its pair for 16 bytes. -/
def loadTo (f : FormM) (n : Nat) (signed : Bool) (v : Nat) (s : State) : State :=
  if n = 16 then (s.wrG f.gt (BitVec.ofNat 64 v)).wrG (f.gt + 1) (BitVec.ofNat 64 (v / 2 ^ 64)) else s.wrG f.gt (loaded n signed v)

end Sys2Proof.Says

/-- LD and LDS (R199, R266): ALIGN and the translation's own fault come first; a plain load that the core's L1 serves takes its bytes from the line;
another of this module sends one read toward the home and goes on, and LOAD_RETURN writes the register; a load of a SYNC page, or an acquire wider
than the core, reads its home as it issues (R189, R212), or completes with the bytes of its answer when that home is another module. A plain load of
another module's page sends one read there and goes on in the same way, once that module has let the part use the frame (R189, R266; log 62). -/
def Obligations.GlobalLoads : Prop :=
  ∀ (f : FormM) (s : State), Executes f.grd s →
    let va := s.rdG f.gb + f.off.signExtend 64
    let n := szBytes f.sz
    (va.extractLsb' 56 8 = 0 → va.toNat % n ≠ 0 → exec (.ld f) s = .next (s.raise { code := .align, addr := va, info := 0 })
        ∧ exec (.lds f) s = exec (.ld f) s)
    ∧ (∀ e, s.cur.blocked = none → va.extractLsb' 56 8 = 0 → va.toNat % n = 0 → s.translate s.cix (coreCluster s.cur.place) va .read = .error e →
        exec (.ld f) s = .next (s.raise e) ∧ exec (.lds f) s = .next (s.raise e))
    ∧ (∀ t, ∀ (i : Instr) (sg : Bool), (i = .ld f ∧ sg = false) ∨ (i = .lds f ∧ sg = true) → Reaches s va n .read t →
        (t.leaf.sync = true ∨ f.ord = .acq ∧ f.scp ≠ .core → ∀ p, HomeIsQuiet s t n false p → ∃ u : State, exec i s = .next u ∧ u.last = .seq
          ∧ u.mem = s.mem ∧ u.cur.g = (loadTo f n sg (readNat s.mem t.pa n) s).cur.g ∧ (∀ c, (u.core c).store = (s.core c).store))
        ∧ (t.leaf.sync = false → ¬(f.ord = .acq ∧ f.scp ≠ .core) → s.lineQueued t = false →
          (∀ r ∈ s.recent, overlaps t.pa n r.pa r.size = true → r.size = n) →
          ∀ l, s.l1Find t = some l → ∃ h rc k, let r := loadTo f n sg (l.data.toNat / 256 ^ (t.pa % 128)) s
            exec i s = .next { r with cur := { r.cur with heard := h }, recent := rc, fresh := k, last := .seq })
        ∧ (t.leaf.sync = false → ¬(f.ord = .acq ∧ f.scp ≠ .core) → s.lineQueued t = false → s.l1Find t = none → s.replicaFind t = none →
          ∃ r : Request, exec i s = .next { s with net := s.net ++ [r], fresh := s.fresh + 1, last := .seq }
            ∧ r.id = s.fresh ∧ r.party = .strand s.cur.id ∧ r.target = t ∧ r.kind = .read n ∧ r.reply = .regs f.gt n sg ∧ r.tag = none
            ∧ r.hyp = s.cur.hcur ∧ r.done = false))
    ∧ (∀ t, ∀ (i : Instr) (sg : Bool), (i = .ld f ∧ sg = false) ∨ (i = .lds f ∧ sg = true) → va.extractLsb' 56 8 = 0 → va.toNat % n = 0 →
        t.mid ≠ s.mid → s.peerLost t.mid = false →
        (s.cur.blocked = none → s.translate s.cix (coreCluster s.cur.place) va .read = .ok t → t.leaf.sync = false → f.ord = .plain →
          s.lineQueued t = false → s.l1Find t = none →
          (s.frames.contains (s.cix, t.mid, t.leaf.frame, t.leaf.bits) = true → ∃ (r : Request) (o : Outgoing),
            exec i s = .next { s with net := s.net ++ [r], out := s.out ++ [o], fresh := s.fresh + 1, last := .seq }
              ∧ r.id = s.fresh ∧ r.party = .strand s.cur.id ∧ r.target = t ∧ r.kind = .read n ∧ r.reply = .regs f.gt n sg ∧ r.tag = none
              ∧ r.hyp = s.cur.hcur ∧ r.done = false)
          ∧ (s.frames.contains (s.cix, t.mid, t.leaf.frame, t.leaf.bits) = false → (∀ r ∈ s.net, r.reply ≠ .frame) →
            ∃ u : State, exec i s = .next u ∧ u.last = .stall ∧ u.cur = s.cur ∧ u.mem = s.mem ∧ u.out.length = s.out.length + 1))
        ∧ (t.leaf.sync = true → s.inOrder t = true →
          (s.cur.blocked = none → s.translate s.cix (coreCluster s.cur.place) va .read = .ok t →
            ∃ u : State, exec i s = .next u ∧ u.last = .stall ∧ u.cur.g = s.cur.g ∧ u.mem = s.mem ∧ u.cur.blocked.isSome = true
              ∧ u.out.length = s.out.length + 1)
          ∧ (∀ b x, f.ord = .plain → s.cur.blocked = some b → b.target = some t → t.va = va → b.answer = some (.data x) → ∃ h,
              let r := loadTo f n sg x.toNat s
              exec i s = .next { r with cur := { r.cur with heard := h }, last := .seq })))

/-- ST and an ATOM without a result (R190, R199, R200): the strand takes the next tag of the cycle 1 to 65,535, one request with the tag is on its way,
and no byte of memory changes yet; a 257th outstanding tag stalls, and one 256 steps or more past the oldest (R225); a SEALED page refuses. -/
def Obligations.PostedStores : Prop :=
  ∀ (f : FormM) (s : State), Executes f.grd s →
    let va := s.rdG f.gb + f.off.signExtend 64
    let n := szBytes f.sz
    let v := if n = 16 then (s.rdG f.gt).toNat + (s.rdG (f.gt + 1)).toNat * 2 ^ 64 else (s.rdG f.gt).toNat % 2 ^ (8 * n)
    (∀ t, Reaches s va n .write t → t.leaf.sync = false → f.ord = .plain → s.lineQueued t = false →
      (TagIsFree s →
        let tag := if s.cur.seqTag = 65535 then 1 else s.cur.seqTag + 1
        let posts (i : Instr) (kind : RequestKind) : Prop :=
          ∃ r, ∃ u : State, exec i s = .next u ∧ u.last = .seq ∧ u.cur = { s.cur with seqTag := tag, unacked := s.cur.unacked ++ [tag] }
            ∧ u.mem = s.mem ∧ (∀ c, (u.core c).store = (s.core c).store) ∧ u.net.length = s.net.length + 1 ∧ u.net.getLast? = some r
            ∧ r.party = .strand s.cur.id ∧ r.target = t ∧ r.kind = kind ∧ r.reply = .none ∧ r.tag = some tag ∧ r.done = false
        posts (.st f) (.write n (BitVec.ofNat 128 v))
        ∧ (f.gt = 0 → f.gx ≠ 0 → f.sz ≠ .q → posts (.atom f) (.atom f.aop n (BitVec.ofNat 128 ((s.rdG f.gx).toNat % 2 ^ (8 * n))))))
      ∧ (¬TagIsFree s → exec (.st f) s = .next s.stall))
    ∧ (∀ t, s.cur.blocked = none → va.extractLsb' 56 8 = 0 → va.toNat % n = 0 → s.translate s.cix (coreCluster s.cur.place) va .write = .ok t →
        t.leaf.st = .sealed → exec (.st f) s = .next (s.raise { code := .sealed, addr := va, info := 0 }))

/-- ATOM with a result and CAS at a quiet home of this module, in every order and scope (R200, R201, R212): the old value goes to the register, the new
one to memory, and no other byte of memory changes; a CAS whose expectation fails writes nothing. One that releases finds the strand's earlier loads
returned and its stores acknowledged. -/
def Obligations.AtomicsAtTheHome : Prop :=
  ∀ (f : FormM) (s : State), Executes f.grd s → Safe s → s.cur.blocked = none →
    (f.ord ∈ [.rel, .ar] → f.scp ≠ .core → s.loadsOut = false ∧ s.cur.unacked = [] ∧ s.cur.lost = []) →
    let va := s.rdG f.gb + f.off.signExtend 64
    let n := szBytes f.sz
    let w := 8 * n
    ∀ t p, Reaches s va n .write t → HomeIsQuiet s t n true p → n = 4 ∨ n = 8 →
      let old := BitVec.ofNat w (readNat s.mem t.pa n)
      (f.gt ≠ 0 ∨ t.leaf.sync = true ∨ f.ord ∈ [.acq, .ar] ∧ f.scp ≠ .core → ∃ u : State, exec (.atom f) s = .next u ∧ u.last = .seq
        ∧ (f.gt ≠ 0 → u.cur.g.get f.gt.toFin = old.setWidth 64)
        ∧ u.mem = writeNat s.mem t.pa (atomSays f.aop w old ((s.rdG f.gx).setWidth w)).toNat n
        ∧ ∀ a, a < t.pa ∨ t.pa + n ≤ a → readByte u.mem a = readByte s.mem a)
      ∧ (old = (s.rdG f.gt).setWidth w → ∃ u : State, exec (.cas f) s = .next u ∧ u.last = .seq
        ∧ u.mem = writeNat s.mem t.pa ((s.rdG f.gx).setWidth w).toNat n
        ∧ ∀ a, a < t.pa ∨ t.pa + n ≤ a → readByte u.mem a = readByte s.mem a)
      ∧ (old ≠ (s.rdG f.gt).setWidth w → ∃ u : State, exec (.cas f) s = .next u ∧ u.last = .seq ∧ u.mem = s.mem
        ∧ (f.gt ≠ 0 → u.cur.g.get f.gt.toFin = old.setWidth 64))

/-- PREF may be dropped and is dropped here (R206; log 21); L1INV drops one line of the core's L1 and L1INV without an address all of them (R208);
neither changes memory or a local store.
SEAL and UNSEAL of a SEALABLE page whose word 1 software has not overwritten (R207, R270): SEAL of a SEALED page with no store out, and UNSEAL of a
MAPPED one, complete with SGEN in G(GT); SEAL of a MAPPED page makes it SEALED, UNSEAL of a SEALED one makes it UNSEALING, the translation leaves
every TLB, and the strand waits (an UNSEAL behind a SEAL that waits for stores, and either behind an earlier one that waits its turn, has no effect
yet); a page that is not SEALABLE is PAGE_PERM. -/
def Obligations.PrefetchInvalidateSealUnseal : Prop :=
  (∀ (f : FormM) (s : State), Executes f.grd s →
    exec (.pref f) s = .next { s with last := .seq }
    ∧ (∀ t, s.translate s.cix (coreCluster s.cur.place) (s.rdG f.gb + f.off.signExtend 64) .read = .ok t →
        ∃ u : State, exec (.l1inv f) s = .next u ∧ u.last = .seq ∧ u.mem = s.mem ∧ u.cur = s.cur
          ∧ (u.core s.cur.place).l1 = (s.core s.cur.place).l1.filter (fun l => l.mid != t.mid || l.line != lineOf t.pa)
          ∧ (∀ c, (u.core c).store = (s.core c).store))
    ∧ ∃ u : State, exec (.l1invAll f) s = .next u ∧ u.last = .seq ∧ u.mem = s.mem ∧ u.cur = s.cur ∧ (u.core s.cur.place).l1 = []
        ∧ (∀ c, (u.core c).store = (s.core c).store))
  ∧ (∀ (f : FormM) (s : State), Executes f.grd s → s.cur.blocked = none →
    let va := s.rdG f.gb + f.off.signExtend 64
    ∀ t, s.translate s.cix (coreCluster s.cur.place) va .read = .ok t →
      let e := t.leaf.entry
      let st := readNat s.mem (e + 8) 8 / 2 ^ 32 % 4
      let sgen := BitVec.ofNat 32 (readNat s.mem (e + 8) 8)
      (t.leaf.sealable = false → exec (.seal f) s = .next (s.raise { code := .pagePerm, addr := va, info := 0 })
          ∧ exec (.unseal f) s = exec (.seal f) s)
      ∧ (t.leaf.sealable = true → s.scribbled.contains e = false → s.pageTurn e = true →
        (st = 1 → s.pageStores e = false → exec (.seal f) s = .next (s.putG f.gt (sgen.setWidth 64)))
        ∧ (st = 0 → exec (.unseal f) s = .next (s.putG f.gt (sgen.setWidth 64)))
        ∧ (∀ (i : Instr) (c : Nat), (i = .seal f ∧ st = 0 ∧ c = 1) ∨ (i = .unseal f ∧ st = 1 ∧ c = 2 ∧ s.sealsPending e = false) →
            ∃ u : State, exec i s = .next u ∧ u.last = .stall ∧ u.cur.blocked.isSome = true ∧ u.cur.g = s.cur.g
              ∧ u.mem = writeNat s.mem (e + 8) (c * 2 ^ 32 + sgen.toNat) 8 ∧ (∀ x ∈ u.tlb, x.leaf.entry ≠ e))))

/-! ### Local stores (R180, R181, R202, R203) -/

/-- LDL, STL, LDN and STN: ALIGN, then PAGE_PERM beyond the entry's local store, then PEER_GONE for a core that holds no strand of the launch; else the
bytes are read, or written, at the address computed, no other byte of any local store and no byte of memory changes. -/
def Obligations.LocalStoreAccesses : Prop :=
  ∀ (f : FormM) (s : State), Executes f.grd s → Safe s → f.sz ≠ .q →
    let va := s.rdG f.gb + f.off.signExtend 64
    let a := va.toNat
    let n := szBytes f.sz
    let x := (s.rdG f.gt).toNat % 2 ^ (8 * n)
    let stores (i : Instr) (loc : CoreLoc) : Prop :=
      ∃ u : State, exec i s = .next u ∧ u.last = .seq ∧ u.mem = s.mem ∧ u.cur = s.cur
        ∧ readNat (u.core loc).store a n = x
        ∧ (∀ b, b < a ∨ a + n ≤ b → readByte (u.core loc).store b = readByte (s.core loc).store b)
        ∧ ∀ c, c ≠ loc → u.core c = s.core c
    let faults (e : FaultInfo) : Prop := ∀ i ∈ [Instr.ldl f, .stl f, .ldn f, .stn f], exec i s = .next (s.raise e)
    (a % n ≠ 0 → faults { code := .align, addr := va, info := 0 })
    ∧ (a % n = 0 → s.storeLimit s.cur < a + n →
        ∀ (i : Instr) (w : Nat), (i = .ldl f ∨ i = .ldn f) ∧ w = 0 ∨ (i = .stl f ∨ i = .stn f) ∧ w = 1 →
          exec i s = .next (s.raise { code := .pagePerm, addr := va, info := BitVec.ofNat 64 w }))
    ∧ (a % n = 0 → a + n ≤ s.storeLimit s.cur →
        (s.storeBusy a n false = false → exec (.ldl f) s = .next (s.putG f.gt (BitVec.ofNat 64 (readNat (s.core s.cur.place).store a n))))
        ∧ (s.storeBusy a n true = false → stores (.stl f) s.cur.place)
        ∧ (s.storeBusy a n true = true → exec (.stl f) s = .next s.stall)
        ∧ (s.peerCore (s.rdG f.gx) = none → ∀ i ∈ [Instr.ldn f, .stn f],
            exec i s = .next (s.raise { code := .peerGone, addr := BitVec.ofNat 64 a, info := s.rdG f.gx }))
        ∧ (∀ loc, s.peerCore (s.rdG f.gx) = some loc → loc ≠ s.cur.place →
            exec (.ldn f) s = .next (s.putG f.gt (BitVec.ofNat 64 (readNat (s.core loc).store a n))) ∧ stores (.stn f) loc))

/-! ### Vector memory commands (R204, R205) -/

/-! ### Vector commands (spec/07_vector.md R140-R159) -/

namespace Sys2Proof.Says

/-- The instruction of each vector command. -/
def vecInstrOf (op : VecOp) (f : FormV) : Instr :=
  match op with
  | .vadd => .vadd f | .vsub => .vsub f | .vmul => .vmul f | .vfma => .vfma f | .vfms => .vfms f | .vmin => .vmin f | .vmax => .vmax f
  | .vabs => .vabs f | .vneg => .vneg f | .vrcp => .vrcp f | .vrsq => .vrsq f | .vsqrt => .vsqrt f | .vexp2 => .vexp2 f | .vlog2 => .vlog2 f
  | .vtanh => .vtanh f | .viadd => .viadd f | .visub => .visub f | .vimul => .vimul f | .vand => .vand f | .vor => .vor f | .vxor => .vxor f
  | .vshl => .vshl f | .vshr => .vshr f | .vshra => .vshra f | .vcmp => .vcmp f | .vsel => .vsel f | .mop => .mop f | .mpop => .mpop f
  | .vmov => .vmov f | .vbcast => .vbcast f | .vext => .vext f | .vperm => .vperm f | .vshuf => .vshuf f | .vslide => .vslide f
  | .vzip => .vzip f | .vred => .vred f | .vscan => .vscan f | .vdot => .vdot f | .vcvt => .vcvt f | .vqnt => .vqnt f | .vdq => .vdq f
  | .vlut => .vlut f | .vmac => .vmac f | .vclamp => .vclamp f

end Sys2Proof.Says

/-- VLD, VST, VLDG and VSTG with no bound register enqueue one command with what it captured, and change no v register and no byte yet.
Every vector compute instruction (VADD to VCLAMP, MOP and MPOP), with no bound source (R140, R100, R106): it enqueues one command with G(GS), LUTA,
LUTB and HCUR captured, a pending producer more on f[FD] where its result goes there, and every v, m and g register as it was; a full queue stalls;
a destination that would pass the budget is REG_BUDGET, an anchored one RCP_ANCHOR, and of VQNT's two destinations the second one's fault leaves the
first as it was (R140). -/
def Obligations.VectorEnqueues : Prop :=
  (∀ (f : FormM) (s : State), Executes f.grd s → s.cur.vq.length < 16 → f.gt.toNat < 48 → (∀ c ∈ s.cur.vq, c.holdsAt s.src.pc = false ∧ s.isEarlier c.stamp = true) →
    let v := f.gt.toNat
    let va := s.rdG f.gb + f.off.signExtend 64
    let free : Prop := (s.cur.vr v).held = true ∧ (s.cur.vr v).binding = none ∧ (s.cur.vr v).anchored = false ∧ s.cur.pinned v = false
    let queued (i : Instr) (p : VecCommand → Prop) : Prop :=
      ∃ c, ∃ u : State, exec i s = .next u ∧ u.last = .seq ∧ u.cur.vq = s.cur.vq ++ [c] ∧ p c ∧ c.hyp = s.cur.hcur ∧ c.pc = s.src.pc ∧ c.waiting = none
        ∧ u.cur.g = s.cur.g ∧ u.cur.v = s.cur.v ∧ u.mem = s.mem ∧ u.cores = s.cores ∧ u.net = s.net
    (va.toNat % 64 = 0 → va.toNat + 512 ≤ s.storeLimit s.cur →
      (free → s.boundSource v = false → queued (.vld f) fun c => c.action = .load f va.toNat ∧ c.ranges = [{ base := va.toNat, len := 512, write := false }])
      ∧ (s.boundSource v = false →
          queued (.vst f) fun c => c.action = .store f va.toNat ∧ c.ranges = [{ base := va.toNat, len := 512, write := true }]))
    ∧ (s.indexPending f = false → s.boundSource f.gx.toNat = false → s.boundSource v = false → s.src.hollow.contains f.gx.toNat = false →
      let chunks := (List.range 32).filter fun j => chunkActive f (s.src.m' f.msk.toNat) j
      let at_ (j : Nat) : Word64 := chunkAddr va (s.src.v' f.gx.toNat) j
      (free → (∀ j ∈ chunks, ∃ t, Reaches s (at_ j) 16 .read t ∧ t.leaf.sync = false) →
        queued (.vldg f) fun c => ∃ ts, c.action = .gather f ts ∧ ts.map Prod.fst = chunks ∧ ∀ x ∈ ts, Reaches s (at_ x.1) 16 .read x.2)
      ∧ (TagIsFree s → (∀ j ∈ chunks, ∃ t, Reaches s (at_ j) 16 .write t ∧ t.leaf.sync = false) →
        queued (.vstg f) fun c => ∃ ts tag, c.action = .scatter f ts tag ∧ tag = (if s.cur.seqTag = 65535 then 1 else s.cur.seqTag + 1)
          ∧ ts.map Prod.fst = chunks ∧ ∀ x ∈ ts, Reaches s (at_ x.1) 16 .write x.2)))
  ∧ (∀ (op : VecOp) (f : FormV) (s : State), Executes f.grd s → (∀ v ∈ vecSources op f, s.boundSource v = false) →
    (∀ c ∈ s.cur.vq, c.holdsAt s.src.pc = false) →
    (16 ≤ s.cur.vq.length → exec (vecInstrOf op f) s = .next s.stall)
    ∧ (s.cur.vq.length < 16 → ¬(op ∈ [.mpop, .vext, .vred, .vdot] ∧ 15 ≤ (s.cur.f' f.fd.toNat).producers.length) →
      ((∀ v ∈ vecDests op f, (s.cur.vr v).held = true ∧ (s.cur.vr v).binding = none ∧ (s.cur.vr v).anchored = false ∧ s.cur.pinned v = false) →
        ∃ c, ∃ u : State, exec (vecInstrOf op f) s = .next u ∧ u.last = .seq ∧ u.cur.vq = s.cur.vq ++ [c]
          ∧ c.action = .compute op f ∧ c.scalar = s.rdG f.gs ∧ c.luta = s.src.luta ∧ c.lutb = s.src.lutb ∧ c.hyp = s.cur.hcur
          ∧ u.cur.g = s.cur.g ∧ u.cur.k = s.cur.k ∧ u.cur.v = s.cur.v ∧ u.cur.m = s.cur.m ∧ u.mem = s.mem ∧ u.cores = s.cores
          ∧ (op ∈ [.mpop, .vext, .vred, .vdot] → f.fd.toNat < 4 →
              (u.cur.f' f.fd.toNat).producers.length = (s.cur.f' f.fd.toNat).producers.length + 1))
      ∧ (∀ v, (vecDests op f).head? = some v → (s.cur.vr v).anchored = false → s.cur.pinned v = false →
          (s.cur.vr v).held = false → s.cur.bud ≤ s.cur.heldCount →
          exec (vecInstrOf op f) s
            = .next (s.raise { code := .regBudget, addr := 0, info := BitVec.ofNat 64 (v + s.cur.bud * 256) }))
      ∧ (∀ v, (vecDests op f).head? = some v → (s.cur.vr v).anchored = true ∨ s.cur.pinned v = true →
          exec (vecInstrOf op f) s = .next (s.raise { code := .rcpAnchor, addr := 0, info := BitVec.ofNat 64 v }))
      ∧ (∀ v w, vecDests op f = [v, w] → (s.cur.vr v).anchored = false → s.cur.pinned v = false → ((s.cur.vr v).held = true ∨ s.cur.heldCount < s.cur.bud) →
          (s.cur.vr w).anchored = true ∨ s.cur.pinned w = true →
          exec (vecInstrOf op f) s = .next (s.raise { code := .rcpAnchor, addr := 0, info := BitVec.ofNat 64 w }))))

/-- VECTOR_COMMAND_RUN (R104, R142): a unit whose one ready head is a compute command of the issuing strand runs it: the command leaves the queue, VD
takes the result computed from the registers as they are and the captures, and the flags are raised; the unit of no core does nothing. -/
def Obligations.VectorUnitRunsTheHead : Prop :=
  ∀ (u : HalfLoc) (s : State) (c : VecCommand) (rest : List VecCommand) (op : VecOp) (f : FormV),
    (2 ≤ u.half → exec (.vectorCommandRun u) s = .next s)
    ∧ (u.half < 2 → coreHalf s.cur.place = u → s.cur.place.core < 8 → s.cur.onCore = true → s.cur.vq = c :: rest → c.action = .compute op f →
      c.waiting = none → s.footprintClear s.cur c.stamp c.ranges = true → (∀ t ∈ s.others, coreHalf t.place ≠ u) →
      ∃ t o, exec (.vectorCommandRun u) s = .next t ∧ o = computeVector op f (vecInputs s.cur f c.got c.scalar c.luta c.lutb)
        ∧ t.cur.vq = rest ∧ t.cur.vflags = s.cur.vflags ||| o.flags ∧ t.cur.g = s.cur.g ∧ t.mem = s.mem ∧ t.cores = s.cores ∧ t.others = s.others
        ∧ (∀ x, o.vd = some x → o.vb = none → f.vd.toNat < 48 → t.cur.v' f.vd.toNat = x ∧ ∀ r, r ≠ f.vd.toNat → t.cur.v' r = s.cur.v' r)
        ∧ (o.vd = none → o.vb = none → t.cur.v = s.cur.v)
        ∧ (∀ x, o.md = some x → f.vd.toNat < 8 → t.cur.m' f.vd.toNat = x))

/-- Element results (R138, R144, R146, R148): an active element of VADD is the sum rounded once, of VIADD the sum modulo 2^w, or clamped with SAT under
.sat, of VAND, VOR and VXOR the bitwise result; VSEL picks by mask; an inactive element keeps its value, or becomes zero under MZ. -/
def Obligations.VectorElements : Prop :=
  ∀ (f : FormV) (x : VecIn) (i : Nat), etSized f.et = true → i < etCount f.et →
    let w := 8 * etBytes f.et
    let el (v : VecBits) : BitVec w := v.extractLsb' (w * i) w
    let active : Prop := f.me = false ∨ x.msk.getLsbD (etBytes f.et * i) = true
    let result (op : VecOp) (r : BitVec w) : Prop := ∃ v, (computeVector op f x).vd = some v ∧ el v = r
    (active →
      result .vand (el x.va &&& el x.vb) ∧ result .vor (el x.va ||| el x.vb) ∧ result .vxor (el x.va ^^^ el x.vb) ∧ result .vmov (el x.va)
      ∧ (f.sat = false → result .viadd (el x.va + el x.vb) ∧ result .visub (el x.va - el x.vb) ∧ result .vimul (el x.va * el x.vb))
      ∧ (f.sat = true → f.imm = 1 → result .viadd (if (el x.va).toNat + (el x.vb).toNat < 2 ^ w then el x.va + el x.vb else BitVec.allOnes w))
      ∧ result .vadd (BitVec.ofNat w (roundTo (formatOf f.et) f.rm false (laneDraw f x i 0)
          (exactAdd f.rm (decodeFloat (formatOf f.et) (el x.va).toNat) (decodeFloat (formatOf f.et) (el x.vb).toNat))).1))
    ∧ (¬active → ∀ op ∈ [VecOp.vadd, .vsub, .vmul, .vfma, .viadd, .visub, .vimul, .vand, .vor, .vxor, .vshl, .vshr, .vshra, .vmov],
        result op (if f.mz then 0 else el x.vd))
    ∧ result .vsel (if x.msk.getLsbD (etBytes f.et * i) then el x.va else el x.vb)
/-! ### Cells (spec/14_cell.md R274-R298) -/

namespace Sys2Proof.Says

/-- The address and generation that a handle names. -/
def handleVa (h : Word64) : Word64 := (h.setWidth 56).setWidth 64
/-- A cell instruction's checks pass and nothing holds it back: the handle is aligned, its page is in this module at t, no earlier load or store
of the strand is outstanding, p is its part, and the cell's line is at hand and sound (R278, R283, R284). -/
def CellReached (f : FormY) (s : State) (t : Target) (p : Part) : Prop :=
  s.cur.blocked = none ∧ s.loadsOut = false ∧ s.cur.unacked = [] ∧ s.cur.lost = [] ∧ (handleVa (s.rdG f.gh)).toNat % 32 = 0
    ∧ s.translate s.cix (coreCluster s.cur.place) (handleVa (s.rdG f.gh)) .cell = .ok t ∧ t.mid = s.mid ∧ s.part? s.cix = some p
    ∧ (s.heat p t).isSome = true ∧ s.isBad t.pa = false
/-- A cell as it was but for the releases made on it, which a mutating operation adds to (R212, R213). -/
def SameCell (x g : Granule) : Prop := { x with rels := g.rels } = g
/-- The granule holds a live cell of a type at the handle's generation, owned by the root (R280, R284). -/
def LiveCell (f : FormY) (s : State) (t : Target) (tag : CellTag) : Prop :=
  let g := s.granule t.pa
  g.tag = tag ∧ g.dead = false ∧ g.own = 0 ∧ (s.rdG f.gh).toNat / 2 ^ 56 = g.gen.toNat % 256

/-- The instruction completes with a status code in G(GST), a value in another register where r names one, every other g register and every v and m
register as it was, and P of the state after it. -/
def EndsWith (o : Host.Outcome State Fault Refusal) (s : State) (f : FormY) (code : Nat) (r : Option (BitVec 6 × Word64)) (P : State → Prop) : Prop :=
  ∃ u : State, o = .next u ∧ u.last = .seq ∧ u.cur.status = .run ∧ u.cur.v = s.cur.v ∧ u.cur.m = s.cur.m ∧ u.cur.k = s.cur.k
    ∧ (∀ n : BitVec 6, n ≠ 0 → u.cur.g.get n.toFin =
        if n = f.gst then BitVec.ofNat 64 code else
        match r with
        | some (m, x) => if n = m then x else s.cur.g.get n.toFin
        | none => s.cur.g.get n.toFin)
    ∧ P u
/-- The instruction parks: the strand is PARKED under its live set, with one more wait on the granule (R96, R279, R281). -/
def Parks (o : Host.Outcome State Fault Refusal) (s : State) (f : FormY) (t : Target) (kind : WaitKind) (P : State → Prop) : Prop :=
  ∃ u : State, ∃ w : Wait, o = .next u ∧ u.cur.status = .parked ∧ u.cur.pls = f.ls ∧ u.waits = s.waits ++ [w] ∧ w.pa = (s.granule t.pa).pa ∧ w.who = s.cur.id
    ∧ w.kind = kind ∧ u.mem = s.mem ∧ P u
/-- There is room for a wait of so many entries at the home. -/
def HasRoom (s : State) (p : Part) (t : Target) (n : Nat) : Prop := s.waitRoom p (s.granule t.pa).pa n = true

/-- A barrier after an arrival, a drop or an adjustment that gives arr and exp (R301). -/
def BarrierAfter (s u : State) (t : Target) (arr exp : Nat) : Prop :=
  let g := s.granule t.pa
  let g' := u.granule t.pa
  let completes := exp ≤ arr ∧ (0 < arr ∨ s.waitsAt g.pa ≠ [])
  barExp g' = exp ∧ g'.tag = .barrier
    ∧ (completes → barPhase g' = barPhase g + 1 ∧ barArrived g' = 0 ∧ u.waitsAt g.pa = [])
    ∧ (¬completes → barPhase g' = barPhase g ∧ barArrived g' = arr ∧ u.waits = s.waits)

end Sys2Proof.Says

/-- Cell instructions fault before their home is asked: ALIGN, then the translation's own fault (R283, R284); a freed granule or one of another type is
TYPE, a generation that has passed is STALE, or STALE_HANDLE under F, and a DEAD cell answers DEAD. -/
def Obligations.CellChecksInOrder : Prop :=
  ∀ (f : FormY) (s : State) (i : Instr) (tag : CellTag), Executes f.grd s → s.cur.blocked = none → s.loadsOut = false → s.cur.unacked = [] →
    s.cur.lost = [] → (i = .ctrRd f ∧ tag = .counter ∨ i = .barArr f ∧ tag = .barrier ∨ i = .lckGive f ∧ tag = .lock ∨ i = .cndSig f ∧ tag = .cond
      ∨ i = .qClose f ∧ tag = .queue) →
    let hnd := s.rdG f.gh
    let va := handleVa hnd
    (va.toNat % 32 ≠ 0 → exec i s = .next (s.raise { code := .align, addr := va, info := 0 }))
    ∧ ∀ t p, CellReached f s t p →
        let g := s.granule t.pa
        (g.tag = .free → ∃ u : State, exec i s = .next u ∧ u.last = .faulted { code := .type, addr := va, info := 0 })
        ∧ (g.tag ≠ .free → hnd.toNat / 2 ^ 56 ≠ g.gen.toNat % 256 →
            (f.f = true → ∃ u : State, exec i s = .next u ∧ u.last = .faulted { code := .staleHandle, addr := va, info := hnd })
            ∧ (f.f = false → EndsWith (exec i s) s f 1 none fun u => u.cells = s.cells))
        ∧ (g.tag ≠ .free → hnd.toNat / 2 ^ 56 = g.gen.toNat % 256 → g.tag ≠ tag →
            ∃ u : State, ∃ e, exec i s = .next u ∧ u.last = .faulted e ∧ e.code = .type)
        ∧ (g.tag = tag → hnd.toNat / 2 ^ 56 = g.gen.toNat % 256 → g.dead = true → EndsWith (exec i s) s f 2 none fun _ => True)

/-- CELL.INIT of a FREE granule as a counter, a barrier, a lock, a condition or a queue (R288, R300, R308): the granule takes the type and its body,
owned by HCUR, and the handle goes to G(GV1); a granule that is not FREE is TYPE; a barrier of 0 or of 2^32 and more is ILLEGAL_OP.
CELL.KILL frees the granule of a live cell of any type but a queue with a new generation and leaves no wait on it (R287, R289; what the freed bytes
hold is free, log 9); CELL.QRY returns the word of R290 and changes no cell. -/
def Obligations.CellLife : Prop :=
  (∀ (f : FormY) (s : State), Executes f.grd s →
    let arg := s.rdG f.gv2
    let typ := f.imm.toNat % 8
    (typ = 2 → arg = 0 ∨ 2 ^ 32 ≤ arg.toNat → exec (.cellInit f) s = .next (s.raiseCode .illegalOp))
    ∧ ∀ t p, CellReached f s t p → (typ = 2 → arg ≠ 0 ∧ arg.toNat < 2 ^ 32) → (typ = 4 → f.imm.getLsbD 10 = false) →
        let g := s.granule t.pa
        let va := handleVa (s.rdG f.gh)
        let hnd : Word64 := BitVec.ofNat 64 (g.gen.toNat % 256 * 2 ^ 56 + va.toNat)
        let makes (P : State → Granule → Prop) : Prop := EndsWith (exec (.cellInit f) s) s f 0 (some (f.gv1, hnd)) fun u =>
          let n := u.granule t.pa
          P u n ∧ n.gen = g.gen ∧ n.own = s.cur.hcur.extractLsb' 0 12 ∧ n.ogen = s.cur.hcur.extractLsb' 12 8 ∧ n.dead = false ∧ n.psn = false
            ∧ n.abn = false ∧ u.mem = s.mem
        (g.tag ≠ .free → ∃ u : State, ∃ e, exec (.cellInit f) s = .next u ∧ u.last = .faulted e ∧ e.code = .type)
        ∧ (g.tag = .free →
          (typ = 1 → makes fun _ n => n.tag = .counter ∧ n.b1 = arg)
          ∧ (typ = 2 → makes fun _ n => n.tag = .barrier ∧ barExp n = arg.toNat ∧ barArrived n = 0 ∧ barPhase n = 0 ∧ barBroken n = false)
          ∧ (typ = 3 → makes fun _ n => n.tag = .lock ∧ lckHeld n = false ∧ n.b1 = 0)
          ∧ (typ = 5 →
              let la := arg.toNat % 2 ^ 56
              let l := s.granule (lineOf t.pa + la % 128)
              (la % 32 = 0 → la / 128 = va.toNat / 128 → la ≠ va.toNat → arg.toNat / 2 ^ 56 = l.gen.toNat % 256 → l.tag = .lock → l.dead = false →
                makes fun _ n => n.tag = .cond ∧ n.b1 = arg ∧ n.b2 = 0)
              ∧ (la % 32 ≠ 0 ∨ la / 128 ≠ va.toNat / 128 ∨ la = va.toNat →
                ∃ u : State, exec (.cellInit f) s = .next u ∧ u.last = .faulted { code := .type, addr := va, info := 0 }))
          ∧ (typ = 4 →
              let slots := (List.range ((2 ^ (f.imm.toNat / 8 % 32) * (8 * 2 ^ (f.imm.toNat / 256 % 4)) + 31) / 32)).map fun i => g.pa + 32 + 32 * i
              va.toNat % 2 ^ t.leaf.bits + 32 + 32 * slots.length ≤ 2 ^ t.leaf.bits → (∀ x ∈ slots, (s.granule x).tag = .free) →
                makes fun u n => n.tag = .queue ∧ qCount n = 0 ∧ qCapacity n = 2 ^ (f.imm.toNat / 8 % 32)
                  ∧ qSlotBytes n = 8 * 2 ^ (f.imm.toNat / 256 % 4) ∧ qClosed n = false ∧ qProducers n = 0 ∧ ∀ x ∈ slots, (u.granule x).tag = .qslot)))
  ∧ (∀ (f : FormY) (s : State), Executes f.grd s → Safe s → ∀ t p tag, CellReached f s t p → LiveCell f s t tag → tag ≠ .free → tag ≠ .qslot →
    let g := s.granule t.pa
    (tag ≠ .queue → EndsWith (exec (.cellKill f) s) s f 0 none fun u =>
        (u.granule t.pa).tag = .free ∧ (u.granule t.pa).gen = g.gen + 1 ∧ u.waitsAt g.pa = []
        ∧ ∀ a, a < g.pa ∨ g.pa + 32 ≤ a → readByte u.mem a = readByte s.mem a)
    ∧ (tag ≠ .queue ∨ g.b3.getLsbD 8 = false → ∃ v : Word64, EndsWith (exec (.cellQry f) s) s f 0 (some (f.gv1, v)) (fun u => u.mem = s.mem ∧ u.waits = s.waits ∧ u.granule t.pa = g)
        ∧ v.extractLsb' 48 16 = g.gen ∧ v.extractLsb' 28 12 = 0 ∧ v.getLsbD 7 = false ∧ v.getLsbD 6 = g.psn ∧ v.getLsbD 5 = g.abn
        ∧ v.getLsbD 4 = (decide (tag = .lock) && lckHeld g) ∧ v.toNat % 8 = tag.code))

/-- CTR.ADD, CTR.RD and CTR.WGE (R291-R294).
BAR.ARR, BAR.WT, BAR.ARW, BAR.DROP and BAR.ADJ (R299-R304). -/
def Obligations.CountersAndBarriers : Prop :=
  (∀ (f : FormY) (s : State), Executes f.grd s → ∀ t p, CellReached f s t p → LiveCell f s t .counter →
    let g := s.granule t.pa
    let sum := g.b1 + (s.rdG f.gv1 + f.imm.signExtend 64)
    let th := s.rdG f.gv1 + f.imm.setWidth 64
    EndsWith (exec (.ctrAdd f) s) s f 0 (some (f.gv2, g.b1)) (fun u => SameCell (u.granule t.pa) { g with b1 := sum } ∧ u.mem = s.mem
      ∧ (g.psn = false → ∀ w ∈ u.waits, w.pa = g.pa → ∀ x, w.kind = .counterGe x → sum.toNat < x.toNat))
    ∧ EndsWith (exec (.ctrRd f) s) s f 0 (some (f.gv1, g.b1)) (fun u => u.granule t.pa = g ∧ u.waits = s.waits ∧ u.mem = s.mem)
    ∧ (f.ls.toNat < s.liveCount →
      (g.psn = true → ∃ u : State, exec (.ctrWge f) s = .next u ∧ u.granule t.pa = g
        ∧ u.last = .faulted { code := .jobFault, addr := handleVa (s.rdG f.gh), info := s.rdG f.gh })
      ∧ (g.psn = false → th.toNat ≤ g.b1.toNat → EndsWith (exec (.ctrWge f) s) s f 0 none fun u => u.granule t.pa = g ∧ u.waits = s.waits)
      ∧ (g.psn = false → g.b1.toNat < th.toNat → HasRoom s p t 1 → Parks (exec (.ctrWge f) s) s f t (.counterGe th) fun u => u.granule t.pa = g)))
  ∧ (∀ (f : FormY) (s : State), Executes f.grd s → ∀ t p, CellReached f s t p → LiveCell f s t .barrier →
    let g := s.granule t.pa
    let arr := barArrived g
    let exp := barExp g
    let phase : Word64 := (barPhase g).setWidth 64
    (barBroken g = true → ∀ i ∈ [Instr.barArr f, .barDrop f, .barAdj f], EndsWith (exec i s) s f 3 none fun u => SameCell (u.granule t.pa) g)
    ∧ (barBroken g = false →
      (exp = 0 → EndsWith (exec (.barArr f) s) s f 7 none (fun u => SameCell (u.granule t.pa) g)
        ∧ EndsWith (exec (.barDrop f) s) s f 7 none fun u => SameCell (u.granule t.pa) g)
      ∧ (0 < exp → EndsWith (exec (.barDrop f) s) s f 0 (some (f.gv1, phase)) fun u => BarrierAfter s u t arr (exp - 1) ∧ u.mem = s.mem)
      ∧ (0 < exp → arr + 1 < 2 ^ 32 →
        EndsWith (exec (.barArr f) s) s f 0 (some (f.gv1, phase)) fun u => BarrierAfter s u t (arr + 1) exp ∧ u.mem = s.mem)
      ∧ (let e := (exp : Int) + (s.rdG f.gv1 + f.imm.signExtend 64).toInt
        (0 ≤ e → e < 2 ^ 32 → EndsWith (exec (.barAdj f) s) s f 0 none fun u => BarrierAfter s u t arr e.toNat ∧ u.mem = s.mem)
        ∧ (e < 0 ∨ 2 ^ 32 ≤ e → EndsWith (exec (.barAdj f) s) s f 6 none fun u => SameCell (u.granule t.pa) g))
      ∧ (f.ls.toNat < s.liveCount →
        ((barPhase g).toNat ≠ (s.rdG f.gv1).toNat % 2 ^ 32 → EndsWith (exec (.barWt f) s) s f 0 none fun u => u.granule t.pa = g)
        ∧ ((barPhase g).toNat = (s.rdG f.gv1).toNat % 2 ^ 32 → HasRoom s p t 1 →
          Parks (exec (.barWt f) s) s f t (.barrierPhase (barPhase g)) fun u => u.granule t.pa = g)
        ∧ (f.gv1 ≠ 0 → s.liveG f.ls f.gv1 = true → s.cur.ap = false → 0 < exp → arr + 1 < 2 ^ 32 →
          (exp ≤ arr + 1 → EndsWith (exec (.barArw f) s) s f 0 (some (f.gv1, phase)) fun u => BarrierAfter s u t (arr + 1) exp ∧ u.cur.ap = false)
          ∧ (arr + 1 < exp → HasRoom s p t 1 → Parks (exec (.barArw f) s) s f t (.barrierPhase (barPhase g)) fun u =>
              u.cur.ap = true ∧ u.cur.g.get f.gv1.toFin = phase ∧ barArrived (u.granule t.pa) = arr + 1))
        ∧ (f.gv1 = 0 ∨ s.liveG f.ls f.gv1 = false → exec (.barArw f) s = .next (s.raiseCode .illegalOp)))))

/-- LCK.TAKE, LCK.TRY and LCK.GIVE (R295, R296): a free lock is taken, an abandoned one with ABANDONED; a held one makes a take park with the next
ticket and a try answer FULL; giving passes it to the waiter next in turn or frees it.
CND.WAIT, CND.SIG and CND.ALL (R297, R298): a wait parks and passes the lock on; a signal with no waiter gives 0, with one it moves that waiter to
the lock, which it takes at once when it is free. -/
def Obligations.LocksAndConditions : Prop :=
  (∀ (f : FormY) (s : State), Executes f.grd s → ∀ t p, CellReached f s t p → LiveCell f s t .lock →
    let g := s.granule t.pa
    let waits := s.waitsAt g.pa
    (lckHeld g = false → ∀ i : Instr, i = .lckTry f ∨ (i = .lckTake f ∧ f.ls.toNat < s.liveCount) →
      EndsWith (exec i s) s f (if g.abn then 4 else 0) none fun u => lckHeld (u.granule t.pa) = true ∧ (u.granule t.pa).held = some s.cur.id
        ∧ (u.granule t.pa).abn = false ∧ u.waits = s.waits ∧ u.mem = s.mem)
    ∧ (lckHeld g = true →
      EndsWith (exec (.lckTry f) s) s f 6 none (fun u => u.granule t.pa = g)
      ∧ (f.ls.toNat < s.liveCount → HasRoom s p t 1 → Parks (exec (.lckTake f) s) s f t (.lockTurn (lckNext g)) fun u =>
          lckNext (u.granule t.pa) = lckNext g + 1 ∧ lckServe (u.granule t.pa) = lckServe g)
      ∧ (waits = [] → EndsWith (exec (.lckGive f) s) s f 0 none fun u => lckHeld (u.granule t.pa) = false ∧ (u.granule t.pa).held = none
          ∧ (u.granule t.pa).abn = false ∧ u.mem = s.mem)
      ∧ (∀ w n, waits = [w] → w.kind = .lockTurn n → w.mid = s.mid → EndsWith (exec (.lckGive f) s) s f 0 none fun u =>
          (u.granule t.pa).held = some w.who ∧ lckServe (u.granule t.pa) = n ∧ u.waitsAt g.pa = []
          ∧ ∃ k ∈ u.wakes, k.who = w.who ∧ k.res = .status .ok 0))
    ∧ (lckHeld g = false → EndsWith (exec (.lckGive f) s) s f 7 none fun u => SameCell (u.granule t.pa) g))
  ∧ (∀ (f : FormY) (s : State), Executes f.grd s → ∀ t p, CellReached f s t p → LiveCell f s t .cond →
    let g := s.granule t.pa
    (s.waitsAt g.pa = [] → ∀ i ∈ [Instr.cndSig f, .cndAll f], EndsWith (exec i s) s f 0 (some (f.gv1, 0)) fun u => u.waits = s.waits)
    ∧ (∀ w, s.waitsAt g.pa = [w] → w.kind = .condTurn → w.mid = s.mid → (lockOfCond s g).pa ≠ g.pa → (lockOfCond s g).tag = .lock →
        lckHeld (lockOfCond s g) = false → ∀ i ∈ [Instr.cndSig f, .cndAll f],
        EndsWith (exec i s) s f 0 (some (f.gv1, 1)) fun u => u.waitsAt g.pa = [] ∧ (u.granule (lockOfCond s g).pa).held = some w.who
          ∧ ∃ k ∈ u.wakes, k.who = w.who)
    ∧ (f.ls.toNat < s.liveCount → HasRoom s p t 1 → (lockOfCond s g).pa ≠ g.pa → s.waitsAt (lockOfCond s g).pa = [] →
        Parks (exec (.cndWait f) s) s f t .condTurn fun u =>
          (u.granule t.pa).b2 = g.b2 + 1 ∧ lckHeld (u.granule (lockOfCond s g).pa) = false))

/-! ### Queues (spec/16_queue.md R306-R325) -/

namespace Sys2Proof.Says

/-- The item's length in bytes, and the local-store operand of SRC = ls as R311 allows it. -/
def itemBytes (f : FormY) : Nat := match f.src with
  | .one => 8
  | .two => 16
  | .ls => 8 * 2 ^ (f.imm.toNat % 4)
def ItemReady (f : FormY) (s : State) (write : Bool) : Prop :=
  f.src = .ls → (s.rdG f.gl).toNat % itemBytes f = 0 ∧ (s.rdG f.gl).toNat + itemBytes f ≤ s.storeLimit s.cur
    ∧ s.storeBusy (s.rdG f.gl).toNat (itemBytes f) write = false
/-- The item a put sends (R311). -/
def itemSays (f : FormY) (s : State) : LineBits := match f.src with
  | .one => (s.rdG f.gv1).setWidth 512
  | .two => ((s.rdG f.gv2) ++ (s.rdG f.gv1)).setWidth 512
  | .ls => BitVec.ofNat 512 (readNat (s.core s.cur.place).store (s.rdG f.gl).toNat (itemBytes f))
/-- An open queue of no launch and no governor (R306, R324). -/
def PlainQueue (g : Granule) : Prop := qClosed g = false ∧ qLaunch g = false ∧ g.b3.getLsbD 8 = false

end Sys2Proof.Says

/-- Q.PUT, Q.TAKE and their tries (R309-R317): an item goes to the slot at TAIL, and no other byte of memory changes; the item at HEAD goes to its
destination; a full or an empty queue parks the waiting form and answers FULL or EMPTY to the trying one; a closed and empty one answers END. A take
is told while the part holds no fault record, which a take from the fault queue would put again (R357).
Q.JOIN counts one producer more, Q.CLOSE one fewer, and the last one closes the queue (R316); the governor form is the foreman's, and binds the
launch queue with its limits (R324). -/
def Obligations.QueueOperations : Prop :=
  (∀ (f : FormY) (s : State), Executes f.grd s → Safe s → s.familyOf s.cur.id = none → s.cur.fmn = false → ∀ t p, CellReached f s t p → LiveCell f s t .queue →
    let g := s.granule t.pa
    let slot (n : BitVec 32) := g.pa + 32 + n.toNat % qCapacity g * qSlotBytes g
    let n := qSlotBytes g
    let live := f.ls.toNat < s.liveCount
    (PlainQueue g →
      (ItemReady f s false → itemBytes f ≤ n → s.waitsAt g.pa = [] →
        (qCount g < qCapacity g → ∀ i : Instr, i = .qTryput f ∨ i = .qPut f ∧ live →
          EndsWith (exec i s) s f 0 none fun u => u.mem = writeNat s.mem (slot (qTail g)) (itemSays f s).toNat n
            ∧ qTail (u.granule t.pa) = qTail g + 1 ∧ qHead (u.granule t.pa) = qHead g
            ∧ ∀ a, a < slot (qTail g) ∨ slot (qTail g) + n ≤ a → readByte u.mem a = readByte s.mem a)
        ∧ (qCapacity g ≤ qCount g → EndsWith (exec (.qTryput f) s) s f 6 none (fun u => u.mem = s.mem)
          ∧ (live → HasRoom s p t (putEntries (itemBytes f)) →
              Parks (exec (.qPut f) s) s f t (.queuePut (itemSays f s)) fun u => SameCell (u.granule t.pa) g)))
      ∧ (ItemReady f s true → s.waitsAt g.pa = [] → f.src = .one → p.buffer = [] →
        (0 < qCount g → ∀ i : Instr, i = .qTrytake f ∨ i = .qTake f ∧ live →
          EndsWith (exec i s) s f 0 (some (f.gv1, BitVec.ofNat 64 (readNat s.mem (slot (qHead g)) n))) fun u =>
            u.mem = s.mem ∧ qHead (u.granule t.pa) = qHead g + 1 ∧ qTail (u.granule t.pa) = qTail g)
        ∧ (qCount g = 0 → EndsWith (exec (.qTrytake f) s) s f 7 none (fun u => u.granule t.pa = g)
          ∧ (live → HasRoom s p t 1 → Parks (exec (.qTake f) s) s f t .queueTake fun u => SameCell (u.granule t.pa) g))))
    ∧ (qClosed g = true → qLaunch g = false → g.b3.getLsbD 8 = false →
        (ItemReady f s false → itemBytes f ≤ n → EndsWith (exec (.qTryput f) s) s f 5 none fun u => u.mem = s.mem)
        ∧ (ItemReady f s true → qCount g = 0 → EndsWith (exec (.qTrytake f) s) s f 5 none fun u => u.mem = s.mem)))
  ∧ (∀ (f : FormY) (s : State), Executes f.grd s → ∀ t p, CellReached f s t p → LiveCell f s t .queue →
    let g := s.granule t.pa
    (g.b3.getLsbD 8 = false →
      (qClosed g = false → qProducers g < 65535 → EndsWith (exec (.qJoin f) s) s f 0 none fun u => qProducers (u.granule t.pa) = qProducers g + 1)
      ∧ (qClosed g = true → EndsWith (exec (.qJoin f) s) s f 5 none fun u => SameCell (u.granule t.pa) g)
      ∧ (qProducers g = 0 → EndsWith (exec (.qClose f) s) s f 7 none fun u => SameCell (u.granule t.pa) g)
      ∧ (1 < qProducers g → EndsWith (exec (.qClose f) s) s f 0 none fun u =>
          qProducers (u.granule t.pa) = qProducers g - 1 ∧ qClosed (u.granule t.pa) = qClosed g)
      ∧ (qProducers g = 1 → EndsWith (exec (.qClose f) s) s f 0 none fun u => qProducers (u.granule t.pa) = 0 ∧ qClosed (u.granule t.pa) = true))
    ∧ (s.cur.fmn = false → exec (.qJoinGovernor f) s = .next (s.raiseCode .illegalOp))
    ∧ (s.cur.fmn = true → s.rdG f.gv2 = 0 → ItemReady f s false → qLaunch g = false →
        EndsWith (exec (.qJoinGovernor f) s) s f 0 none fun u => (u.granule t.pa).b3.getLsbD 8 = false)
    ∧ (∀ q, s.cur.fmn = true → governorOk (s.rdG f.gv2) = true → s.rdG f.gv2 ≠ 0 → ItemReady f s false → qLaunch g = false →
        p.queues.find? (fun q => q.handle == s.rdG f.gv1) = some q → (s.granule q.pa).tag = .queue → (s.granule q.pa).dead = true →
        ∃ u : State, ∃ e, exec (.qJoinGovernor f) s = .next u ∧ u.last = .faulted e ∧ e.code = .type)
    ∧ (∀ q, s.cur.fmn = true → governorOk (s.rdG f.gv2) = true → s.rdG f.gv2 ≠ 0 → ItemReady f s false → qLaunch g = false →
        p.queues.find? (fun q => q.handle == s.rdG f.gv1) = some q → q.lqi < 64 → (s.granule q.pa).tag = .queue → (s.granule q.pa).dead = false →
        p.governors.length < 64 → qCount g < fieldNat (s.rdG f.gv2) 0 16 →
        EndsWith (exec (.qJoinGovernor f) s) s f 0 none fun u =>
          let b := (u.granule t.pa).b3
          b.getLsbD 8 = true ∧ fieldNat b 48 16 = fieldNat (s.rdG f.gv2) 0 16 ∧ fieldNat b 32 16 = fieldNat (s.rdG f.gv2) 16 16
            ∧ fieldNat b 24 8 = fieldNat (s.rdG f.gv2) 32 8 ∧ fieldNat b 10 6 = q.lqi))
/-! ### Tile commands (spec/08_tile.md R160-R177) -/

namespace Sys2Proof.Says

/-- Every page that a window operand of these ranges touches is translated for kind into the window of the core's own cluster; one to be written
is MAPPED, and HCUR may write it (R166 steps 3 and 4). -/
def WindowReached (s : State) (rs : List Range) (kind : Kind) : Prop :=
  ∀ x ∈ pageTouches rs [], ∃ t, s.translate s.cix (coreCluster s.cur.place) (BitVec.ofNat 64 x) kind = .ok t
    ∧ s.inWindow (coreCluster s.cur.place) t.leaf = true ∧ (kind = .write → t.leaf.st = .mapped ∧ (s.cur.hcur.toNat % 4096 = 0 ∨ t.leaf.hyp = true))

end Sys2Proof.Says

/-- MMA, MMAZ, MZERO, MOVC and MOVCV at enqueue (R166, R167, R171, R172): the descriptor checks come first and name the slot; with every check passed
one command is queued with its descriptors, LUTA and LUTB captured, and one pending producer more on f[FD] for MOVC and MOVCV; no register,
accumulator or byte changes yet. A full queue stalls.
MDESC, LUTLD, MGEO, MWAIT and MWT (R174-R177). The loads are told where the core's L1 serves them. The tile of MGEO has the fields of R175, or only
NONE; with KSLC = 0 the spec states no quotient, and the result is free (log 64). -/
def Obligations.TileIssue : Prop :=
  (∀ (f : FormX) (s : State), Executes f.grd s → s.vaultFull (coreCluster s.cur.place) 1 = false →
    let a := s.src.d' f.da.toNat
    let b := s.src.d' f.db.toNat
    let d := s.src.d' f.dc.toNat
    let la := ((s.rdG f.gl).toNat + f.loff.toNat * 64) % 2 ^ 64
    let va := ((s.rdG f.gw).toNat + f.woff.toNat * 1024) % 2 ^ 64
    let desc (slot : BitVec 4) : FaultInfo := { code := .desc, addr := 0, info := slot.setWidth 64 }
    let queued (i : Instr) (op : TileOp) (P : TileCommand → State → Prop) : Prop :=
      ∃ c, ∃ u : State, exec i s = .next u ∧ u.last = .seq ∧ u.cur.tq = s.cur.tq ++ [c] ∧ c.op = op ∧ c.form = f ∧ c.running = false ∧ c.void = false
        ∧ c.luta = s.src.luta ∧ c.lutb = s.src.lutb ∧ u.cur.g = s.cur.g ∧ u.cur.c = s.cur.c ∧ u.cur.d = s.cur.d ∧ u.mem = s.mem
        ∧ u.cores = s.cores ∧ P c u
    let producer (u : State) : Prop := (u.cur.f' f.fd.toNat).producers.length = (s.cur.f' f.fd.toNat).producers.length + 1
    (descKind a ≠ 1 → exec (.mma f) s = .next (s.raise (desc f.da)) ∧ exec (.mmaz f) s = .next (s.raise (desc f.da)))
    ∧ (descKind a = 1 → descKind b ≠ 1 → exec (.mma f) s = .next (s.raise (desc f.db)) ∧ exec (.mmaz f) s = .next (s.raise (desc f.db)))
    ∧ (descKind d ≠ 1 ∨ descFmt d ≠ some f.et ∨ f.et = .lut4 → exec (.movc f) s = .next (s.raise (desc f.dc)))
    ∧ (descKind d ≠ 1 ∨ descFmt d ≠ some f.et ∨ f.et = .lut4 ∨ f.et = .e2m1x → exec (.movcv f) s = .next (s.raise (desc f.dc)))
    ∧ (s.cur.tq.length < 8 → queued (.mzero f) .mzero fun _ _ => True)
    ∧ (8 ≤ s.cur.tq.length → exec (.mzero f) s = .next s.stall)
    ∧ (∀ ea eb, descKind a = 1 → descKind b = 1 → descFmt a = some ea → descFmt b = some eb → tileGroup ea = tileGroup eb →
        tileGroup ea ≠ .none → descKdep a = descKdep b →
        let mm (i : Instr) (op : TileOp) : Prop :=
          (la % 64 ≠ 0 → exec i s = .next (s.raise { code := .align, addr := BitVec.ofNat 64 la, info := 0 }))
          ∧ (la % 64 = 0 → va % 1024 = 0 → WindowReached s (rangesB va b eb) .read → (∀ r ∈ rangesA la a ea, r.base + r.len ≤ s.storeLimit s.cur) →
            s.cur.tq.length < 8 →
            queued i op fun c _ => c.descA = a ∧ c.descB = b ∧ c.la = la ∧ c.va = va ∧ c.ranges = rangesA la a ea)
        mm (.mma f) .mma ∧ mm (.mmaz f) .mmaz)
    ∧ (descKind d = 1 → descFmt d = some f.et → f.et ≠ .lut4 → s.cur.tq.length < 8 → (s.cur.f' f.fd.toNat).producers.length < 15 →
        (la % 64 = 0 → (∀ r ∈ rangesC la d f.et, r.base + r.len ≤ s.storeLimit s.cur) →
          queued (.movc f) .movc fun c u => c.descA = d ∧ c.la = la ∧ c.ranges = rangesC la d f.et ∧ producer u)
        ∧ (f.et ≠ .e2m1x → va % 1024 = 0 → WindowReached s (rangesC va d f.et) .write →
          queued (.movcv f) .movcv fun c u => c.descA = d ∧ c.va = va ∧ producer u)))
  ∧ (∀ (f : FormX) (s : State), Executes f.grd s →
    let a := s.rdG f.gc
    let d := s.src.d' f.da.toNat
    (∀ t l, s.lineQueued t = false → s.l1Find t = some l →
      let v := l.data.toNat / 256 ^ (t.pa % 128)
      (Reaches s a 64 .read t →
        (descOk (BitVec.ofNat 512 v) = true → ∃ u : State, exec (.mdesc f) s = .next u ∧ u.last = .seq ∧ u.mem = s.mem ∧ u.cores = s.cores
          ∧ u.cur.d' f.da.toNat = BitVec.ofNat 512 v ∧ u.cur = { s.cur with d := u.cur.d, heard := u.cur.heard } ∧ ∀ n, n ≠ f.da.toNat → u.cur.d' n = s.cur.d' n)
        ∧ (descOk (BitVec.ofNat 512 v) = false → ∃ h rc k, exec (.mdesc f) s =
          .next (({ s with cur := { s.cur with heard := h }, recent := rc, fresh := k } : State).raise
            { code := .desc, addr := a, info := f.da.setWidth 64 })))
      ∧ (Reaches s a 16 .read t → (∀ r ∈ s.recent, overlaps t.pa 16 r.pa r.size = true → r.size = 16) →
        ∃ h rc k, exec (.lutld f) s =
          .next { s with cur := { s.cur with luta := BitVec.ofNat 64 v, lutb := BitVec.ofNat 64 (v / 2 ^ 64), heard := h }
                         recent := rc, fresh := k, last := .seq }))
    ∧ (a.toNat % 64 ≠ 0 → exec (.mdesc f) s = .next (s.raise { code := .align, addr := a, info := 0 }))
    ∧ (a.toNat % 16 ≠ 0 → exec (.lutld f) s = .next (s.raise { code := .align, addr := a, info := 0 }))
    ∧ (descKind d ≠ 1 → exec (.mgeo f) s = .next (s.raise { code := .desc, addr := 0, info := f.da.setWidth 64 }))
    ∧ (descKind d = 1 → descKslc d = 0 → ∃ x : Word64, exec (.mgeo f) s = .next (s.bump.putG f.gc x))
    ∧ (descKind d = 1 → tileDescOk d = true → descKslc d ≠ 0 →
        let p := descK d / descKslc d
        let tm := (descM d + 15) / 16
        let tn := (descN d + 255) / 256
        let t := s.cur.strandIndex + (s.rdG f.gl).toNat * (s.cur.nx.toNat * s.cur.ny.toNat * s.cur.nz.toNat * s.cur.scnt)
        let row0 := 16 * (if descTord d = 0 then t / p / tn else t / p % tm)
        let col0 := 256 * (if descTord d = 0 then t / p % tn else t / p / tm)
        ∃ x : Word64, exec (.mgeo f) s = .next (s.putG f.gc x)
          ∧ (tm * tn * p ≤ t → x = BitVec.twoPow 64 63)
          ∧ (t < tm * tn * p → x.getLsbD 63 = false ∧ fieldNat x 60 3 = t % p ∧ fieldNat x 0 24 = row0 ∧ fieldNat x 24 24 = col0
              ∧ fieldNat x 48 4 + 1 = Nat.min 16 (descM d - row0) ∧ fieldNat x 52 8 + 1 = Nat.min 256 (descN d - col0)))
    ∧ (s.cur.tq = [] → exec (.mwait f) s = .next { s with last := .seq })
    ∧ (s.cur.tq ≠ [] → exec (.mwait f) s = .next s.stall)
    ∧ exec (.mwt f) s = .next { s with cur := { s.cur with weight := Nat.max 1 (Nat.min 15 (s.rdG f.gc).toNat) }, last := .seq })

/-- TILE_COMMAND_START and TILE_COMMAND_RETIRE where one strand of the cluster has commands (R87, R168, R170, R172): the head starts and its operand
bytes are read; when it retires, MZERO clears the accumulator, an integer MMA adds the exact sum of products modulo 2^32 and MMAZ starts from 0,
MOVC writes the local store; a voided command only leaves the queue, and its pending f count is withdrawn. -/
def Obligations.MatrixUnitStartsAndRetires : Prop :=
  ∀ (s : State) (c : TileCommand) (rest : List TileCommand), s.cur.onCore = true → s.cur.place.core < 8 → s.cur.tq = c :: rest →
    (∀ t ∈ s.others, t.tq = []) →
    (c.running = false → rest.all (fun c => !c.running) = true → s.badLines = [] → s.footprintClear s.cur c.stamp c.ranges = true →
      s.vaultClear s.cur.place c.stamp c.vranges = true →
      ∃ u : State, ∃ c', exec (.tileCommandStart (coreCluster s.cur.place)) s = .next u ∧ u.cur.tq = c' :: rest ∧ c'.running = true
        ∧ u.cur.c = s.cur.c ∧ u.cur.g = s.cur.g ∧ u.mem = s.mem ∧ u.cores = s.cores ∧ u.others = s.others
        ∧ (c.op = .mma ∨ c.op = .mmaz → c' = { c with running := true, bytesA := c'.bytesA, bytesB := c'.bytesB }
            ∧ ∀ r ∈ c.ranges, ∀ x, r.base ≤ x → x < r.base + r.len →
                operandByte c'.bytesA x = (readByte (s.core s.cur.place).store x).toNat)
        ∧ (c.op ≠ .mma → c.op ≠ .mmaz → c' = { c with running := true }))
    ∧ (c.running = true →
      ∃ u : State, exec (.tileCommandRetire s.cur.place) s = .next u ∧ u.cur.tq = rest ∧ u.cur.g = s.cur.g ∧ u.cur.v = s.cur.v ∧ u.others = s.others
        ∧ (∀ n, n ≠ c.form.ca.toNat → u.cur.c' n = s.cur.c' n)
        ∧ (c.void = true →
            u = { s with cur := { (if c.op = .movc ∨ c.op = .movcv then s.cur.withdraw c.form.fd.toNat c.stamp else s.cur) with tq := rest } })
        ∧ (c.void = false →
          (c.op ≠ .movcv → u.mem = s.mem) ∧ (c.op ≠ .movc ∧ c.op ≠ .movcv → u.cores = s.cores)
          ∧ (c.op = .mzero → u.cur.c' c.form.ca.toNat = 0)
          ∧ (∀ ea eb, c.op = .mma ∧ s.cur.accKind c.form.ca.toNat ≠ .float ∨ c.op = .mmaz → descFmt c.descA = some ea → descFmt c.descB = some eb →
              tileGroup ea = .int → ∀ i n, i < 16 → n < 256 →
              (u.cur.c' c.form.ca.toNat).extractLsb' (32 * (256 * i + n)) 32
                = (if c.op = .mmaz then 0 else (s.cur.c' c.form.ca.toNat).extractLsb' (32 * (256 * i + n)) 32)
                  + BitVec.ofInt 32 ((List.range (descKdep c.descA)).map fun k =>
                      elementInt (operandA c.bytesA c.la c.descA ea) ea c.luta c.lutb i k
                        * elementInt (operandB c.bytesB c.va c.descB eb) eb c.luta c.lutb n k).sum)
          ∧ (c.op = .movc → (u.core s.cur.place).store = writeBytes (s.core s.cur.place).store (movcBytes c c.la (s.cur.c' c.form.ca.toNat)).1
              ∧ (∀ l, l ≠ s.cur.place → u.core l = s.core l) ∧ u.cur.c = s.cur.c)))
/-! ### Copy jobs (spec/11_copy.md R227-R244) -/

namespace Sys2Proof.Says

/-- The instruction of each copy operation. -/
def copyInstrOf (op : CopyOp) (f : FormC) : Instr :=
  match op with
  | .cpy => .cpy f
  | .cpyc => .cpyc f
  | .cpym => .cpym f
  | .cpyg => .cpyg f
  | .cpys => .cpys f
  | .cpyr => .cpyr f
/-- Jobs of a strand that stand in its core's copy queue. -/
def queuedJobs (s : State) (who : StrandId) : Nat := countWhere (fun (j : Job) => j.st == .queued && decide (j.who = who)) s.jobs
/-- Alone in the machine: no other strand, no other job, no request in flight. -/
def OnlyJob (s : State) (j : Job) : Prop := s.others = [] ∧ s.jobs = [j] ∧ s.net = [] ∧ j.who = s.cur.id ∧ j.place = s.cur.place
  ∧ s.cur.place.core < 8

end Sys2Proof.Says

/-- CPY, CPYC, CPYM, CPYG, CPYS and CPYR at enqueue (R228, R229): the layout check, then alignment, each fault precise; with the layout of R228, aligned
operands, no side in the vault window, the local rows below the entry's local store and the peers present, one QUEUED job is made with what it
captured and the next identifier, and no register but the job count and no byte changes; a copy of no length is placed as one byte is. A full queue
stalls.
CPYQ reads the strand's job count or the state of a job in the form of R243; CPYK ends a live job whose writes are performed, which posts as GK
asks, waits for one whose writes are not, and does nothing to any other (R232, R244). -/
def Obligations.CopyIssue : Prop :=
  (∀ (op : CopyOp) (f : FormC) (s : State), Executes f.grd s →
    let i := copyInstrOf op f
    let d := s.src.d' f.ds.toNat
    let src := s.rdG f.gs
    let dst := s.rdG f.gd
    let len := if f.gn = 0 then f.len.toNat else (s.rdG f.gn).toNat
    let unit := if op = .cpyr then etBytes f.et else 16
    let indexed := op = .cpyg ∨ op = .cpys
    let rows := if descKind d = 0 then 1 else descRows d
    let n := Nat.max 1 (if descKind d = 0 then len else descBlk d)
    let desc : Prop := exec i s = .next (s.raise { code := .desc, addr := 0, info := f.ds.setWidth 64 })
    (descKind d ≠ 0 → descKind d ≠ 2 → desc)
    ∧ (descKind d = 2 → f.gn ≠ 0 ∨ f.len ≠ 0 → desc)
    ∧ (f.gn ≠ 0 → 2 ^ 32 < len → desc)
    ∧ (descKind d = 0 → indexed ∨ op = .cpyc → desc)
    ∧ ((descKind d = 0 ∧ op ∈ [.cpy, .cpym, .cpyr] ∧ (f.gn ≠ 0 → len ≤ 2 ^ 32))
        ∨ (descKind d = 2 ∧ f.gn = 0 ∧ f.len = 0 ∧ (op = .cpyc → descCores d ≠ [])) →
      (src.toNat % unit ≠ 0 → exec i s = .next (s.raise { code := .align, addr := src, info := 0 }))
      ∧ (src.toNat % unit = 0 → dst.toNat % unit = 0 → (descKind d = 0 → len % unit = 0) → (indexed → (s.rdG f.gp).toNat % unit = 0) →
        f.ss ≠ .vault → f.dsp ≠ .vault →
        (f.ss = .ls → ∀ r, r < rows → (src.toNat + r * descSrcStr d) % 2 ^ 64 + n ≤ s.storeLimit s.cur) →
        (indexed → (s.rdG f.gp).toNat + Nat.max 1 (4 * rows) ≤ s.storeLimit s.cur) →
        (f.dsp = .ls → ∀ r, r < rows →
          (dst.toNat + (if op = .cpyc then (dealRow d (s.rdG f.gp) r).2 else r) * descDstStr d) % 2 ^ 64 + n ≤ s.storeLimit s.cur) →
        (∀ c ∈ copyCores op f d, s.peerHolds s.cur.id { s.cur.place with core := c } = true) →
        (queuedJobs s s.cur.id < 8 →
          ∃ j : Job, ∃ u : State, exec i s = .next u ∧ u.last = .seq ∧ u.jobs = s.jobs ++ [j] ∧ u.cur = { s.cur with jseq := j.jid } ∧ u.mem = s.mem
            ∧ u.cores = s.cores ∧ j.jid = (if s.cur.jseq = 65535 then 1 else s.cur.jseq + 1) ∧ j.st = .queued ∧ j.op = op ∧ j.form = f
            ∧ j.desc = d ∧ j.src = src ∧ j.dst = dst ∧ j.len = len ∧ j.handle = s.rdG f.gk ∧ j.hyp = s.cur.hcur ∧ j.who = s.cur.id)
        ∧ (8 ≤ queuedJobs s s.cur.id → exec i s = .next s.stall))))
  ∧ (∀ (f : FormC) (s : State), Executes f.grd s →
    let id := (s.rdG f.gp).setWidth 16
    (id = 0 → exec (.cpyq f) s = .next (s.putG f.gd (s.cur.jseq.setWidth 64)) ∧ exec (.cpyk f) s = .next { s with last := .seq })
    ∧ (id ≠ 0 → (∀ j ∈ s.jobs, j.who = s.cur.id → j.jid ≠ id) →
        exec (.cpyq f) s = .next (s.putG f.gd 0) ∧ exec (.cpyk f) s = .next { s with last := .seq })
    ∧ (∀ (j : Job) (before after : List Job), id ≠ 0 → s.jobs = before ++ j :: after → j.who = s.cur.id → j.jid = id →
        (∀ k ∈ after, k.who = s.cur.id → k.jid ≠ id) →
        (∃ x : Word64, exec (.cpyq f) s = .next (s.putG f.gd x)
          ∧ (j.st = .queued → x = 1) ∧ (j.st = .running → x = 2) ∧ (j.st = .done → x = 3) ∧ (j.st = .ended → x = 5)
          ∧ (∀ c, j.st = .faulted c → x = BitVec.ofNat 64 (4 + 256 * faultCodeNat c)))
        ∧ (j.st ≠ .queued → j.st ≠ .running → exec (.cpyk f) s = .next { s with last := .seq })
        ∧ (j.st = .queued ∨ j.st = .running → s.jobOut j = true → ∃ u : State, exec (.cpyk f) s = .next u ∧ u.last = .stall ∧ u.cur = s.cur
            ∧ u.mem = s.mem ∧ u.posts = s.posts ∧ ∀ k ∈ u.jobs, k.n = j.n → k.pending = [] ∧ k.ending.isSome = true)
        ∧ (j.st = .queued ∨ j.st = .running → s.jobOut j = false → j.ending = none → ∃ u : State, exec (.cpyk f) s = .next u ∧ u.last = .seq ∧ u.cur = s.cur ∧ u.mem = s.mem ∧ u.cores = s.cores
            ∧ u.jobs.getLast? = some { j with st := .ended, pending := [] }
            ∧ (j.form.gk = 0 → u.posts = s.posts)
            ∧ (j.form.gk ≠ 0 → ∃ p : Post, u.posts = s.posts ++ [p] ∧ p.handle = j.handle ∧ p.hyp = j.hyp
                ∧ p.op = if f.len = 1 then .ctrAdd 1 else .poison))))

/-- COPY_JOB_START, COPY_CHUNK and COPY_JOB_DONE of the one job there is (R232, R233, R234, R237, R238): a QUEUED job with clear footprints becomes
RUNNING with every unit of its rows to move, which are 16-byte chunks, those of a CPYR lying where its source's aligned chunks do; a chunk of a CPY
from the local store to itself moves 16 bytes, and no other byte changes; with nothing left the job is DONE and adds 1 to its counter, and one that
CPYK has stopped is ENDED and posts as that asked. -/
def Obligations.CopyEngineMovesTheBytes : Prop :=
  ∀ (s : State) (j : Job), OnlyJob s j → Safe s →
    let rl := copyRows j.desc j.len
    let next (e : Instr) (P : State → Prop) : Prop := ∃ u : State, exec e s = .next u ∧ u.cur = s.cur ∧ u.mem = s.mem ∧ P u
    (j.st = .queued → s.cur.vq = [] → s.cur.tq = [] →
      next (.copyJobStart (coreCluster s.cur.place)) fun u => u.cores = s.cores ∧ ∃ k, u.jobs = [k] ∧ k.st = .running ∧ k.jid = j.jid
        ∧ (∀ n, isPending k.pending n = decide (n < rl.1 * (if j.op = .cpyr then (if rl.2 = 0 then 0 else (rl.2 + 15) / 16 + 1) else rl.2 / 16))))
    ∧ (∀ pick k, j.st = .running → j.op = .cpy → j.form.ss = .ls → j.form.dsp = .ls → 0 < rl.2 → rl.2 % 16 = 0 →
        nthPending j.pending (pick % pendingCount j.pending) = some k → j.pending ≠ [] →
        let r := k / (rl.2 / 16)
        let off := k % (rl.2 / 16) * 16
        let a := (j.src.toNat + r * descSrcStr j.desc) % 2 ^ 64 + off
        let b := (j.dst.toNat + r * descDstStr j.desc) % 2 ^ 64 + off
        (∀ q, q < rl.1 → (j.src.toNat + q * descSrcStr j.desc) % 2 ^ 64 + rl.2 < 2 ^ 64 ∧ (j.dst.toNat + q * descDstStr j.desc) % 2 ^ 64 + rl.2 < 2 ^ 64) →
        r < rl.1 →
        (∀ q, q < rl.1 → (j.src.toNat + q * descSrcStr j.desc) % 2 ^ 64 + rl.2 ≤ b ∨ b + 16 ≤ (j.src.toNat + q * descSrcStr j.desc) % 2 ^ 64) →
        next (.copyChunk j.n pick) fun u =>
          readNat (u.core s.cur.place).store b 16 = readNat (s.core s.cur.place).store a 16
          ∧ (∀ x, x < b ∨ b + 16 ≤ x → readByte (u.core s.cur.place).store x = readByte (s.core s.cur.place).store x)
          ∧ (∀ l, l ≠ s.cur.place → u.core l = s.core l)
          ∧ ∃ m, u.jobs = [m] ∧ m.st = .running ∧ ∀ n, isPending m.pending n = (isPending j.pending n && decide (n ≠ k)))
    ∧ (j.st = .running → j.pending = [] →
      next (.copyJobDone j.n) fun u => u.cores = s.cores ∧ u.jobs = [{ j with st := if j.ending = none then .done else .ended, pending := [] }]
        ∧ (j.form.gk = 0 → u.posts = s.posts)
        ∧ (j.form.gk ≠ 0 → ∃ p : Post, u.posts = s.posts ++ [p] ∧ p.handle = j.handle ∧ p.hyp = j.hyp
            ∧ p.op = if j.ending = some false then .poison else .ctrAdd 1))
/-! ### Hypotheses (spec/22_hypothesis.md R377-R400) -/

namespace Sys2Proof.Says

/-- The table of the issuing strand's context is served here: its part is in RUN on this module and CHTM names it (R377). -/
def TableHere (s : State) (p : Part) : Prop := s.part? s.cix = some p ∧ p.tableModule = s.mid ∧ p.st = .run
/-- A handle names entry e of the table at its current generation (R379). -/
def NamesEntry (s : State) (p : Part) (h : Word64) (e : HypEntry) : Prop :=
  h.toNat < 2 ^ 20 ∧ 1 ≤ h.toNat % 4096 ∧ h.toNat % 4096 ≤ s.topId p ∧ p.hyp? (h.toNat % 4096) = some e ∧ e.gen.toNat = h.toNat / 4096
/-- An entry that HYP.OPEN may take: FREE, or never used. -/
def FreeEntry (p : Part) (id : Nat) : Prop := p.hyp? id = none ∨ ∃ e, p.hyp? id = some e ∧ e.st = .free
/-- The words of R400. -/
def stateCode : HypStatus → Nat
  | .free => 0
  | .opened => 1
  | .confirmed => 2
  | .refuted => 3

end Sys2Proof.Says

/-- HYP.OPEN, HYP.ENTER, HYP.LEAVE and HYP.QRY where the table is served (R379, R380, R396, R397, R400): OPEN allocates the lowest FREE entry at its
next generation under the effective hypothesis of HCUR, or answers FULL with 0; ENTER moves HCUR down to an OPEN hypothesis and to no other; LEAVE
moves it to the parent; QRY reports the entry and changes nothing.
HYP.RSV once the strand's release is through (R380, R391, R398, R399): the root or an entry that is not OPEN is DEAD; authority follows the tree,
else HYP_SYNC; a confirm makes the entry CONFIRMED, a refute makes it REFUTED with cause 1 and every OPEN descendant REFUTED with cause 3, and one
resolve more is on its way to the sites, with the counter named, or none where GH is g0. -/
def Obligations.HypothesisInstructions : Prop :=
  (∀ (f : FormY) (s : State), Executes f.grd s → ∀ p, TableHere s p →
    let here := p.effective (hypId s.cur.hcur)
    let h := s.rdG f.gv1
    let tag : BitVec 20 := h.setWidth 20
    (p.isRefuted here = false →
      (∀ id, 1 ≤ id → id ≤ s.topId p → FreeEntry p id → (∀ n, 1 ≤ n → n < id → ¬FreeEntry p n) → p.depthOf here ≠ 15 →
        EndsWith (exec (.hypOpen f) s) s f 0 (some (f.gv1, BitVec.ofNat 64 ((p.genOf id + 1).toNat * 4096 + id))) fun u =>
          u.cur.hcur = s.cur.hcur ∧ u.mem = s.mem ∧ ∃ q e, u.part? s.cix = some q ∧ q.hyp? id = some e ∧ e.st = .opened ∧ e.gen = p.genOf id + 1
            ∧ e.parent = here ∧ e.depth = p.depthOf here + 1 ∧ ∀ n, n ≠ id → q.hyp? n = p.hyp? n)
      ∧ ((∀ id, 1 ≤ id → id ≤ s.topId p → ¬FreeEntry p id) ∨ p.depthOf here = 15 →
        EndsWith (exec (.hypOpen f) s) s f 6 (some (f.gv1, 0)) fun u => u.parts = s.parts ∧ u.cur.hcur = s.cur.hcur))
    ∧ (p.isRefuted here = true → EndsWith (exec (.hypOpen f) s) s f 2 none fun u => u.parts = s.parts)
    ∧ (∀ e, NamesEntry s p h e →
        (e.st = .opened → (p.chain e.id).contains here = true → e.id = h.toNat % 4096 → EndsWith (exec (.hypEnter f) s) s f 0 none fun u =>
          u.cur.hcur = tag ∧ u.parts = s.parts ∧ u.mem = s.mem)
        ∧ (e.st = .opened → (p.chain e.id).contains here = false → e.id = h.toNat % 4096 →
            exec (.hypEnter f) s = .next (s.raise { code := .hypSync, addr := 0, info := h }))
        ∧ (e.st ≠ .opened → EndsWith (exec (.hypEnter f) s) s f 2 none fun u => u.cur.hcur = s.cur.hcur)
        ∧ (e.cause < 8 → e.depth < 16 → e.parent < 4096 → p.effective (h.toNat % 4096) < 4096 → p.childCount (h.toNat % 4096) < 4096 →
          ∃ x : Word64, EndsWith (exec (.hypQry f) s) s f 0 (some (f.gv2, x)) (fun u => u.parts = s.parts ∧ u.cur.hcur = s.cur.hcur ∧ u.mem = s.mem)
            ∧ fieldNat x 0 8 = 0 ∧ fieldNat x 8 12 = p.childCount (h.toNat % 4096) ∧ fieldNat x 20 8 = e.gen.toNat ∧ fieldNat x 28 12 = e.parent
            ∧ fieldNat x 52 4 = e.depth ∧ fieldNat x 56 3 = e.cause ∧ fieldNat x 59 2 = stateCode e.st ∧ fieldNat x 61 3 = 0))
    ∧ (∀ e, h.toNat < 2 ^ 20 → h ≠ 0 → p.hyp? (h.toNat % 4096) = some e → e.gen.toNat ≠ h.toNat / 4096 →
        (f.f = true → ∀ i ∈ [Instr.hypEnter f, .hypQry f], exec i s = .next (s.raise { code := .staleHandle, addr := 0, info := h }))
        ∧ (f.f = false → EndsWith (exec (.hypEnter f) s) s f 1 none fun u => u.cur.hcur = s.cur.hcur))
    ∧ (hypId s.cur.hcur = 0 → EndsWith (exec (.hypLeave f) s) s f 7 none fun u => u.cur.hcur = s.cur.hcur)
    ∧ (hypId s.cur.hcur ≠ 0 → p.isRefuted here = true → EndsWith (exec (.hypLeave f) s) s f 2 none fun u => u.cur.hcur = s.cur.hcur)
    ∧ (hypId s.cur.hcur ≠ 0 → p.isRefuted here = false → EndsWith (exec (.hypLeave f) s) s f 0 none fun u =>
        u.cur.hcur = p.tagOf (p.parentOf here) ∧ u.parts = s.parts ∧ u.mem = s.mem))
  ∧ (∀ (f : FormY) (s : State), Executes f.grd s → s.cur.blocked = none → s.loadsOut = false → s.cur.unacked = [] → s.cur.lost = [] →
    ∀ p e, TableHere s p → NamesEntry s p (s.rdG f.gv1) e → e.id = (s.rdG f.gv1).toNat % 4096 →
      let here := p.effective (hypId s.cur.hcur)
      let chain := p.chain here
      let up := p.parentOf e.id
      let faults (tag : BitVec 20) : Prop := ∃ u : State, exec (.hypRsv f) s = .next u ∧ u.last = .faulted { code := .hypSync, addr := 0, info := tag.setWidth 64 }
        ∧ u.parts = s.parts
      (e.st ≠ .opened → EndsWith (exec (.hypRsv f) s) s f 2 none fun u => u.parts = s.parts)
      ∧ (e.st = .opened → chain.contains up = false → s.cur.fmn = false → faults (p.tagOf up))
      ∧ (e.st = .opened → chain.contains up = true → chain.contains e.id = true → here ≠ e.id → s.cur.fmn = false →
          faults ((s.rdG f.gv1).setWidth 20))
      ∧ (e.st = .opened → chain.contains up = true → chain.contains e.id = false ∨ here = e.id →
        EndsWith (exec (.hypRsv f) s) s f 0 none fun u => u.mem = s.mem ∧ u.cur.hcur = s.cur.hcur ∧ ∃ q r, u.part? s.cix = some q
          ∧ q.resolves = p.resolves ++ [r] ∧ r.hyp = p.tagOf e.id ∧ r.handle = (if f.gh = 0 then none else some (s.rdG f.gh)) ∧ r.sites = []
          ∧ r.confirm = !f.imm.getLsbD 0 ∧ q.hyps.map HypEntry.id = p.hyps.map HypEntry.id
          ∧ (f.imm.getLsbD 0 = false → (∃ x, q.hyp? e.id = some x ∧ x.st = .confirmed ∧ x.gen = e.gen) ∧ r.tags = [p.tagOf e.id]
            ∧ (∀ x ∈ p.hyps, x.id ≠ e.id → x.st = .opened → x.parent = e.id → ∃ y ∈ q.hyps, y.id = x.id ∧ y.st = .opened ∧ y.parent = up)
            ∧ ∀ n, n ≠ e.id → (∀ x ∈ p.hyps, x.id = n → ¬(x.st = .opened ∧ x.parent = e.id)) →
                (q.hyp? n).map (fun x => (x.st, x.gen, x.parent)) = (p.hyp? n).map (fun x => (x.st, x.gen, x.parent)))
          ∧ (f.imm.getLsbD 0 = true → (∃ x, q.hyp? e.id = some x ∧ x.st = .refuted ∧ x.cause = 1) ∧ r.tags.contains (p.tagOf e.id) = true
            ∧ ∀ x ∈ p.hyps, x.id ≠ e.id → ∃ y ∈ q.hyps, y.id = x.id ∧ y.parent = x.parent ∧
                if (p.openBelow e.id).contains x.id then y.st = .refuted ∧ y.cause = 3 else y = x)))

/-- The steps of a resolve and the scrubber (R380, R387, R388, R389, R392, R440): a site of the part that applies its oldest resolve acknowledges it; a
confirm moves the HCUR of the strands it names and folds versions into committed memory, a refute orphans the strands in the list; applied at every
site of every module, with every access issued under it performed, the resolve leaves, the entry counts as resolved, and the counter gets 1, or the
module of the table is told; a pass over the last slice frees entries that nothing uses, once every other module has swept its own. -/
def Obligations.ResolveSteps : Prop :=
  ∀ (cix rid site : Nat) (s : State) (p : Part) (r : Resolve), s.part? cix = some p → p.resolves = [r] → r.rid = rid →
    (site ∈ p.sites → site ∉ r.sites → ∃ u : State, ∃ q, exec (.resolveApply cix rid site) s = .next u ∧ u.part? cix = some q
      ∧ q.resolves.map (fun x => x.sites) = [site :: r.sites] ∧ q.hyps = p.hyps
      ∧ (s.others = [] → s.cur.id.grp.cix = cix → s.cur.onCore = true → s.cur.ended = false → s.cur.place.site = site →
          (r.confirm = true → s.cur.hcur = r.hyp → u.cur.hcur = p.tagOf (p.effective (hypId r.target)))
          ∧ (r.confirm = true → s.cur.hcur ≠ r.hyp → u.cur = s.cur)
          ∧ (r.confirm = false → r.tags.contains s.cur.hcur = true → u.cur.status = .exitedOrphan ∧ u.cur.orp = true)
          ∧ (r.confirm = false → r.tags.contains s.cur.hcur = false → u.cur = s.cur))
      ∧ (∀ v, Safe s → r.confirm = true → hypId r.target = 0 → s.versions = [v] → v.cix = cix → (p.home v.line).site = site → r.tags.contains v.tag = true →
          u.versions = [] ∧ (∀ i, i < 128 → v.mask.getLsbD i = true → readByte u.mem (v.line + i) = v.data.extractLsb' (8 * i) 8)
            ∧ ∀ a, (∀ i, i < 128 → v.mask.getLsbD i = true → a ≠ v.line + i) → readByte u.mem a = readByte s.mem a))
    ∧ ((∃ n ∈ p.sites, n ∉ r.sites) → exec (.resolveComplete cix rid) s = .next s)
    ∧ ((∀ n ∈ p.sites, n ∈ r.sites) → r.mods = [] → s.resolveOut cix r = false → ∃ u : State, ∃ q, exec (.resolveComplete cix rid) s = .next u ∧ u.part? cix = some q ∧ q.resolves = []
        ∧ u.cur = s.cur ∧ u.mem = s.mem ∧ u.versions = s.versions
        ∧ (∀ x ∈ q.hyps, (r.tags.map hypId).contains x.id = true → x.resolved = true)
        ∧ (∀ k, r.asker = some k → u.posts = s.posts ∧ u.out = s.out ++ [.response k.mid k.seqNo (.status .ok 0 0)])
        ∧ (r.asker = none → r.handle = none → u.posts = s.posts)
        ∧ (∀ h, r.asker = none → r.handle = some h → ∃ m : Post, u.posts = s.posts ++ [m] ∧ m.handle = h ∧ m.hyp = 0 ∧ m.op = .ctrAdd 1))
    ∧ (∀ l e, s.parts = [p] → p.tableModule = s.mid → l ∈ p.clusters → p.hyps = [e] → e.resolved = true → e.st = .confirmed ∨ e.st = .refuted → e.away = [] →
        (∀ c ∈ p.clusters, c ≠ l → e.swept.contains c = true) → s.hypUsed p e.id = false →
        ∃ u : State, ∃ q x, exec (.scrubPassEnd l) s = .next u ∧ u.parts = [q] ∧ q.hyps = [x] ∧ x.id = e.id ∧ x.st = .free ∧ x.gen = e.gen
          ∧ u.cur = s.cur ∧ u.mem = s.mem)
/-! ### Recipes (spec/23_recipe.md R401-R409) -/

namespace Sys2Proof.Says

/-- The issuing strand stands on its core, alone in its half, with nothing in its vector queue and no chunk of a recipe on its way. -/
def UnitIsFree (s : State) : Prop :=
  s.cur.vq = [] ∧ s.cur.onCore = true ∧ s.cur.place.core < 8 ∧ (∀ t ∈ s.others, coreHalf t.place ≠ coreHalf s.cur.place) ∧ ∀ r ∈ s.net, r.reply ≠ .replay
/-- The instruction completes, with one command more in the vector queue; what its unit then does with it leads to P. -/
def ThroughUnit (i : Instr) (s : State) (P : State → Prop) : Prop :=
  ∃ u w : State, exec i s = .next u ∧ u.last = .seq ∧ u.cur.vq.length = s.cur.vq.length + 1 ∧ u.cur.v = s.cur.v ∧ u.mem = s.mem
    ∧ exec (.vectorCommandRun (coreHalf s.cur.place)) u = .next w ∧ w.cur.vq = [] ∧ w.cur.g = s.cur.g ∧ w.cur.m = s.cur.m ∧ w.mem = s.mem
    ∧ w.cores = s.cores ∧ P w

end Sys2Proof.Says

/-- RCP.FREE, RCP.DROP, RCP.ANCH and RCP.QRY (R103, R403, R406, R407): each is checked at issue and takes a place in the vector queue, or stalls while
that is full; through the unit it has the effect that the register's state gives it, and no other v register and nothing else changes. QRY delivers
the word of R407 to f[FD].
RCP.BIND (R402, R405, R408): a recipe with no slot is ILLEGAL_OP; an anchored or pinned register, or a source that R402 forbids, is RCP_ANCHOR; a
recipe of one VMUL over two anchored registers binds VD with its captures at issue, and waits for room in the vector queue; through the unit, with a
pool entry free, it is RESIDENT and holds the product that the same VMUL computes, and the flags of the slot are raised. -/
def Obligations.RecipeInstructions : Prop :=
  (∀ (f : FormV) (s : State), Executes f.grd s →
    let v := f.vd.toNat
    let r := s.cur.vr v
    let fault : FaultInfo := { code := .rcpAnchor, addr := 0, info := BitVec.ofNat 64 v }
    let becomes (i : Instr) (x : Residency) (clear : Bool) : Prop := ThroughUnit i s fun w =>
      w.cur.vr v = x ∧ w.cur.v' v = (if clear then 0 else s.cur.v' v) ∧ ∀ n, n ≠ v → w.cur.vr n = s.cur.vr n ∧ w.cur.v' n = s.cur.v' n
    let none_ : Residency := { held := false, anchored := false, binding := none }
    let goes (i : Instr) : Prop := (16 ≤ s.cur.vq.length → exec i s = .next s.stall)
      ∧ (s.cur.vq.length < 16 → ∃ c, ∃ u : State, exec i s = .next u ∧ u.last = .seq ∧ u.cur.vq = s.cur.vq ++ [c] ∧ u.cur.v = s.cur.v ∧ u.cur.g = s.cur.g
          ∧ u.mem = s.mem)
    (s.cur.pinned v = true → exec (.rcpFree f) s = .next (s.raise fault))
    ∧ (s.cur.pinned v = false → goes (.rcpFree f))
    ∧ (r.anchored = true → exec (.rcpDrop f) s = .next (s.raise fault) ∧ (r.binding = none → s.cur.pinned v = false → goes (.rcpAnch f)))
    ∧ (r.anchored = false → goes (.rcpDrop f))
    ∧ (r.binding ≠ none ∨ s.cur.pinned v = true → exec (.rcpAnch f) s = .next (s.raise fault))
    ∧ (r.anchored = false → r.binding = none → s.cur.pinned v = false → s.cur.vq.length < 16 → r.held = false → s.cur.bud ≤ s.cur.heldCount →
        exec (.rcpAnch f) s = .next (s.raise { code := .regBudget, addr := 0, info := BitVec.ofNat 64 (v + s.cur.bud * 256) }))
    ∧ ((s.cur.f' f.fd.toNat).producers.length < 15 → goes (.rcpQry f))
    ∧ (UnitIsFree s → v < 48 →
      (s.cur.pinned v = false → becomes (.rcpFree f) none_ true)
      ∧ (r.anchored = true → r.binding = none → s.cur.pinned v = false → r.entry = true → becomes (.rcpAnch f) r false)
      ∧ (r.anchored = false →
        (∀ b, r.binding = some b → (∀ x ∈ s.cur.bindings, x.2.bid = b.bid → x = (v, b)) → becomes (.rcpDrop f)
          { r with binding := some { b with st := if b.st = .resident then .dropped else b.st }, entry := r.entry && b.st != .resident } false)
        ∧ (r.binding = none → becomes (.rcpDrop f) none_ true)
        ∧ (r.binding = none → s.cur.pinned v = false → r.held = true → r.entry = true →
            becomes (.rcpAnch f) { held := true, anchored := true, binding := none, entry := true } false)
        ∧ (r.binding = none → s.cur.pinned v = false → r.held = false → s.cur.heldCount < s.cur.bud → ThroughUnit (.rcpAnch f) s fun w =>
            (w.cur.vr v).anchored = true ∧ (w.cur.vr v).held = true ∧ w.cur.v = s.cur.v)))
    ∧ (UnitIsFree s → f.fd.toNat < 4 → (s.cur.f' f.fd.toNat).producers = [] →
        let q := s.cur.vr f.va.toNat
        ThroughUnit (.rcpQry f) s fun w => ∃ x, w.cur.f' f.fd.toNat = { value := x, arrived := true, producers := [] }
          ∧ w.cur.vres = s.cur.vres ∧ w.cur.v = s.cur.v ∧ x.getLsbD 5 = q.held ∧ x.getLsbD 4 = s.cur.pinned f.va.toNat ∧ x.getLsbD 3 = q.anchored
          ∧ (q.binding = none → fieldNat x 0 3 = 0 ∧ fieldNat x 6 58 = 0)
          ∧ (∀ b, q.binding = some b → b.recipe < 16 → b.capn < 8 → (∀ n, b.nested = some n → n < 64) →
              fieldNat x 0 3 = (match b.st with
                | .resident => 1
                | .dropped => 2
                | .stale => 4)
              ∧ fieldNat x 6 2 = 0 ∧ fieldNat x 8 4 = b.recipe ∧ fieldNat x 12 3 = b.capn ∧ x.getLsbD 22 = b.nested.isSome
              ∧ x.getLsbD 23 = b.page.isSome ∧ ∀ p, b.page = some p → fieldNat x 32 32 = p.2.toNat)))
  ∧ (∀ (f : FormV) (s : State), Executes f.grd s →
    let v := f.vd.toNat
    let n := (f.imm.extractLsb' 0 4).toNat
    let c := (f.imm.extractLsb' 4 3).toNat
    let fault (r : Nat) : FaultInfo := { code := .rcpAnchor, addr := 0, info := BitVec.ofNat 64 r }
    (s.cur.body n = [] → exec (.rcpBind f) s = .next (s.raiseCode .illegalOp))
    ∧ (s.cur.body n ≠ [] → (s.cur.vr v).anchored = true ∨ s.cur.pinned v = true → exec (.rcpBind f) s = .next (s.raise (fault v)))
    ∧ (∀ m, s.cur.body n = [.vmul m] → v < 48 → (s.cur.vr v).anchored = false → s.cur.pinned v = false → m.va ≠ m.vd → m.vb ≠ m.vd →
        ((s.cur.vr m.va.toNat).anchored = false → exec (.rcpBind f) s = .next (s.raise (fault m.va.toNat)))
        ∧ ((s.cur.vr m.va.toNat).anchored = true → (s.cur.vr m.vb.toNat).anchored = true →
          (16 ≤ s.cur.vq.length → exec (.rcpBind f) s = .next s.stall)
          ∧ (s.cur.vq.length < 16 → ∃ u : State, ∃ b, exec (.rcpBind f) s = .next u ∧ u.last = .seq ∧ u.cur.vq.length = s.cur.vq.length + 1
              ∧ u.cur.v = s.cur.v ∧ u.mem = s.mem ∧ u.cur.vr v = { held := false, anchored := false, binding := some b, entry := (s.cur.vr v).entry } ∧ b.st = .dropped)
          ∧ (UnitIsFree s → (s.cur.vr m.va.toNat).binding = none → (s.cur.vr m.vb.toNat).binding = none → s.poolUsed (coreHalf s.cur.place) < 144 →
            ThroughUnit (.rcpBind f) s fun w => ∃ b, w.cur.vr v = { held := false, anchored := false, binding := some b, entry := true }
              ∧ b.recipe = n ∧ b.capn = c ∧ b.st = .resident ∧ b.nested = none ∧ b.page = none ∧ b.luta = s.src.luta ∧ b.lutb = s.src.lutb
              ∧ b.caps = ((List.range 4).map fun j => if j < c then s.rdG (f.gs + BitVec.ofNat 6 j) else 0)
              ∧ (∀ r, r ≠ v → w.cur.v' r = s.cur.v' r ∧ w.cur.vr r = s.cur.vr r)
              ∧ (let o := computeVector .vmul m { vd := 0, va := s.cur.v' m.va.toNat, vb := s.cur.v' m.vb.toNat, msk := s.cur.m' m.msk.toNat,
                                                   md := 0, ma := 0, mb := 0, scalar := captureOf b m.gs.toNat, luta := s.src.luta, lutb := s.src.lutb };
                w.cur.v' v = o.vd.getD 0 ∧ w.cur.vflags = s.cur.vflags ||| o.flags)))))

/-! ### The foreman's instructions (spec/19_fault.md R362-R366) -/

namespace Sys2Proof.Says

/-- The handle names a group of the list, which is not the foreman's own. -/
def NamesGroup (f : FormS) (s : State) (p : Part) (g : Group) : Prop :=
  s.part? s.cix = some p ∧ s.findGroup p (s.rdG f.ga) = .listed g ∧ s.group? g.id = some g ∧ g.id ≠ s.cur.id.grp
/-- The selector of window 0 names CLASS cls, INDEX idx of strand t, which is FROZEN with its queues drained (R364, R365). -/
def Selects (f : FormS) (s : State) (cls idx : Nat) (t : Strand) : Prop :=
  f.imm = 0 ∧ fieldNat (s.rdG f.gb) 56 2 = 0 ∧ fieldNat (s.rdG f.gb) 48 8 = cls ∧ fieldNat (s.rdG f.gb) 0 48 = idx
    ∧ (∃ p g, s.part? s.cix = some p ∧ s.findGroup p (s.rdG f.ga) = .listed g
        ∧ s.strand? { grp := g.id, sidx := fieldNat (s.rdG f.gb) 58 6 } = some t)
    ∧ t.status = .frozen ∧ s.queuesDrained t = true

end Sys2Proof.Says

/-- The foreman instructions are ILLEGAL_OP to every other strand (R57, R362). GRP.FRZ, GRP.THAW and GRP.KILL (R363): NONE for a handle that names no
group; FRZ freezes a RESIDENT group, waiting for the strands whose instruction is on its way to another module, THAW resumes a FROZEN one and
refuses one neither FROZEN nor held with STATE, KILL ends every strand and waits until what they had at other modules is withdrawn; other strands go
on.
WIN.RD and WIN.WR (R196, R358, R364, R365): a g register, the local store and the state of a strand, the registers of a site's debug block and the
fault queue's count are read and written where the tables name them; a strand that is not FROZEN reads 0 and takes no write, but in CLASS 15; what
no table names is ILLEGAL_OP.
TLB.INV and its sites (R269, R366): a start that is no multiple of 65,536 below 2^56 is ILLEGAL_OP; the instruction waits for the foreman's stores,
then asks the sites and the other modules, and completes when none is outstanding; a site that acknowledges holds no translation of the range any
more, and the last one ends it, with an answer when another module asked; a module's acknowledgement counts as well. -/
def Obligations.ForemanInstructions : Prop :=
  ((∀ (f : FormS) (s : State), s.cur.status = .run → s.cur.fmn = false →
    ∀ i ∈ [Instr.winRd f, .winWr f, .grpFrz f, .grpThaw f, .grpKill f, .tlbInv f], exec i s = .next (s.raiseCode .illegalOp))
  ∧ ∀ (f : FormS) (s : State), ExecutesForeman f.grd s →
    (∀ p, s.part? s.cix = some p → s.cur.blocked = none → (∀ l ∈ p.launches, l.lid % 65536 ≠ fieldNat (s.rdG f.ga) 48 16) →
      (∀ g ∈ s.groups, g.id.lid % 65536 ≠ fieldNat (s.rdG f.ga) 48 16) →
      ∀ i ∈ [Instr.grpFrz f, .grpThaw f, .grpKill f], exec i s = .next (s.putG f.gd 1))
    ∧ (∀ p g, NamesGroup f s p g → s.cur.blocked = none →
      (g.st = .resident → (∀ t ∈ s.groupStrands g.id, t.status = .run → t.blocked = none) → ∃ u : State, exec (.grpFrz f) s = .next u ∧ u.last = .seq ∧ u.cur = (s.putG f.gd 0).cur ∧ u.mem = s.mem
        ∧ (∃ h, u.group? g.id = some h ∧ h.st = .frozen)
        ∧ u.others = s.others.map (fun t => if t.id.grp = g.id ∧ (t.status = .run ∨ t.status = .parked) then
            { t with status := .frozen, byTransfer := false } else t))
      ∧ (g.st = .resident → (∃ t ∈ s.groupStrands g.id, t.status = .run ∧ t.blocked ≠ none) →
          ∃ u : State, ∃ h, exec (.grpFrz f) s = .next u ∧ u.last = .stall ∧ u.cur.blocked.isSome = true ∧ u.cur.g = s.cur.g ∧ u.mem = s.mem
            ∧ u.group? g.id = some h ∧ h.st = .frozen
            ∧ ∀ t ∈ u.others, t.id.grp = g.id → t.status = .run → t ∈ s.others ∧ t.blocked ≠ none)
      ∧ (g.st = .frozen → exec (.grpFrz f) s = .next (s.putG f.gd 0))
      ∧ (g.st ≠ .resident → g.st ≠ .frozen → ∃ u : State, ∃ h, exec (.grpFrz f) s = .next u ∧ u.last = .seq ∧ u.cur = (s.putG f.gd 0).cur
          ∧ u.others = s.others ∧ u.group? g.id = some h ∧ h = { g with held := true })
      ∧ (g.st ≠ .frozen → g.held = false → exec (.grpThaw f) s = .next (s.putG f.gd 2))
      ∧ (g.st = .frozen → g.preempt = none → (∀ t ∈ s.groupStrands g.id, t.park = none) →
          ∃ u : State, exec (.grpThaw f) s = .next u ∧ u.last = .seq ∧ u.cur = (s.putG f.gd 0).cur ∧ u.mem = s.mem
            ∧ (∃ h, u.group? g.id = some h ∧ h.st = .resident ∧ h.held = false)
            ∧ u.others = s.others.map (fun t => if t.id.grp = g.id ∧ t.status = .frozen then { t with status := .run } else t))
      ∧ (∃ u : State, exec (.grpKill f) s = .next u ∧ u.cur.status = .run ∧ u.group? g.id = none
            ∧ (s.givenUp = [] → (∀ t ∈ s.groupStrands g.id, t.afar = [] ∧ t.askedAfar = [] ∧ ∀ k, t.park = some k → k.mid = s.mid) →
                u.last = .seq ∧ (f.gd ≠ 0 → u.cur.g.get f.gd.toFin = 0))
            ∧ ((∃ e ∈ s.givenUp, e.1.grp = g.id) → u.last = .stall ∧ u.cur.blocked.isSome = true)
            ∧ ∀ t ∈ s.groupStrands g.id, ∃ x, u.strand? t.id = some x ∧ x.ended = true))
    ∧ (∀ p, s.part? s.cix = some p → s.cur.blocked.isSome = true →
      let grp := Sys2Proof.Machine.grpWait.groupOfHandle p (s.rdG f.ga)
      ((∀ t ∈ s.strands, t.id.grp = grp → t.status ≠ .run) → exec (.grpFrz f) s = .next (s.putG f.gd 0))
      ∧ ((∃ t ∈ s.strands, t.id.grp = grp ∧ t.status = .run) → exec (.grpFrz f) s = .next s.stall)
      ∧ ((∀ e ∈ s.givenUp, e.1.grp ≠ grp) → exec (.grpKill f) s = .next (s.putG f.gd 0))
      ∧ ((∃ e ∈ s.givenUp, e.1.grp = grp) → exec (.grpKill f) s = .next s.stall)))
  ∧ (∀ (f : FormS) (s : State), ExecutesForeman f.grd s →
    (3 ≤ f.imm.toNat → exec (.winRd f) s = .next (s.raiseCode .illegalOp) ∧ exec (.winWr f) s = .next (s.raiseCode .illegalOp))
    ∧ (∀ p, s.part? s.cix = some p → f.imm = 0 → fieldNat (s.rdG f.gb) 56 2 ≠ 0 ∨ 16 ≤ fieldNat (s.rdG f.gb) 48 8 →
        exec (.winRd f) s = .next (s.raiseCode .illegalOp) ∧ exec (.winWr f) s = .next (s.raiseCode .illegalOp))
    ∧ (∀ n t, 0 < n → (h : n < 64) → Selects f s 0 n t →
        exec (.winRd f) s = .next (s.putG f.gd (t.g.get ⟨n, h⟩))
        ∧ ∃ u : State, ∃ x, exec (.winWr f) s = .next u ∧ u.last = .seq ∧ u.cur = s.cur ∧ u.mem = s.mem ∧ u.strand? t.id = some x
            ∧ x = { t with g := t.g.set n (s.rdG f.gd), spoiled := x.spoiled })
    ∧ (∀ a t, Safe s → a % 8 = 0 → a < 131072 → a < s.storeLimit t → Selects f s 9 a t →
        exec (.winRd f) s = .next (s.putG f.gd (BitVec.ofNat 64 (readNat (s.core t.place).store a 8)))
        ∧ ∃ u : State, exec (.winWr f) s = .next u ∧ u.last = .seq ∧ u.cur = s.cur ∧ u.mem = s.mem
            ∧ readNat (u.core t.place).store a 8 = (s.rdG f.gd).toNat
            ∧ ∀ b, b < a ∨ a + 8 ≤ b → readByte (u.core t.place).store b = readByte (s.core t.place).store b)
    ∧ (∀ p g t, s.part? s.cix = some p → s.findGroup p (s.rdG f.ga) = .listed g → f.imm = 0 →
        s.strand? { grp := g.id, sidx := fieldNat (s.rdG f.gb) 58 6 } = some t → fieldNat (s.rdG f.gb) 56 2 = 0 →
        (t.status ≠ .frozen → fieldNat (s.rdG f.gb) 48 8 = 0 → fieldNat (s.rdG f.gb) 0 48 < 64 →
          exec (.winRd f) s = .next (s.putG f.gd 0) ∧ exec (.winWr f) s = .next { s with last := .seq })
        ∧ (fieldNat (s.rdG f.gb) 48 8 = 15 → fieldNat (s.rdG f.gb) 0 48 = 0 →
          exec (.winRd f) s = .next (s.putG f.gd (BitVec.ofNat 64 (strandCode t.status + groupCode g.st * 16 + (if g.held then 256 else 0))))
          ∧ exec (.winWr f) s = .next { s with last := .seq }))
    ∧ (∀ p, s.part? s.cix = some p → f.imm = 1 → (s.rdG f.ga).toNat ∉ p.sites →
        exec (.winRd f) s = .next (s.raiseCode .illegalOp) ∧ exec (.winWr f) s = .next (s.raiseCode .illegalOp))
    ∧ (∀ p (n : Fin 4), s.part? s.cix = some p → f.imm = 1 → (s.rdG f.ga).toNat ∈ p.sites → (s.rdG f.gb).toNat = 16 * n.val →
        let site := (s.rdG f.ga).toNat
        exec (.winRd f) s = .next (s.putG f.gd ((debugOf p site).wbase.get n))
        ∧ ∃ u : State, ∃ q, exec (.winWr f) s = .next u ∧ u.last = .seq ∧ u.cur = s.cur ∧ u.part? s.cix = some q
            ∧ (debugOf q site).wbase.get n = BitVec.ofNat 64 (fieldNat (s.rdG f.gd) 3 45 * 8)
            ∧ (debugOf q site).wctl = (debugOf p site).wctl)
    ∧ (∀ p, s.part? s.cix = some p → f.imm = 2 → s.rdG f.gb = 8 →
        exec (.winRd f) s = .next (s.putG f.gd (BitVec.ofNat 64 (p.buffer.length * 2 ^ 32 + p.lost.toNat)))
        ∧ ∃ u : State, ∃ q, exec (.winWr f) s = .next u ∧ u.last = .seq ∧ u.cur = s.cur ∧ u.part? s.cix = some q
            ∧ q.lost = p.lost &&& ~~~((s.rdG f.gd).setWidth 32)))
  ∧ ((∀ (f : FormS) (s : State), ExecutesForeman f.grd s →
    let va := (s.rdG f.ga).toNat
    let n := (s.rdG f.gb).toNat
    (va % 65536 ≠ 0 ∨ 2 ^ 56 ≤ va → exec (.tlbInv f) s = .next (s.raiseCode .illegalOp))
    ∧ (va % 65536 = 0 → va < 2 ^ 56 →
      (s.cur.blocked = none → s.cur.unacked ≠ [] → exec (.tlbInv f) s = .next s.stall)
      ∧ (s.cur.blocked = none → s.cur.unacked = [] → s.cur.lost = [] →
          ∃ u : State, ∃ v : Invalidation, exec (.tlbInv f) s = .next u ∧ u.last = .stall ∧ u.cur.blocked.isSome = true ∧ u.invs = s.invs ++ [v] ∧ v.cix = s.cix
            ∧ v.acked = [] ∧ v.asker = none ∧ v.mods = s.livePeers ∧ u.tlb = s.tlb
            ∧ (∀ m ∈ s.livePeers, ∃ k : Packet, .request m (.strand s.cur.id) k ∈ u.out ∧ k.access = .invalidate v.base v.len)
            ∧ (n ≠ 0 → v.base = va ∧ v.len = n * 65536) ∧ (n = 0 → v.base = 0 ∧ v.len = 2 ^ 56))
      ∧ (s.cur.blocked.isSome = true → (∃ v ∈ s.invs, v.cix = s.cix ∧ v.asker = none) → exec (.tlbInv f) s = .next s.stall)
      ∧ (s.cur.blocked.isSome = true → (∀ v ∈ s.invs, v.cix ≠ s.cix ∨ v.asker ≠ none) → exec (.tlbInv f) s = .next { s with last := .seq })))
  ∧ ∀ (s : State) (v : Invalidation) (p : Part) (site : Nat), s.invs = [v] → s.part? v.cix = some p → site ∈ p.sites → site ∉ v.acked →
      (∀ l ∈ s.translated v.cix, v.covers l.1 l.2 = false) →
      ∃ u : State, exec (.tlbInvSiteAck v.n s.mid site) s = .next u ∧ u.cur = s.cur ∧ u.mem = s.mem
        ∧ (∀ e ∈ u.tlb, e ∈ s.tlb ∧ (e.cix = v.cix → e.cluster.site = site → v.covers e.leaf.vbase e.leaf.bits = false))
        ∧ (∀ e ∈ s.tlb, e.cix ≠ v.cix ∨ e.cluster.site ≠ site ∨ v.covers e.leaf.vbase e.leaf.bits = false → e ∈ u.tlb)
        ∧ ((∀ n ∈ p.sites, n = site ∨ n ∈ v.acked) → v.mods = [] → u.invs = [] 
          ∧ u.out = s.out ++ (v.asker.toList.map fun k => .response k.mid k.seqNo (.status .ok 0 0)))
        ∧ ((∃ n ∈ p.sites, n ≠ site ∧ n ∉ v.acked) ∨ v.mods ≠ [] → u.invs = [{ v with acked := site :: v.acked }] ∧ u.out = s.out)
        ∧ (∀ m ∈ v.mods, m ≠ s.mid → ∃ u : State, exec (.tlbInvSiteAck v.n m site) s = .next u ∧ u.cur = s.cur ∧ u.mem = s.mem ∧ u.tlb = s.tlb
            ∧ u.invs = [{ v with mods := v.mods.filter fun o => o != m }]))
/-! ### Homes, slices and answers (spec/09_line.md R185-R195; spec/13_page.md R266-R270; spec/14_cell.md R278, R282; spec/25_link.md R430) -/

namespace Sys2Proof.Says

/-- The one request in flight has reached its home in this module, in a current part: its line is sound and under its own key, its slice takes it, no cell
is there that another module's request may not touch, every access noted of its bytes has its size (R195), and no version and no device region stands
there. -/
def AtItsHome (s : State) (r : Request) (p : Part) (n : Nat) : Prop :=
  s.net = [r] ∧ r.done = false ∧ r.target.mid = s.mid ∧ s.part? r.cix = some p ∧ p.current = true ∧ s.isBad r.target.pa = false
    ∧ r.target.leaf.hyp = false ∧ r.target.leaf.plc.isHostly = false ∧ p.inRegion r.target.pa n = false
    ∧ s.lineVersions p.cix (lineOf r.target.pa) = [] ∧ (∀ q ∈ s.recent, overlaps r.target.pa n q.pa q.size = true → q.size = n)
    ∧ (s.sliceReady (p.home r.target.pa) r.target r.writes (some r.id)).isSome = true ∧ s.otherKey r.target.leaf.hsh r.target.pa = false
    ∧ s.typedNow r = none
/-- An event leads to a state with the issuing strand as it was, and P of it. -/
def Moves (o : Host.Outcome State Fault Refusal) (s : State) (P : State → Prop) : Prop :=
  ∃ u : State, o = .next u ∧ u.cur = s.cur ∧ u.others = s.others ∧ P u

end Sys2Proof.Says

/-- HOME_READ and HOME_WRITE (R185, R189, R200, R242): a read finds the bytes that stand there and changes none; a write, an atomic and an INT32
reduction leave their result at the request's bytes and change no other byte; the request is done with the old value. A request that waits for its
slice, or is done, changes nothing in memory. -/
def Obligations.HomesPerformRequests : Prop :=
  ∀ (s : State) (r : Request) (p : Part), Safe s →
    let pa := r.target.pa
    let old (n : Nat) := readNat s.mem pa n
    let done (u : State) (v : Nat) : Prop := ∃ q, u.net = [q] ∧ q.done = true ∧ q.bad = r.bad ∧ q.value = BitVec.ofNat 128 v ∧ q.reply = r.reply
      ∧ q.tag = r.tag ∧ q.party = r.party
    let wrote (u : State) (v n : Nat) : Prop := u.mem = writeNat s.mem pa v n ∧ ∀ a, a < pa ∨ pa + n ≤ a → readByte u.mem a = readByte s.mem a
    (∀ n, r.kind = .read n → n ≤ 16 → AtItsHome s r p n →
      Moves (exec (.homeRead r.id) s) s fun u => u.mem = s.mem ∧ done u (old n))
    ∧ (∀ n d, r.kind = .write n d → AtItsHome s r p n →
      Moves (exec (.homeWrite r.id) s) s fun u => wrote u d.toNat n ∧ done u (old n))
    ∧ (∀ aop n x, r.kind = .atom aop n x → n = 4 ∨ n = 8 → x.toNat < 2 ^ (8 * n) → AtItsHome s r p n →
      Moves (exec (.homeWrite r.id) s) s fun u =>
        wrote u (atomSays aop (8 * n) (BitVec.ofNat (8 * n) (old n)) (x.setWidth (8 * n))).toNat n ∧ done u (old n))
    ∧ (∀ d, r.kind = .reduce .add .int32 d → AtItsHome s r p 4 →
      Moves (exec (.homeWrite r.id) s) s fun u => wrote u ((old 4 + d.toNat) % 2 ^ 32) 4 ∧ done u (old 4))
    ∧ (s.net = [r] → r.done = true → r.target.mid = s.mid → exec (.homeRead r.id) s = .next s ∧ exec (.homeWrite r.id) s = .next s)

/-- STORE_ACK and LOAD_RETURN to the issuing strand (R189, R190, R199): an acknowledged tag leaves the list, a discarded store's tag is remembered with
its address; a load's value goes to its registers, and an uncorrectable one marks them instead. -/
def Obligations.AnswersReachTheStrand : Prop :=
  ∀ (s : State) (r : Request), s.net = [r] → r.done = true → r.party = .strand s.cur.id →
    (∀ tag, r.writes = true → r.tag = some tag → s.cur.ended = false →
      ∃ u : State, exec (.storeAck r.id) s = .next u ∧ u.net = [] ∧ u.mem = s.mem ∧ u.cur.unacked = s.cur.unacked.filter (fun x => x != tag) ∧ u.cur.g = s.cur.g
        ∧ (r.bad = none → u.cur.lost = s.cur.lost)
        ∧ (∀ b, r.bad = some b → u.cur.lost = (tag, r.target.va, b.2) :: s.cur.lost.filter fun e => e.1 != tag))
    ∧ (∀ gt n sg, r.writes = false → r.reply = .regs gt n sg → s.cur.ended = false → r.skip = [] → n ∈ [1, 2, 4, 8] →
      ∃ u : State, exec (.loadReturn r.id) s = .next u ∧ u.net = [] ∧ u.mem = s.mem ∧ u.cur.pc = s.cur.pc ∧ u.cur.k = s.cur.k
        ∧ (r.bad = none → (∀ m, m ≠ gt → u.cur.g.get m.toFin = s.cur.g.get m.toFin)
            ∧ (gt ≠ 0 → u.cur.g.get gt.toFin = loaded n sg r.value.toNat) ∧ (gt = 0 → u.cur.g = s.cur.g))
        ∧ (r.bad.isSome = true → u.cur.g = s.cur.g ∧ (gt ≠ 0 → u.cur.spoiled = (gt, r.pc, r.target.va) :: s.cur.spoiled)))
    ∧ (∀ gt sg, r.writes = false → r.reply = .regs gt 16 sg → s.cur.ended = false → r.skip = [] → gt ≠ 0 → gt ≠ 63 → r.bad = none →
      ∃ u : State, exec (.loadReturn r.id) s = .next u ∧ u.cur.g.get gt.toFin = r.value.extractLsb' 0 64
        ∧ u.cur.g.get (gt + 1).toFin = r.value.extractLsb' 64 64)

/-- CELL_OPERATION, WAKE, BLOCKING_RESPONSE and ATOMIC_PROXY (R234, R277, R282, R189, R430): a device's CTR.ADD is performed at a live counter, and one
that meets a passed generation sends POSTFAIL with the status; a wake makes its PARKED strand RUN with the status in its register, and a poisoned
one faults with JOBFAULT; an answer reaches the access that waits, one of INCARN makes its home a lost peer (R424), and an uncorrectable one leaves
the page POISONED (R188); an atomic to host memory is performed with its half held, and one that a peer device refuses leaves memory as it was. -/
def Obligations.PostsWakesAndProxies : Prop :=
  ∀ s : State,
    (∀ m t p, s.posts = [m] → m.sent = none → m.source = .resolve → (handleVa m.handle).toNat % 32 = 0 → s.part? m.cix = some p →
      s.translate m.cix (coreCluster (s.foremanCore p)) (handleVa m.handle) .cell = .ok t → t.mid = s.mid → (s.heat p t).isSome = true →
      s.isBad t.pa = false →
      (s.granule t.pa).tag = .counter → (s.granule t.pa).dead = false → (s.granule t.pa).own = 0 →
      let g := s.granule t.pa
      (∀ x, m.op = .ctrAdd x → m.handle.toNat / 2 ^ 56 = g.gen.toNat % 256 →
        Moves (exec (.cellOperation m.id) s) s fun u => u.posts = [] ∧ u.mem = s.mem ∧ (u.granule t.pa).b1 = g.b1 + x ∧ (u.granule t.pa).tag = .counter
          ∧ (u.granule t.pa).psn = g.psn)
      ∧ (m.op = .poison → m.handle.toNat / 2 ^ 56 = g.gen.toNat % 256 →
        Moves (exec (.cellOperation m.id) s) s fun u => u.posts = [] ∧ (u.granule t.pa).psn = true ∧ (u.granule t.pa).b1 = g.b1)
      ∧ (m.handle.toNat / 2 ^ 56 ≠ g.gen.toNat % 256 → (∃ x, m.op = .ctrAdd x) ∨ m.op = .poison →
        Moves (exec (.cellOperation m.id) s) s fun u => u.posts = [] ∧ u.granule t.pa = g ∧ ∃ d : Delivery, u.records = s.records ++ [d] ∧ d.cix = m.cix
          ∧ d.record.code = .postFail ∧ d.record.sub = 1 ∧ d.record.addr = m.handle))
    ∧ (∀ w k, s.wakes = [w] → w.who = s.cur.id → s.cur.status = .parked → s.cur.park = some k → k.take = none →
        (∀ g, s.group? s.cur.id.grp = some g → g.st ≠ .saving) →
        (∀ st item, w.res = .status st item → ∃ u : State, exec (.wake w.id) s = .next u ∧ u.wakes = [] ∧ u.mem = s.mem ∧ u.cur.status = .run
          ∧ u.cur.park = none ∧ u.cur.ap = false ∧ (k.gst ≠ 0 → u.cur.g.get k.gst.toFin = BitVec.ofNat 64 (statusCode st))
          ∧ (∀ n, n ≠ k.gst → u.cur.g.get n.toFin = s.cur.g.get n.toFin) ∧ (s.cur.loops = [] → u.cur.pc = pcNext s.cur.pc))
        ∧ (w.res = .poisoned → ∃ u : State, exec (.wake w.id) s = .next u ∧ u.cur.status = .frozen ∧ u.cur.park = none ∧ u.cur.g = s.cur.g
          ∧ u.last = .faulted { code := .jobFault, addr := handleVa k.handle, info := k.handle }))
    ∧ (∀ b a ls seqNo, s.cur.blocked = some b → b.answer = none → s.askedOf (.strand s.cur.id) seqNo = none → (∀ e ∈ s.givenUp, e.1 ≠ s.cur.id) → a ≠ .refused .incarn →
        exec (.blockingResponse { party := .strand s.cur.id ls, seqNo := seqNo } a) s
          = .next { s with cur := { s.cur with blocked := some { b with answer := some a, rels := [] } } })
    ∧ (∀ b m ls seqNo, s.cur.blocked = some b → b.answer = none → b.asked = some m → m ≠ s.mid → s.askedOf (.strand s.cur.id) seqNo = none →
        (∀ e ∈ s.givenUp, e.1 ≠ s.cur.id) →
        exec (.blockingResponse { party := .strand s.cur.id ls, seqNo := seqNo } (.refused .incarn)) s = .next (s.losePeer m))
    ∧ (∀ r x a, s.net = [r] → r.done = false → r.target.mid ≠ s.mid → r.party = RemoteParty.here x → a ≠ .refused .incarn →
        Moves (exec (.blockingResponse { party := x, seqNo := BitVec.ofNat 16 r.id } a) s) s fun u =>
          ((∀ c, answerBad a ≠ some (c, true)) → u.mem = s.mem)
          ∧ ((∃ c, answerBad a = some (c, true)) → u.mem = (s.poisonPage r.target.leaf.entry).mem)
          ∧ (r.reply = .unused → u.net = [])
          ∧ (r.reply ≠ .unused → ∃ q, u.net = [q] ∧ q.done = true ∧ q.bad = answerBad a ∧ q.reply = r.reply ∧ q.party = r.party ∧ q.tag = r.tag
            ∧ (∀ b, a = .data b → q.value = b.setWidth 128)
            ∧ (∀ b, a = .line b → q.line = b ∧ q.value = BitVec.ofNat 128 (b.toNat / 2 ^ (8 * (r.target.pa % 128))))))
    ∧ (∀ r p b aop n x, Safe s → s.net = [r] → r.done = false → r.target.mid = s.mid → r.target.leaf.plc.isHostly = true → r.target.leaf.hyp = false →
        s.part? r.cix = some p → p.inRegion r.target.pa n = false → s.lineVersions p.cix (lineOf r.target.pa) = [] →
        (∀ q ∈ s.recent, overlaps r.target.pa n q.pa q.size = true → q.size = n) → r.kind = .atom aop n x → n = 4 ∨ n = 8 → x.toNat < 2 ^ (8 * n) → r.tag = none →
        r.party = .strand s.cur.id → s.cur.blocked = some b → s.otherKey r.target.leaf.hsh r.target.pa = false →
        (Config.peerMemory r.target.pa = true → r.kind.isAtomicOp = true → (Config.freeBits 1 s.fresh).toNat ≠ 1) →
        let old := readNat s.mem r.target.pa n
        ∃ u : State, exec (.atomicProxy r.id) s = .next u ∧ u.net = []
          ∧ u.cur.blocked = some { b with answer := some (.data (BitVec.ofNat 512 old)), rels := s.readRels p 0 r.target.pa n }
          ∧ u.mem = writeNat s.mem r.target.pa (atomSays aop (8 * n) (BitVec.ofNat (8 * n) old) (x.setWidth (8 * n))).toNat n
          ∧ (∀ y, y < r.target.pa ∨ r.target.pa + n ≤ y → readByte u.mem y = readByte s.mem y)
          ∧ (r.target.leaf.plc = .hostCached → Config.peerMemory r.target.pa = false → (r.target.pa / 64 * 64, HalfStatus.modified) ∈ u.bridge))
    ∧ (∀ r p b aop n x, s.net = [r] → r.done = false → r.target.mid = s.mid → r.target.leaf.plc.isHostly = true → s.part? r.cix = some p →
        r.kind = .atom aop n x → r.tag = none → r.party = .strand s.cur.id → s.cur.blocked = some b → Config.peerMemory r.target.pa = true →
        r.kind.isAtomicOp = true → (Config.freeBits 1 s.fresh).toNat = 1 →
        ∃ u : State, exec (.atomicProxy r.id) s = .next u ∧ u.net = [] ∧ u.mem = s.mem ∧ u.cur.blocked = some { b with answer := some (.refused .addr) })

/-- The steps of a slice and of pages (R187, R192, R267, R270, R278, R434): a miss returns, a write-back drains, a replica is dropped, the hot-line
array takes a granule, an idle slice sleeps and wakes, a walk's leaf is held in the cluster's TLB of 1,024, and a page with no replica left is
MAPPED again at the next generation, with no translation or L1 line of it anywhere. No byte of memory changes but word 1 of that leaf. -/
def Obligations.SliceAndPageSteps : Prop :=
  ∀ (l : ClusterLoc) (s : State),
    let x := s.slice l
    Moves (exec (.writebackDrain l) s) s (fun u => u.mem = s.mem ∧ (u.slice l).backs = x.backs.dropLast ∧ (u.slice l).lines = x.lines)
    ∧ (∀ m, x.misses = [m] → s.net = [] → x.lines.length < s.sliceRoom l →
        Moves (exec (.hbmMissReturn l m.1) s) s fun u => u.mem = s.mem ∧ (u.slice l).misses = [] ∧ (u.slice l).holds m.1 = true)
    ∧ (∀ line, Moves (exec (.replicaDrop l line) s) s fun u => u.mem = s.mem ∧ (u.slice l).replicas = x.replicas.filter fun q => q.line != line)
    ∧ (∀ p g, s.parts.find? (fun p => p.current && p.serves && p.inRanges g 32) = some p → granuleOf g = g →
        (p.home g ≠ l → exec (.hotLineFill l g) s = .next s)
        ∧ (p.home g = l → (s.granule g).tag ≠ .free → (s.granule g).tag ≠ .qslot → x.holds (lineOf g) = true → s.sliceRoom l ≠ 0 →
            x.hot.length < 2048 →
            Moves (exec (.hotLineFill l g) s) s fun u => u.mem = s.mem ∧ (u.slice l).hot.contains g = true ∧ (u.slice l).hot.length ≤ 2048))
    ∧ (x.asleep = false → (∀ t ∈ s.strands, t.place.site ≠ l.site) → x.lastUse + 110000 ≤ s.clk.toNat → x.misses = [] → s.versions = [] →
        Moves (exec (.retentionSleep l) s) s fun u => u.mem = s.mem ∧ (u.slice l).asleep = true ∧ (u.slice l).lines = [] ∧ (u.slice l).hot = [])
    ∧ (s.clk.toNat < x.lastUse + 110000 → exec (.retentionSleep l) s = .next s)
    ∧ (x.asleep = true → Moves (exec (.sliceWake l) s) s fun u => u.mem = s.mem ∧ (u.slice l).asleep = false ∧ (u.slice l).lines = x.lines)
    ∧ (∀ cix va p leaf, va.extractLsb' 56 8 = 0 → s.tlbHit l cix va = none → s.part? cix = some p → s.walkFrom p l.site va .read = .ok leaf →
        Moves (exec (.pageWalk l cix va) s) s fun u => u.mem = s.mem ∧ u.tlbHit l cix va = some leaf
          ∧ (u.tlb.filter fun e => decide (e.cluster = l)).length ≤ 1024)
    ∧ (∀ entry gen, Safe s → s.pageNow entry = (.unsealing, gen) → s.isLeafEntry entry = true → (∀ y ∈ s.slices, ∀ q ∈ y.replicas, q.entry ≠ entry) →
        Moves (exec (.unsealComplete entry) s) s fun u => u.pageNow entry = (.mapped, gen + 1) ∧ (∀ e ∈ u.tlb, e.leaf.entry ≠ entry)
          ∧ (∀ c ∈ u.cores, ∀ q ∈ c.l1, q.entry ≠ entry) ∧ ∀ a, a < entry + 8 ∨ entry + 16 ≤ a → readByte u.mem a = readByte s.mem a)
/-! ### Launch queues, kernels, launches, groups (spec/16_queue.md R318-R325; spec/17_kernel.md R326-R336; spec/18_group.md R340-R351) -/

namespace Sys2Proof.Says

/-- A part in RUN, current in its ring, with a launch queue q whose header is a live queue cell of the root. -/
def ServesQueue (s : State) (cix : Nat) (p : Part) (q : LaunchQueue) : Prop :=
  s.part? cix = some p ∧ p.st = .run ∧ p.current = true ∧ p.queues.find? (fun x => x.lqi == q.lqi) = some q
    ∧ (s.granule q.pa).tag = .queue ∧ (s.granule q.pa).dead = false ∧ (s.granule q.pa).own = 0
    ∧ q.handle.toNat / 2 ^ 56 = (s.granule q.pa).gen.toNat % 256 ∧ s.waitsAt (s.granule q.pa).pa = []
/-- The record at the head of a queue of 64-byte slots. -/
def headRecord (s : State) (g : Granule) : LineBits := BitVec.ofNat 512 (readNat s.mem (qSlotPa g (qHead g)) 64)
/-- The queue's registers, as a part holds them after a step. -/
def queueAfter (u : State) (cix lqi : Nat) : Option LaunchQueue := (u.part? cix).bind fun p => p.queues.find? fun x => x.lqi == lqi

end Sys2Proof.Says

/-- HQPUT and HQS_READ (R319): an aligned write of 64 bytes puts the record at TAIL and counts it, with status OK; a write that is none is refused with
0xFF, one that finds the part not in RUN, the index unbound or the queue dead is refused with DEAD, and one that finds it full with FULL; each
refusal is counted and puts nothing; a read answers HQS or HQR, as the index's window holds them, and changes nothing.
LAUNCH_TAKE and KERNEL_LOAD (R318, R328, R330, R331, R332): nothing is taken while the queue's previous launch waits to be placed; a malformed
record is REFUSED with code 1; a good one whose image the table does not hold is CHECKING while an entry loads at the lowest free identifier; one
whose kernel is loaded and fresh, and that R331 does not refuse, is PLACING, and counts in ACTV; a load that fails refuses the launches that wait
for it with its code. -/
def Obligations.LaunchQueuesAreServed : Prop :=
  (∀ (cix lqi : Nat) (s : State) (p : Part), s.part? cix = some p → lqi < 64 →
    let w := p.window lqi
    let refused (o : Host.Outcome State Fault Refusal) (code : Nat) : Prop :=
      Moves o s fun u => u.mem = s.mem ∧ ∃ x, u.part? cix = some x ∧ x.queues = p.queues
        ∧ x.window lqi = { lqi := w.lqi, last := BitVec.ofNat 8 code, acc := w.acc, ref := w.ref + 1 }
    (∀ q, ServesQueue s cix p q → q.lqi = lqi → (s.granule q.pa).b3.getLsbD 8 = false → (s.heat p (q.target s.mid)).isSome = true →
      s.isBad q.pa = false →
      let g := s.granule q.pa
      ∀ bytes, Safe s → bytes.length = 64 → qSlotBytes g = 64 → qLaunch g = true → qLqi g = lqi → qClosed g = false →
        (qCount g < qCapacity g → Moves (exec (.hqput cix lqi 0 bytes) s) s fun u =>
          u.mem = writeNat s.mem (qSlotPa g (qTail g)) (leNat bytes) 64 ∧ qTail (u.granule q.pa) = qTail g + 1
            ∧ (∃ x, u.part? cix = some x ∧ x.window lqi = { lqi := w.lqi, last := 0, acc := w.acc + 1, ref := w.ref })
            ∧ ∀ a, a < qSlotPa g (qTail g) ∨ qSlotPa g (qTail g) + 64 ≤ a → readByte u.mem a = readByte s.mem a)
        ∧ (qCapacity g ≤ qCount g → refused (exec (.hqput cix lqi 0 bytes) s) 6))
    ∧ (∀ off bytes, off < 64 → off ≠ 0 ∨ bytes.length ≠ 64 → refused (exec (.hqput cix lqi off bytes) s) 0xFF)
    ∧ (∀ bytes, bytes.length = 64 → p.st ≠ .run ∨ p.queues.find? (fun x => x.lqi == lqi) = none → refused (exec (.hqput cix lqi 0 bytes) s) 2)
    ∧ (∀ off bytes, 64 ≤ off → exec (.hqput cix lqi off bytes) s = .next s)
    ∧ (let gives (off v : Nat) : Prop := exec (.hqsRead cix lqi off) s = .next { s with
        out := s.out ++ [.hostData (0x20000000000 + cix * 0x4000000 + lqi * 0x100000 + off) ((List.range 8).map fun i => BitVec.ofNat 8 (v / 256 ^ i))] }
      gives 0x40 (w.last.toNat * 2 ^ 32 + w.acc.toNat) ∧ gives 0x48 w.ref.toNat ∧ ∀ off, off ≠ 0x40 → off ≠ 0x48 → gives off 0))
  ∧ (∀ (cix : Nat) (s : State) (p : Part) (q : LaunchQueue), ServesQueue s cix p q →
    let g := s.granule q.pa
    let r := headRecord s g
    let lid := p.newLid
    let l := launchOf r lid q.lqi q.born ((q.origins.head?).getD (none, none, 0)) (acquireFrom [] .pod none g.rels)
    let mine (m : Launch) : Prop := m.lqi = q.lqi ∧ m.born = q.born
    let takes (P : State → Part → Prop) : Prop := Moves (exec (.launchTake cix q.lqi) s) s fun u => u.mem = s.mem ∧ qHead (u.granule q.pa) = qHead g + 1
      ∧ ∃ x, u.part? cix = some x ∧ P u x
    ((∃ m ∈ p.launches, mine m ∧ m.st ≠ .running) ∨ qCount g = 0 → exec (.launchTake cix q.lqi) s = .next s)
    ∧ ((∀ m ∈ p.launches, mine m → m.st = .running) → 0 < qCount g → qSlotBytes g = 64 → (∀ m ∈ p.launches, m.lid ≠ lid) →
        (s.heat p (q.target s.mid)).isSome = true →
      (recordWellFormed p r = false → recField r 0 1 ≠ 1 → takes fun u x => x.launches = p.launches ∧ x.kernels = p.kernels
        ∧ ∃ d : Delivery, u.records = s.records ++ [d] ∧ d.record.code = .refused ∧ d.record.sub = 1 ∧ d.record.lid = BitVec.ofNat 32 lid)
      ∧ (∀ kid, recordWellFormed p r = true → recField r 0 1 = 0 → p.kernelAt l.kimg = none → p.freeKid = some kid →
          takes fun _ x => x.launches = p.launches ++ [l] ∧ x.kernels = p.kernels ++ [blankKernel kid l.kimg] ∧ l.st = .checking)
      ∧ (∀ k, recordWellFormed p r = true → recField r 0 1 = 0 → p.kernelAt l.kimg = some k → k.st = .loaded → s.kernelFresh p k = true →
          launchRefusal p k l = none →
          takes fun _ x => (∃ m ∈ x.launches, m.lid = lid ∧ m.st = .placing ∧ m.kid = k.kid ∧ m.next = 0)
            ∧ x.kernels = p.kernels.map fun y => if y.kid = k.kid then { y with actv := y.actv + 1 } else y))
    ∧ (∀ k m code, p.kernelAt k.kimg = some k → k.st = .loading → k.actv = 0 → p.waitersOf k.kimg = [m] → s.imageErrors p k = [] →
        s.readImage p k = .error code →
        Moves (exec (.kernelLoad cix k.kimg) s) s fun u => u.mem = s.mem ∧ (∃ x, u.part? cix = some x ∧ (∀ y ∈ x.kernels, y.kid ≠ k.kid)
          ∧ ∀ y ∈ x.launches, y.lid ≠ m.lid)
          ∧ ∃ d : Delivery, u.records = s.records ++ [d] ∧ d.record.code = .refused ∧ d.record.sub = BitVec.ofNat 8 code)
    ∧ (∀ k k1, p.kernelAt k.kimg = some k → k.st = .loading → p.waitersOf k.kimg = [] → s.imageErrors p k = [] → s.readImage p k = .ok k1 → k1.kid = k.kid →
        Moves (exec (.kernelLoad cix k.kimg) s) s fun u => u.mem = s.mem ∧ ∃ x, u.part? cix = some x
          ∧ x.kernels = p.kernels.map fun y => if y.kid = k.kid then { k1 with st := .loaded } else y))

/-- GROUP_PLACE (R89, R94, R322, R327, R340, R342): with one launch to place and no group listed, its next group is RESIDENT on the cores that the deal
gives, each strand at its entry with the launch's arguments and its place in the grid, on an empty L1; with no cores for it nothing is placed. No
other queue holds a record, the launch's queue has budget left, and the part is not about to leave its sites. -/
def Obligations.GroupsArePlaced : Prop :=
  ∀ (cix : Nat) (s : State) (p : Part) (q : LaunchQueue) (l : Launch) (k : Kernel), s.part? cix = some p → p.st = .run → p.current = true →
    s.switching p = false → p.queueOf l = some q → q.remain ≠ 0 →
    (∀ x ∈ p.queues, x.lqi = l.lqi ∧ x.born = l.born ∨ qCount (s.granule x.pa) = 0) → p.launches = [l] → l.st = .placing → l.heldBack = [] → l.dropped = [] →
    s.groups = [] → p.kernels.find? (fun x => x.kid == l.kid) = some k → l.hyp = 0 → 1 ≤ l.scnt → l.scnt ≤ 64 → l.next < l.nx * l.ny * l.nz →
    let grp : GroupId := { cix := cix, lid := l.lid, lgi := l.next }
    (dealCores p (s.freeCores p) l.scnt l.scnt = none → exec (.groupPlace cix) s = .next s)
    ∧ (∀ cores, dealCores p (s.freeCores p) l.scnt l.scnt = some cores → ∃ u : State, exec (.groupPlace cix) s = .next u ∧ u.mem = s.mem
        ∧ (∃ g, u.groups = [g] ∧ g.id = grp ∧ g.st = .resident ∧ g.held = false ∧ g.preempt = none)
        ∧ ∀ i c, cores[i]? = some c → (u.core c).l1 = [] ∧ (u.core c).store = (s.core c).store
          ∧ ∃ t, u.strand? { grp := grp, sidx := i } = some t ∧ t.place = c ∧ t.status = .run ∧ t.pc = entryPc k l.ent ∧ t.hcur = 0 ∧ t.loops = []
            ∧ t.scnt = l.scnt ∧ t.gx = BitVec.ofNat 16 (l.next % l.nx) ∧ t.gy = BitVec.ofNat 16 (l.next / l.nx % l.ny)
            ∧ t.gz = BitVec.ofNat 16 (l.next / (l.nx * l.ny)) ∧ t.kid = l.kid ∧ t.ent = l.ent ∧ t.bud ≤ 36
            ∧ ∀ n : Fin 64, t.g.get n = if 1 ≤ n.val ∧ n.val ≤ 3 then (l.args[n.val - 1]?).getD 0 else 0)

/-- LAUNCH_END, QUIESCENCE_SWEEP, REPLENISHMENT and OVERRUN (R321, R323, R333, R334, R335, R336): a static launch with nothing left ends, its kernel
counts one launch less, and its counter gets 1; a family ends at the second of two sweeps that agree; a queue's budget comes back at its deadline,
with its groups' overruns over; and a queue that has none left sends one OVERRUN, its placed groups pre-empted. -/
def Obligations.LaunchesEnd : Prop :=
  ∀ (cix : Nat) (s : State) (p : Part), s.part? cix = some p → p.serves = true → p.current = true →
    (∀ l, p.launches.find? (fun x => x.lid == l.lid) = some l →
      let ends (e : Instr) : Prop := ∃ u : State, ∃ x, exec e s = .next u ∧ u.cur = s.cur ∧ u.mem = s.mem ∧ u.part? cix = some x
        ∧ x.launches = p.launches.filter (fun y => y.lid != l.lid)
        ∧ (∀ k, p.kernels = [k] → k.kid = l.kid → k.st = .loaded → x.kernels = [{ k with actv := k.actv - 1 }])
        ∧ (l.governed = none → u.cells = s.cells)
        ∧ (∀ a, l.governed = some a → (s.granule a).tag = .queue → (s.granule a).gen ≠ l.govGen → u.granule a = s.granule a)
        ∧ (∀ a, l.governed = some a → (s.granule a).tag = .queue → (s.granule a).gen = l.govGen → 0 < fieldNat (s.granule a).b3 16 8 →
            fieldNat (u.granule a).b3 16 8 = fieldNat (s.granule a).b3 16 8 - 1)
        ∧ (l.ctrh = 0 → u.posts = s.posts)
        ∧ (l.ctrh ≠ 0 → ∃ m : Post, u.posts = s.posts ++ [m] ∧ m.handle = l.ctrh ∧ m.op = .ctrAdd 1 ∧ m.source = .launch l.lid)
      (l.dyn = false → s.launchOver p l = true → ends (.launchEnd cix l.lid))
      ∧ (s.launchOver p l = false ∨ l.dyn = true → exec (.launchEnd cix l.lid) s = .next s)
      ∧ (∀ f, p.families.find? (fun x => x.head == l.lid) = some f → f.head = l.lid →
        (∀ t, f.sweptAt = some t → s.clk.toNat < t + 2731 → exec (.quiescenceSweep cix l.lid) s = .next s)
        ∧ ((∀ t, f.sweptAt = some t → t + 2731 ≤ s.clk.toNat) →
          let notes (agreed : Option (Nat × Nat)) : Prop := Moves (exec (.quiescenceSweep cix l.lid) s) s fun u => u.mem = s.mem ∧ ∃ x, u.part? cix = some x
            ∧ x.launches = p.launches ∧ x.families.find? (fun y => y.head == l.lid) = some { f with sweptAt := some s.clk.toNat, agreed := agreed }
          (s.familyIdle p l.lid = true → f.sums.1 = f.sums.2 →
            (f.agreed = some f.sums → ends (.quiescenceSweep cix l.lid)) ∧ (f.agreed ≠ some f.sums → notes (some f.sums)))
          ∧ (s.familyIdle p l.lid = false ∨ f.sums.1 ≠ f.sums.2 → notes none))))
    ∧ (∀ q, p.queues.find? (fun x => x.lqi == q.lqi) = some q →
      let ofQueue (g : Group) : Prop := g.id.cix = cix ∧ ∃ l ∈ p.launches, l.lid = g.id.lid ∧ p.queueOf l = some q
      (s.clk.toNat < q.deadline.toNat → exec (.replenishment cix q.lqi) s = .next s)
      ∧ (q.deadline.toNat ≤ s.clk.toNat → ∃ u : State, exec (.replenishment cix q.lqi) s = .next u ∧ u.mem = s.mem ∧ u.cur.g = s.cur.g ∧ u.cur.pc = s.cur.pc
          ∧ queueAfter u cix q.lqi = some { q with remain := if q.budget = 0 then BitVec.allOnes 64 else q.budget * 1100
                                                   deadline := s.clk + q.period, overrun := false }
          ∧ (s.groups = [] → u.cur = s.cur ∧ u.others = s.others)
          ∧ ∀ g, s.groups = [g] → ofQueue g → ∃ h, u.groups = [h] ∧ h.id = g.id ∧ h.overrun = false
              ∧ (g.reserve = none → g.st = .resident ∨ g.st = .frozen → h.preempt = none))
      ∧ (q.remain ≠ 0 ∨ q.overrun = true ∨ s.groups = [] → exec (.overrun cix q.lqi) s = .next s)
      ∧ (∀ g ∈ s.groups, q.remain = 0 → q.overrun = false → ofQueue g → g.st = .resident ∨ g.st = .frozen ∨ g.st = .saving →
          ∃ u : State, exec (.overrun cix q.lqi) s = .next u ∧ (∃ r, queueAfter u cix q.lqi = some r ∧ r.overrun = true)
            ∧ (∃ d ∈ u.records, d.record.code = .overrun ∧ d.record.info = BitVec.ofNat 64 q.lqi)
            ∧ (s.groups = [g] → g.st = .frozen → u.mem = s.mem ∧ u.cur = s.cur ∧ ∃ h, u.groups = [h] ∧ h.preempt.isSome = true ∧ h.overrun = true)))

/-- SWAP, SAVE_COMPLETE, GRACE_EXPIRY and SAVE_RETRY (R345-R349): a group all of whose strands have been parked past the threshold reserves and is
SAVING, or stays as it was where the region has no room; its records are written once its queues have drained, each at the live set of its wait, and
what the reservation has left over is returned; a strand that has not stopped in its grace time stops at its instruction boundary with a full save;
a reservation is made when the first strand has stopped, and one that finds no room sends SAVEFULL once. -/
def Obligations.GroupsAreSaved : Prop :=
  ∀ (s : State) (g : Group) (p : Part), s.groups = [g] → s.part? g.id.cix = some p →
    (s.swapRule p g = false → exec (.swap g.id) s = .next s)
    ∧ (s.swapRule p g = true → s.reserve g.id (s.needOfGroup g.id) = none → exec (.swap g.id) s = .next s)
    ∧ (s.swapRule p g = true → (s.reserve g.id (s.needOfGroup g.id)).isSome = true →
        Moves (exec (.swap g.id) s) s fun u => u.mem = s.mem ∧ ∃ off, u.groups = [{ g with st := .saving, reserve := some (off, s.needOfGroup g.id, 0) }]
          ∧ s.saveHead p ≤ off ∧ off + s.needOfGroup g.id ≤ (regionOf p.csavb p.csavl).2)
    ∧ (∀ k off len used, s.others = [] → s.cur.id.grp = g.id → s.cur.ended = false → s.cur.park = some k → k.result = none → g.st = .saving →
        g.reserve = some (off, len, used) → s.canSave s.cur = true →
        let live := s.liveSet s.cur k.ls
        used + live.size s.cur.boundMask ≤ len →
        ∃ u : State, ∃ r, exec (.saveComplete g.id) s = .next u ∧ u.cur.status = .swapped ∧ u.cur.saved = some r ∧ u.cur.pc = s.cur.pc ∧ u.cur.g = s.cur.g
          ∧ r.kind = 0 ∧ r.ls = k.ls ∧ r.live = live ∧ r.addr = (regionOf p.csavb p.csavl).1 + off + used ∧ r.len = live.size s.cur.boundMask
          ∧ u.groups = [{ g with st := .swapped
                                 reserve := some (off, used + live.size s.cur.boundMask, used + live.size s.cur.boundMask) }])
    ∧ (g.st ≠ .saving → exec (.saveComplete g.id) s = .next s)
    ∧ (∀ since, s.cur.id.grp = g.id → s.cur.status = .run → s.cur.stop = none → s.cur.blocked = none → s.cur.lost = [] → g.preempt = some since →
        g.st = .resident → p.current = true →
        (s.clk.toNat < since + p.grace → exec (.graceExpiry s.cur.id) s = .next s)
        ∧ (since + p.grace ≤ s.clk.toNat → ∃ u : State, exec (.graceExpiry s.cur.id) s = .next u ∧ u.cur.g = s.cur.g
            ∧ (u.cur.stop = some .boundary ∧ u.cur.status = .run ∧ u.cur.pc = s.cur.pc
              ∨ u.cur.status = .ready ∧ ∃ r, u.cur.saved = some r ∧ r.kind = 2 ∧ r.live = s.fullLive s.cur)))
    ∧ (g.preempt = none ∨ g.st ≠ .resident → exec (.saveRetry g.id) s = .next s)
    ∧ (g.preempt.isSome = true → g.st = .resident → g.reserve = none → s.reserve g.id (s.needOfGroup g.id) = none →
        ((∀ t ∈ s.groupStrands g.id, t.status = .run ∧ t.stop = none) → exec (.saveRetry g.id) s = .next s)
        ∧ ((∀ t ∈ s.groupStrands g.id, t.status = .run ∧ (t.stop = none ∨ s.canSave t = false)) → (∃ t ∈ s.groupStrands g.id, t.stop ≠ none) →
        (g.fullSent = true → exec (.saveRetry g.id) s = .next s)
        ∧ (g.fullSent = false → Moves (exec (.saveRetry g.id) s) s fun u => u.mem = s.mem ∧ u.groups = [{ g with fullSent := true }]
            ∧ ∃ d : Delivery, u.records = s.records ++ [d] ∧ d.record.code = .saveFull ∧ d.record.ghnd = groupHandle g.id)))

/-! ### Records and the DOUBLE (spec/19_fault.md R354-R361) -/

/-- FAULT_RECORD_DELIVERY and DOUBLE (R354, R356, R357, R360): a record waits for its strand's tags; with no fault queue one that froze a strand is held
and any other is counted in LOST; on a fault queue with room its 64 bytes stand at TAIL; a fault of the foreman leaves its record in CDREC, and
without a restart policy the part is in ERROR with cause 0x10 and its strands frozen. -/
def Obligations.RecordsAreDelivered : Prop :=
  (∀ (s : State) (d : Delivery) (p : Part), s.records = [d] → s.part? d.cix = some p →
    (∀ tags, d.after = some (s.cur.id, tags) → (∃ t ∈ tags, t ∈ s.cur.unacked) → exec (.faultRecordDelivery d.id) s = .next s)
    ∧ (d.after = none ∨ (∃ tags, d.after = some (s.cur.id, tags) ∧ ∀ t ∈ tags, t ∉ s.cur.unacked) →
      (p.fqh = 0 → p.buffer = [] → Moves (exec (.faultRecordDelivery d.id) s) s fun u => u.mem = s.mem ∧ u.records = [] ∧ ∃ x, u.part? d.cix = some x
          ∧ (d.record.frz = true → x.buffer = [{ d.record with held := true }] ∧ x.lost = p.lost)
          ∧ (d.record.frz = false → x.buffer = [] ∧ x.lost = p.lost + 1))
      ∧ (∀ t, Safe s → p.fqh ≠ 0 → p.double = none → p.buffer = [] → (handleVa p.fqh).toNat % 32 = 0 →
          s.translate d.cix (coreCluster (s.foremanCore p)) (handleVa p.fqh) .cell = .ok t → t.mid = s.mid →
          let g := s.granule t.pa
          (s.heat p t).isSome = true → s.isBad t.pa = false → g.tag = .queue → g.dead = false → g.own = 0 → p.fqh.toNat / 2 ^ 56 = g.gen.toNat % 256 → qSlotBytes g = 64 → PlainQueue g →
          s.waitsAt g.pa = [] → qCount g < qCapacity g → d.id < s.fresh →
          Moves (exec (.faultRecordDelivery d.id) s) s fun u => (∀ e ∈ u.records, e.id ≠ d.id) ∧ u.mem = writeNat s.mem (qSlotPa g (qTail g)) d.record.bits.toNat 64
            ∧ qTail (u.granule t.pa) = qTail g + 1 ∧ ∃ x, u.part? d.cix = some x ∧ x.buffer = [] ∧ x.lost = p.lost)))
  ∧ ∀ (s : State) (cix : Nat) (p : Part), s.part? cix = some p →
    (p.double = none → exec (.double cix) s = .next s)
    ∧ (∀ r, p.double = some r → p.st = .run → p.cdpol.getLsbD 0 = false → ∃ u : State, ∃ x, exec (.double cix) s = .next u ∧ u.mem = s.mem ∧ u.part? cix = some x
        ∧ x.st = .error ∧ x.cause = 0x10 ∧ x.double = none
        ∧ x.cdrec = ({ r with code := .double, sub := BitVec.ofNat 8 (faultCodeNat r.code) } : Record).bits
        ∧ ∀ t ∈ u.strands, t.id.grp.cix = cix → t.status ≠ .run ∧ t.status ≠ .parked)
/-! ### The life of a part (spec/12_context.md R245-R261) -/

namespace Sys2Proof.Says

/-- A refused command: CAUSE, and the part stays as it was (R247). -/
def Refuses (o : Host.Outcome State Fault Refusal) (s : State) (p : Part) (cause : Byte) : Prop :=
  Moves o s fun u => u.mem = s.mem ∧ u.part? p.cix = some { p with cause := cause }
/-- The part becomes p'. -/
def Becomes (o : Host.Outcome State Fault Refusal) (s : State) (p' : Part) : Prop :=
  Moves o s fun u => u.mem = s.mem ∧ u.part? p'.cix = some p'
/-- A part of a command register: indexes 1 to 63. -/
def Indexed (s : State) (p : Part) : Prop := s.part? p.cix = some p ∧ 1 ≤ p.cix ∧ p.cix ≤ 63
/-- What a part that enters ERROR looks like: its cause, and none of its strands in RUN or PARKED (R247). -/
def InError (o : Host.Outcome State Fault Refusal) (s : State) (cix : Nat) (cause : Byte) : Prop :=
  ∃ u : State, ∃ x, o = .next u ∧ u.mem = s.mem ∧ u.part? cix = some x ∧ x.st = .error ∧ x.cause = cause
    ∧ ∀ t ∈ u.strands, t.id.grp.cix = cix → t.status ≠ .run ∧ t.status ≠ .parked

end Sys2Proof.Says

/-- CREATE, LOCK and START, as commands and as TDISP requests (R247, R248, R256, R257, R259): CREATE takes a free key slot; LOCK refuses with the cause
of its first failed check, and else fixes the measurements; START refuses a foreman image that R329 refuses with CAUSE 7, and else the part is in
RUN with every granule FREE and its foreman at entry 0; in every other state a command is refused with CAUSE 6. -/
def Obligations.PartsBegin : Prop :=
  (∀ (cix : Nat) (s : State), 1 ≤ cix → cix ≤ 63 → s.firmware.verified = true → s.partState cix = .free →
    (∀ n, s.freeSlot = some n → Moves (exec (.create cix) s) s fun u => u.mem = s.mem ∧ ∃ key, u.part? cix = some { blankPart cix s.mid with
      st := .configuring, cause := ((s.part? cix).map Part.cause).getD 0, ckey := BitVec.ofNat 64 n, privateKey := key })
    ∧ (s.freeSlot = none → Moves (exec (.create cix) s) s fun u => ∃ x, u.part? cix = some x ∧ x.st = .free ∧ x.cause = 4))
  ∧ ∀ (s : State) (p : Part), Indexed s p →
    (p.st ≠ .free → s.firmware.verified = true → Refuses (exec (.create p.cix) s) s p 6)
    ∧ (s.firmware.verified = false → exec (.create p.cix) s = .next s)
    ∧ (∀ i : Instr, i = .lock p.cix ∨ i = .lockInterfaceRequest p.cix →
      (p.st ≠ .configuring → Refuses (exec i s) s p 6)
      ∧ (p.st = .configuring →
        (∀ c, s.lockCause p = some c → Refuses (exec i s) s p c)
        ∧ (s.lockCause p = none → Becomes (exec i s) s { p with st := .locked, measures := s.lockMeasures p, current := !p.ts })))
    ∧ (∀ i : Instr, i = .start p.cix ∨ i = .startInterfaceRequest p.cix →
      (p.st ≠ .locked → Refuses (exec i s) s p 6)
      ∧ (p.st = .locked →
        (∀ c, s.foremanImage p = (s, .error c) → Refuses (exec i s) s p 7)
        ∧ (∀ w c, s.foremanImage p = (w, .error c) → w.parts = s.parts → ∃ u : State, exec i s = .next u ∧ u.part? p.cix = some { p with cause := 7 })
        ∧ (∀ k, s.foremanImage p = (s, .ok k) → p.ts = false → s.strand? (foremanId p.cix) = none →
          ∃ u : State, ∃ x t, exec i s = .next u ∧ u.cur = s.cur ∧ u.mem = s.mem ∧ u.part? p.cix = some x ∧ x.st = .run ∧ x.current = true ∧ x.swapt = p.cswt
            ∧ (p.tableModule = s.mid → x.hyps = []) ∧ x.queues = [] ∧ x.launches = [] ∧ x.fqh = 0 ∧ x.logical = s.logicalCores p ∧ k ∈ x.kernels
            ∧ (∀ g ∈ u.cells, p.inRanges g.pa 32 = false)
            ∧ u.strand? (foremanId p.cix) = some t ∧ t.fmn = true ∧ t.status = .run ∧ t.place = s.foremanCore p ∧ t.pc = entryPc k 0
            ∧ t.g = Vector.replicate 64 0 ∧ t.loops = [] ∧ t.hcur = 0)))

/-- STOP, RELEASE, INVALID_COMMAND, STOP_DRAIN_COMPLETE, SCRUB_COMPLETE and PART_ERROR (R247, R250, R258): STOP of a part in RUN drains it, of one in
ERROR scrubs it; RELEASE scrubs; a command that the state does not list is refused with CAUSE 6; a drained part is scrubbed; a scrubbed one is FREE
with its registers as at CREATE, the vaults and, under ZF, the HBM that are its own zero, and no byte of HBM of another part changed; an error
freezes every strand of the part. -/
def Obligations.PartsEnd : Prop :=
  ∀ (s : State) (p : Part), Indexed s p →
    let scrubs (o : Host.Outcome State Fault Refusal) : Prop := ∃ u : State, ∃ x, o = .next u ∧ u.mem = s.mem ∧ u.part? p.cix = some x ∧ x.st = .scrubbing
      ∧ (∀ t ∈ u.strands, t.id.grp.cix = p.cix → t.ended = true) ∧ (∀ g ∈ u.groups, g.id.cix ≠ p.cix) ∧ ∀ d ∈ u.records, d.cix ≠ p.cix
    let another (q : Part) : Prop := q ∈ s.parts ∧ q.cix ≠ p.cix ∧ q.st ≠ .free ∧ q.st ≠ .configuring
    let own (a : Nat) : Prop := p.inRanges a 1 = true ∧ ∀ q, another q → q.inRanges a 1 = false
    (∀ i : Instr, i = .stop p.cix ∨ i = .stopInterfaceRequest p.cix →
      (p.st = .run ∨ p.st = .quiescing ∧ p.draining.isSome = true → (∀ g ∈ s.groups, g.id.cix = p.cix → g.st = .frozen) →
        Moves (exec i s) s fun u => u.mem = s.mem ∧ u.part? p.cix = some { p with st := .quiescing, draining := none }
          ∧ ∀ g ∈ u.groups, g.id.cix = p.cix → g.preempt.isSome = true)
      ∧ (p.st = .error → scrubs (exec i s))
      ∧ (p.st ≠ .run → p.st ≠ .error → (p.st = .quiescing → p.draining = none) → Refuses (exec i s) s p 6))
    ∧ (p.st = .configuring ∨ p.st = .locked ∨ p.st = .error → scrubs (exec (.release p.cix) s))
    ∧ (p.st = .free ∨ p.st = .run ∨ p.st = .quiescing ∨ p.st = .scrubbing → Refuses (exec (.release p.cix) s) s p 6)
    ∧ (∀ code, listedCommand p.st p.draining.isSome code.toNat = false → Refuses (exec (.invalidCommand p.cix code) s) s p 6)
    ∧ (p.st = .quiescing → p.draining = none → s.drainedPart p.cix = true →
        ((∀ x ∈ s.sites, x.stat ≠ 1 ∨ p.csite.getLsbD x.n = false) → scrubs (exec (.stopDrainComplete p.cix) s))
        ∧ ∃ u : State, ∃ x, exec (.stopDrainComplete p.cix) s = .next u ∧ u.part? p.cix = some x ∧ x.st = .scrubbing)
    ∧ (p.st ≠ .quiescing ∨ p.draining.isSome = true ∨ s.drainedPart p.cix = false → exec (.stopDrainComplete p.cix) s = .next s)
    ∧ (p.st = .scrubbing → p.ts = false → Moves (exec (.scrubComplete p.cix) s) s fun u =>
        u.part? p.cix = some { blankPart p.cix s.mid with cause := p.cause } ∧ (∀ g ∈ u.cells, ¬own g.pa)
          ∧ (p.zf = true → ∀ a, own a → readByte u.mem a = 0)
          ∧ (p.current = true → ∀ a l, vaultOf a = some l → p.csite.getLsbD l.1.site = true → (∀ q, another q → q.csite.getLsbD l.1.site = false) →
              readByte u.mem a = 0)
          ∧ (Safe s → ∀ a, ¬own a → vaultOf a = none → readByte u.mem a = readByte s.mem a))
    ∧ (p.st ≠ .scrubbing → exec (.scrubComplete p.cix) s = .next s)
    ∧ (∀ e code, (e, code) ∈ [(PartErrorCause.double, (0x10 : Byte)), (.ide, 0x11), (.region, 0x12)] →
        (p.st = .locked ∨ p.st = .run ∨ p.st = .quiescing → InError (exec (.partError p.cix e) s) s p.cix code)
        ∧ (p.st = .free ∨ p.st = .configuring ∨ p.st = .error ∨ p.st = .scrubbing → exec (.partError p.cix e) s = .next s))

/-- REGISTER_WRITE and VBND_WRITE (R182, R246, R248): in CONFIGURING an RW register takes the bits of its field, and no other; in LOCKED the write makes
the part ERROR with CAUSE 0x13; in every other state it changes nothing. A window size is written while no owner has left CONFIGURING, and a write
then refused is reported to the host. MLOST keeps its range (what a value outside it does is assumption 16).
CHALLENGE, GET_MEASUREMENTS, SHARED_KEY_INSTALL, FIRMWARE_LOAD and LIVE_UPDATE (R257, R259, R261, R437): the measurements leave under the last
nonce, the first the firmware's digest; a key fills the shared slot of a part with SHK; an image that fails verification is not verified at load and
is not applied live; an update is noted in every site's scrivener and to every foreman, and the ports retrain one at a time. -/
def Obligations.PartRegistersAndAttestation : Prop :=
  (∀ s : State,
    (∀ (p : Part) (x : Word64), Indexed s p →
      let base := 0x20100800000 + p.cix * 0x1000
      let written : List (Nat × Part) :=
        [(0x010, { p with cid := x &&& 0xFFFFFFFF }), (0x018, { p with csite := x &&& 0xFFFFFFFF }), (0x028, { p with cfmn := x &&& 0x3FFFFF }),
         (0x030, { p with cfki := x &&& 0xFFFFFFFFFFFFFF }), (0x038, { p with cptr := x &&& 0xFFFFFFFFF000 }),
         (0x040, { p with chbm := p.chbm.set 0 (x &&& 0x3FFFFFFC0000000) }), (0x078, { p with chbm := p.chbm.set 7 (x &&& 0x3FFFFFFC0000000) }),
         (0x080, { p with csavb := x &&& 0xFFFFFFFF0000 }), (0x088, { p with csavl := x &&& 0xFFFFFFFF }),
         (0x0B0, { p with cswt := x &&& 0xFFFFFFFF }), (0x0C8, { p with cgrace := x &&& 0xFFFFFFFF }), (0x0D0, { p with cdpol := x &&& 1 }),
         (0x0D8, { p with chtm := x &&& 0xFF })]
      (∀ e ∈ written,
        (p.st = .configuring → Becomes (exec (.registerWrite (base + e.1) x) s) s e.2)
        ∧ (p.st = .locked → InError (exec (.registerWrite (base + e.1) x) s) s p.cix 0x13)
        ∧ (p.st ≠ .configuring → p.st ≠ .locked → exec (.registerWrite (base + e.1) x) s = .next s))
      ∧ exec (.registerWrite base x) s = .next s ∧ exec (.registerWrite (base + 8) x) s = .next s)
    ∧ (∀ x : Word64, 1000 ≤ x.toNat % 2 ^ 32 → exec (.registerWrite 0x20100400008 x) s = .next { s with lostt := x.toNat % 2 ^ 32 })
    ∧ ∀ (l : ClusterLoc) (x : Word64),
      ((∀ q ∈ s.parts, q.csite.getLsbD l.site = true → q.st = .free ∨ q.st = .configuring) → x.toNat % 16 ≤ 8 →
        Moves (exec (.vbndWrite l x) s) s fun u => u.mem = s.mem ∧ u.winOf l = x.toNat % 16 ∧ ∀ m, m ≠ l → u.winOf m = s.winOf m)
      ∧ ((∀ q ∈ s.parts, q.csite.getLsbD l.site = true → q.st = .free ∨ q.st = .configuring) → 8 < x.toNat % 16 → exec (.vbndWrite l x) s = .next s)
      ∧ ((∃ q ∈ s.parts, q.csite.getLsbD l.site = true ∧ q.st ≠ .free ∧ q.st ≠ .configuring) → exec (.vbndWrite l x) s
          = .next { s with out := s.out ++ [.hostError (0x20100000100 + l.site * 0x10000 + l.cluster * 8)] }))
  ∧ (∀ s : State,
    (∀ (p : Part) (n : BitVec 256) (k : BitVec 512), Indexed s p →
      (p.st ≠ .free → Becomes (exec (.challenge p.cix n) s) s { p with nonce := n }
        ∧ ∃ m2, let ms := (1, s.firmware.digest) :: (2, m2) :: p.measures
          exec (.getMeasurements p.cix) s = .next { s with out := s.out ++ [.attest p.cix p.nonce ms (Config.signature (transcript p.nonce ms))] })
      ∧ (p.shk = true → p.st ≠ .free → p.st ≠ .scrubbing → Becomes (exec (.sharedKeyInstall p.cix k) s) s { p with sslot := true, sharedKey := k })
      ∧ (p.shk = false → Becomes (exec (.sharedKeyInstall p.cix k) s) s p))
    ∧ ∀ i : FirmwareImage,
      let good := Config.signatureGood i = true ∧ Config.minSecVer ≤ i.secVer.toNat
      (good → exec (.firmwareLoad i) s = .next { s with firmware := { digest := i.digest, secVer := i.secVer, verified := true } })
      ∧ (¬good → exec (.firmwareLoad i) s = .next { s with firmware := { digest := i.digest, secVer := i.secVer, verified := false } }
          ∧ exec (.liveUpdate i) s = .next s)
      ∧ (good → Moves (exec (.liveUpdate i) s) s fun u => u.mem = s.mem ∧ u.parts = s.parts
          ∧ u.firmware = { digest := i.digest, secVer := i.secVer, verified := true }
          ∧ (s.parts.length ≤ 64 → ∀ n, n < 32 → ∃ e ∈ (u.site n).events, e.kind = 7 ∧ e.addr = i.secVer.setWidth 64)
          ∧ ((∀ q ∈ s.ports, q.st ≠ .up ∧ q.st ≠ .retraining) → u.ports = s.ports.map fun q => { q with due := false })
          ∧ (∀ q, s.ports = [q] → q.st = .up → (u.port q.n).st = .retraining ∧ (u.port q.n).rtr = Nat.min 65535 (q.rtr + 1))
          ∧ (∀ p ∈ s.parts, p.serves = true → ∃ d ∈ u.records, d.cix = p.cix ∧ d.record.code = .notice ∧ d.record.info = i.secVer.setWidth 64)
          ∧ s.records <+: u.records))

/-! ### Power, resets, soft errors, retired sites (spec/26_platform.md R431-R439; spec/00_scope.md R7; spec/22_hypothesis.md R403) -/

namespace Sys2Proof.Says

/-- A site becomes x, and no other site changes. -/
def SiteBecomes (o : Host.Outcome State Fault Refusal) (s : State) (n : Nat) (P : Site → Prop) : Prop :=
  Moves o s fun u => u.mem = s.mem ∧ u.parts = s.parts ∧ P (u.site n) ∧ ∀ m, m ≠ n → u.site m = s.site m
/-- The newest entry of a site's scrivener is of a kind. -/
def Notes (x : Site) (kind : Nat) : Prop := ∃ e, x.events.head? = some e ∧ e.kind = kind

end Sys2Proof.Says

/-- TIME_SHARE_SWITCH (R252, R253): nothing happens within the quantum while the current part has work; once it is idle, or has left RUN and QUIESCING,
and nothing of it stands on the sites, the next part of the ring is current from this cycle, and a foreman that never ran begins entry 0.
SRET_GO and RETIREMENT_DRAIN_COMPLETE (R438): a site is refused while it is the only one of a part in RUN, LOCKED or QUIESCING; it is drained by an
owner in RUN, waits for one that is QUIESCING already, and is retired at once where no owner runs (assumption 17); a drained site is RETIRED, its
owner is in RUN again with its logical cores computed anew. -/
def Obligations.RingSwitchesAndSitesRetire : Prop :=
  (∀ (s : State) (p q : Part), s.part? p.cix = some p → s.part? q.cix = some q → q.cix ≠ p.cix → s.nextInRing p = some q →
    (p.current = false ∨ p.st = .free ∨ p.st = .configuring ∨ p.st = .locked → exec (.timeShareSwitch p.cix) s = .next s)
    ∧ (p.serves = true → (∀ t ∈ s.strands, t.id.grp.cix = p.cix → t.fmn = true → t.stop = none ∧ t.saved = none) →
        s.clk.toNat < p.since + p.ctsq.toNat % 2 ^ 32 * 1100 → s.idlePart p = false → exec (.timeShareSwitch p.cix) s = .next s)
    ∧ (p.current = true → p.serves = true ∧ p.double = none ∧ p.since < s.clk.toNat ∨ p.st = .error ∨ p.st = .scrubbing → p.launches = [] → s.groups = [] → s.jobs = [] → s.versions = [] →
        (∀ t ∈ s.strands, t.id.grp.cix ≠ p.cix ∧ t.id.grp.cix ≠ q.cix) →
        ∃ u : State, ∃ x y, exec (.timeShareSwitch p.cix) s = .next u ∧ u.cur = s.cur ∧ u.part? p.cix = some x ∧ x.current = false
          ∧ u.part? q.cix = some y ∧ y.current = true ∧ y.since = s.clk.toNat
          ∧ (∀ e ∈ u.tlb, p.csite.getLsbD e.cluster.site = false)
          ∧ ∀ k, q.kernels.find? (fun z => z.kid == 256) = some k → ∃ t, u.strand? (foremanId q.cix) = some t ∧ t.fmn = true ∧ t.pc = entryPc k 0
              ∧ t.place = s.foremanCore q))
  ∧ (∀ (n : Nat) (s : State), n < 32 →
    ((s.site n).stat = 1 ∨ (s.site n).stat = 2 → exec (.sretGo n) s = .next s)
    ∧ ((s.site n).stat ≠ 1 → (s.site n).stat ≠ 2 →
      ((∃ p ∈ s.ownersOf n, (p.st = .run ∨ p.st = .locked ∨ p.st = .quiescing) ∧ p.sites.length = 1) →
        SiteBecomes (exec (.sretGo n) s) s n fun x => x.stat = 3)
      ∧ ((∀ p ∈ s.ownersOf n, p.st = .configuring) → Moves (exec (.sretGo n) s) s fun u => u.parts = s.parts ∧ (u.site n).stat = 2 ∧ Notes (u.site n) 8
          ∧ (∀ m, m ≠ n → u.site m = s.site m) ∧ (∀ a l, vaultOf a = some l → l.1.site = n → readByte u.mem a = 0)
          ∧ ∀ a, (∀ l, vaultOf a = some l → l.1.site ≠ n) → readByte u.mem a = readByte s.mem a)
      ∧ (∀ p, s.ownersOf n = [p] → s.part? p.cix = some p → p.st = .locked ∧ p.sites.length ≠ 1 ∨ p.st = .error ∨ p.st = .scrubbing →
          Moves (exec (.sretGo n) s) s fun u => (u.site n).stat = 2 ∧ Notes (u.site n) 8 ∧ u.part? p.cix = some { p with gone := n :: p.gone })
      ∧ ((∃ p ∈ s.ownersOf n, p.st = .quiescing) → (∀ p ∈ s.ownersOf n, p.sites.length ≠ 1) →
          SiteBecomes (exec (.sretGo n) s) s n fun x => x.stat = 1 ∧ Notes x 8)
      ∧ (∀ p, s.ownersOf n = [p] → s.part? p.cix = some p → p.st = .run → p.sites.length ≠ 1 → s.groups = [] →
          Moves (exec (.sretGo n) s) s fun u => u.mem = s.mem ∧ (u.site n).stat = 1 ∧ Notes (u.site n) 8
            ∧ u.part? p.cix = some { p with st := .quiescing, draining := some n }))
    ∧ ((∀ p ∈ s.parts, p.st ≠ .quiescing ∨ p.draining ≠ some n) → exec (.retirementDrainComplete n) s = .next s)
    ∧ (∀ p, s.parts = [p] → p.st = .quiescing → p.draining = some n → s.groups = [] →
        (s.siteDrained p.cix n = false → exec (.retirementDrainComplete n) s = .next s)
        ∧ (s.siteDrained p.cix n = true → s.strand? (foremanId p.cix) = none → s.versions = [] → (∀ x ∈ s.sites, x.stat = 1 → x.n = n) →
            Moves (exec (.retirementDrainComplete n) s) s fun u => (u.site n).stat = 2
              ∧ (∃ x, u.parts = [x] ∧ x.st = .run ∧ x.draining = none ∧ x.cix = p.cix ∧ n ∈ x.gone ∧ ∀ c ∈ x.logical, c.site ≠ n)
              ∧ (∀ e ∈ u.tlb, e.cluster.site ≠ n) ∧ ∀ a l, vaultOf a = some l → l.1.site = n → readByte u.mem a = 0)))

/-- GRANT, THERMAL_TRIP and THERMAL_CLEAR (R431, R432, R433): a grant sets GRANT and the duty max(1, min(64, floor(64 × grant / demand))), within the 48
that is sustained for E2M1X while every site demands current; a trip is counted up to 65,535, noted, and holds the duty at 1 until it clears.
SOFT_ERROR (R403, R439): a bad register of a strand in RUN freezes it with PARITY, ADDR 0 and INFO 0, and its site notes it; a bad bound register
loses its binding's residency alone; a bad line is remembered; a local store or accumulator with no strand on it is noted.
COLD_RESET and WARM_RESET (R7, R91, R419, R433, R435, R438): every part is FREE and nothing runs or is in flight; a cold reset clears the clock and
advances the incarnation; a warm reset keeps both, with the scriveners, the trips, the retrains and the retired sites. Fuses, MID and firmware stay
(what memory reads as afterwards is assumption 2). -/
def Obligations.PowerSoftErrorsAndResets : Prop :=
  (∀ (n : Nat) (s : State), n < 32 →
    (∀ watts demand, watts < 1024 → 0 < demand →
        let d := Nat.max 1 (Nat.min 64 (64 * watts / demand))
        let crowded : Prop := s.siteDemands n true = true ∧ ∀ m, m < 32 → m ≠ n → (s.site m).stat = 2 ∨ s.siteDemands m false = true
        SiteBecomes (exec (.grant n watts demand) s) s n fun x =>
          x.grant = watts ∧ x.tripped = (s.site n).tripped ∧ (crowded → x.duty = Nat.min 48 d) ∧ (¬crowded → x.duty = d))
    ∧ ((s.site n).tripped = false → SiteBecomes (exec (.thermalTrip n) s) s n fun x =>
        x.tripped = true ∧ x.trips = Nat.min 65535 ((s.site n).trips + 1) ∧ x.dutyNow = 1 ∧ Notes x 4)
    ∧ ((s.site n).tripped = true → exec (.thermalTrip n) s = .next s
        ∧ SiteBecomes (exec (.thermalClear n) s) s n fun x => x.tripped = false ∧ x.dutyNow = (s.site n).duty ∧ x.trips = (s.site n).trips)
    ∧ ((s.site n).tripped = false → exec (.thermalClear n) s = .next s))
  ∧ (∀ s : State,
    (∀ i : Instr, i = .softError (.register s.cur.id) ∨ i = .softError (.hotLine s.cur.id) → s.cur.status = .run → s.cur.fmn = false →
      ∃ u : State, ∃ d, exec i s = .next u ∧ u.mem = s.mem ∧ u.cur.status = .frozen ∧ u.cur.pc = s.cur.pc ∧ u.cur.g = s.cur.g
        ∧ u.records = s.records ++ [d] ∧ d.record.code = .parity ∧ d.record.addr = 0 ∧ d.record.info = 0
        ∧ ∃ e ∈ (u.site s.cur.place.site).events, e.kind = 9 ∧ e.clk = s.clk)
    ∧ (s.cur.status = .run → s.cur.fmn = false → ∃ u : State, ∃ d, exec (.softError (.fetchLine s.cur.id)) s = .next u ∧ u.mem = s.mem
        ∧ u.cur.status = .frozen ∧ u.cur.pc = s.cur.pc ∧ u.cur.g = s.cur.g ∧ u.records = s.records ++ [d] ∧ d.record.code = .parity
        ∧ d.record.addr = BitVec.ofNat 64 (s.cur.pc.toNat / 64 * 64) ∧ d.record.info ≠ 0 ∧ d.record.info.toNat < 65536
        ∧ ∃ e ∈ (u.site s.cur.place.site).events, e.kind = 9 ∧ e.clk = s.clk)
    ∧ (∀ v b, (s.cur.vr v).binding = some b → b.st = .resident → ∃ u : State, exec (.softError (.boundReg s.cur.id v)) s = .next u ∧ u.mem = s.mem
        ∧ u.cur = s.cur.dropEntry v b ∧ u.others = s.others ∧ u.records = s.records ∧ Notes (u.site s.cur.place.site) 9)
    ∧ (∀ c, s.strandOn c = none → ∀ i : Instr, i = .softError (.localStore c) ∨ i = .softError (.accumulator c) →
        Moves (exec i s) s fun u => u.mem = s.mem ∧ u.records = s.records ∧ Notes (u.site c.site) 9)
    ∧ (∀ pa, s.isBad pa = false → exec (.softError (.line pa)) s = .next { s with badLines := lineOf pa :: s.badLines }))
  ∧ (∀ s : State,
    let cleared (u : State) : Prop := u.parts = [] ∧ u.groups = [] ∧ u.net = [] ∧ u.cells = [] ∧ u.jobs = [] ∧ u.tlb = [] ∧ u.others = []
      ∧ u.cur.ended = true ∧ u.hmap = s.hmap ∧ u.mid = s.mid ∧ u.firmware = s.firmware ∧ (∀ a, isHost a = false → readByte u.mem a = 0)
      ∧ (Safe s → ∀ a, isHost a = true → readByte u.mem a = readByte s.mem a)
    (∃ u : State, exec .coldReset s = .next u ∧ cleared u ∧ u.inc = s.inc + 1 ∧ u.clk = 0 ∧ u.ports = [] ∧ u.sites = [] ∧ u.peers = [])
    ∧ (∃ u : State, exec .warmReset s = .next u ∧ cleared u ∧ u.inc = s.inc ∧ u.clk = s.clk
        ∧ u.ports.map (fun p => (p.n, p.st, p.rtr)) = s.ports.map (fun p => (p.n, .down, p.rtr))
        ∧ u.sites.map (fun x => (x.n, x.trips, x.events, x.next)) = s.sites.map (fun x => (x.n, x.trips, x.events, x.next))
        ∧ (∀ x ∈ u.sites, x.tripped = false ∧ (x.stat = 0 ∨ x.stat = 2))
        ∧ u.peers.map (fun q => (q.mid, q.inc)) = s.peers.map (fun q => (q.mid, q.inc))))
/-! ### Links and the host (spec/25_link.md R416-R430) -/

namespace Sys2Proof.Says

/-- A port becomes P, and no other port changes; its site's scrivener notes the new state with its code (R419, R435). -/
def PortMoves (o : Host.Outcome State Fault Refusal) (s : State) (n code : Nat) (P : Port → Prop) : Prop :=
  Moves o s fun u => u.mem = s.mem ∧ P (u.port n) ∧ (∀ m, m ≠ n → u.port m = s.port m)
    ∧ ∃ e, (u.site (portSite n)).events.head? = some e ∧ e.kind = 2 ∧ e.code = BitVec.ofNat 8 code ∧ e.port = n
/-- Nothing of the module waits: one strand, with no access, line, park or far page outstanding, no cell or wait, and no request or invalidation. -/
def Quiet (s : State) : Prop :=
  s.others = [] ∧ s.cur.blocked = none ∧ s.cur.line = none ∧ s.cur.park = none ∧ s.waits = [] ∧ s.cells = [] ∧ s.net = [] ∧ s.cur.afar = []
    ∧ s.invs = []

end Sys2Proof.Says

/-- The states of a port (R419): TRAIN, SIGNAL_DETECTED, LANES_TRAINED, FENCE, DOWN, LANE_ERROR and RETRAIN_COMPLETE; in any other state each but FENCE
changes nothing. -/
def Obligations.PortsChangeState : Prop :=
  ∀ (n : Nat) (s : State), n < 18 →
    let p := s.port n
    ((p.st = .down ∨ p.st = .fenced) → PortMoves (exec (.train n) s) s n 1 fun q => q = { p with st := .training })
    ∧ (p.st ≠ .down → p.st ≠ .fenced → exec (.train n) s = .next s)
    ∧ (p.st = .down → PortMoves (exec (.signalDetected n) s) s n 1 fun q => q = { p with st := .training })
    ∧ (p.st ≠ .down → exec (.signalDetected n) s = .next s)
    ∧ (p.st = .training → PortMoves (exec (.lanesTrained n true) s) s n 2 (fun q => q = { p with st := .auth, asking := true })
        ∧ PortMoves (exec (.lanesTrained n false) s) s n 0 fun q => q = { p with st := .down, asking := false })
    ∧ (p.st ≠ .training → ∀ good, exec (.lanesTrained n good) s = .next s)
    ∧ PortMoves (exec (.fencePort n) s) s n 5 (fun q => q = { p with st := .fenced })
    ∧ ((p.st = .fenced ∨ p.st = .up) → PortMoves (exec (.down n) s) s n 0 fun q => q = { p with st := .down })
    ∧ (p.st ≠ .fenced → p.st ≠ .up → exec (.down n) s = .next s)
    ∧ (p.st = .up → PortMoves (exec (.laneError n) s) s n 4 fun q => q.st = .retraining ∧ q.rtr = Nat.min 65535 (p.rtr + 1) ∧ q.waiting = p.waiting)
    ∧ (p.st ≠ .up → exec (.laneError n) s = .next s)
    ∧ (p.st = .retraining → ∀ pmid pinc,
        PortMoves (exec (.retrainComplete n false pmid pinc) s) s n 5 (fun q => q.st = .fenced)
        ∧ (p.unsteady s.clk.toNat = true → PortMoves (exec (.retrainComplete n true pmid pinc) s) s n 5 fun q => q.st = .fenced)
        ∧ (p.unsteady s.clk.toNat = false →
          (pmid = p.pmid → pinc = p.pinc → p.due = false → (∀ q ∈ s.ports, q.due = false) →
            PortMoves (exec (.retrainComplete n true pmid pinc) s) s n 3 (fun q => q = { p with st := .up })
            ∧ Moves (exec (.retrainComplete n true pmid pinc) s) s fun u => (∀ r, u.peer? pmid = some r → r.lost = false)
              ∧ u.inc = if (s.peer? pmid).any Peer.lost then s.inc + 1 else s.inc)
          ∧ (pmid ≠ p.pmid ∨ pinc ≠ p.pinc → pmid < 256 → pinc < 2 ^ 24 → PortMoves (exec (.retrainComplete n true pmid pinc) s) s n 2 fun q =>
              q.st = .auth ∧ q.pmid = pmid ∧ q.pinc = pinc)))
    ∧ (p.st ≠ .retraining → ∀ good pmid pinc, exec (.retrainComplete n good pmid pinc) s = .next s)

/-- PORT_AUTH, KEY_UPDATE and FRAME_RECEIVE (R420-R422, R425): a session with the module itself, or with an incarnation older than the one recorded, is
FENCED; another makes the port UP under a fresh key, a new incarnation is recorded and the posts of the older one are gone, and a peer that was lost
advances INC; the sending key moves on no sooner than the link can have carried 2^32 flits under the last one (assumption 20); a frame whose tag
fails is discarded and the port retrains; a packet is accepted once. -/
def Obligations.SessionsAndFrames : Prop :=
  ∀ (n : Nat) (s : State),
    let p := s.port n
    (p.st = .auth →
      (∀ pmid pinc good, pmid < 256 → pinc < 2 ^ 24 → good = false ∨ pmid = s.mid ∨ (∃ q, s.peer? pmid = some q ∧ pinc < q.inc) →
        PortMoves (exec (.portAuth n good pmid pinc) s) s n 5 fun q => q.st = .fenced)
      ∧ (∀ pmid pinc, pmid < 256 → pinc < 2 ^ 24 → pmid ≠ s.mid → Quiet s → (∀ q, s.peer? pmid = some q → q.inc ≤ pinc) →
        PortMoves (exec (.portAuth n true pmid pinc) s) s n 3 (fun q =>
            q.st = .up ∧ q.pmid = pmid ∧ q.pinc = pinc ∧ q.phase = false ∧ q.flits = 0 ∧ q.sending = false ∧ q.accepted = none)
        ∧ Moves (exec (.portAuth n true pmid pinc) s) s fun u => (∃ r, u.peer? pmid = some r ∧ r.inc = pinc ∧ r.lost = false)
          ∧ (∀ q, s.peer? pmid = some q → q.inc < pinc → ∀ m ∈ u.posts, ∀ k, m.source = .remote k → k.mid = pmid → k.inc = pinc)
          ∧ u.inc = if (s.peer? pmid).any Peer.lost then s.inc + 1 else s.inc))
    ∧ (p.st ≠ .auth → ∀ good pmid pinc, exec (.portAuth n good pmid pinc) s = .next s)
    ∧ (p.st = .up →
      (p.keyed + keyCycles ≤ s.clk.toNat →
        (Moves (exec (.keyUpdate n true) s) s fun u => u.mem = s.mem ∧ u.port n = { p with sending := !p.sending, keyed := s.clk.toNat })
        ∧ PortMoves (exec (.keyUpdate n false) s) s n 5 (fun q => q.st = .fenced))
      ∧ (s.clk.toNat < p.keyed + keyCycles → ∀ good, exec (.keyUpdate n good) s = .next s)
      ∧ (∀ f : Frame, f.tagOk = false → PortMoves (exec (.frameReceive n f) s) s n 4 fun q => q.st = .retraining ∧ q.waiting = p.waiting ∧ q.accepted = p.accepted)
      ∧ (∀ (f : Frame) (k : Packet), f.tagOk = true → f.packets = [k] → k.mid < 256 → k.inc < 2 ^ 24 →
        (seen p.accepted k.linkNo = false → Moves (exec (.frameReceive n f) s) s fun u => u.mem = s.mem ∧ (u.port n).waiting = p.waiting ++ [k]
          ∧ (u.port n).accepted = some k.linkNo ∧ (u.port n).phase = f.keyPhase)
        ∧ (seen p.accepted k.linkNo = true → Moves (exec (.frameReceive n f) s) s fun u => u.mem = s.mem ∧ (u.port n).waiting = p.waiting
          ∧ (u.port n).accepted = p.accepted)))
    ∧ (p.st ≠ .up → exec (.keyUpdate n true) s = .next s ∧ exec (.keyUpdate n false) s = .next s ∧ ∀ f, exec (.frameReceive n f) s = .next s)
    ∧ (∀ last now : BitVec 16, seen (some last) now = decide ((last - now).toNat < 32768)) ∧ (∀ now, seen none now = false)

/-- FLIT_REPLAY and PEER_LOST (R416, R423): a replay that passes clears the count, and the 16th failure in succession takes the boundary out of service,
noted at both of its sites; a peer is lost LOSTT microseconds after its last path went: a blocking access to it is answered as PAGE_PERM, and a
request to it completes as an error. -/
def Obligations.BoundariesAndPeersFail : Prop :=
  ∀ s : State,
    (∀ n, n < 52 → (s.boundary n).out = false → s.groups = [] →
      (Moves (exec (.flitReplay n true) s) s fun u => u.mem = s.mem ∧ (u.boundary n).failed = 0 ∧ (u.boundary n).out = false)
      ∧ ((s.boundary n).failed < 15 → Moves (exec (.flitReplay n false) s) s fun u => u.mem = s.mem
          ∧ (u.boundary n).failed = (s.boundary n).failed + 1 ∧ (u.boundary n).out = false)
      ∧ (15 ≤ (s.boundary n).failed → Moves (exec (.flitReplay n false) s) s fun u => (u.boundary n).out = true
          ∧ (∀ a, vaultOf a = none → readByte u.mem a = readByte s.mem a)
          ∧ ∃ e ∈ (u.site (boundarySites n).1).events, e.kind = 6 ∧ e.port = n))
    ∧ (∀ n good, (s.boundary n).out = true → exec (.flitReplay n good) s = .next s)
    ∧ (∀ m q, s.peer? m = some q → q.lost = true → exec (.peerLost m) s = .next s)
    ∧ (∀ m q t, m ≠ s.mid → s.peer? m = some q → q.lost = false → q.pathless = some t →
        (s.clk.toNat < t + s.lostt * 1100 → exec (.peerLost m) s = .next s)
        ∧ (t + s.lostt * 1100 ≤ s.clk.toNat → s.others = [] → s.cur.line = none → s.cur.park = none → s.invs = [] →
          ∃ u : State, exec (.peerLost m) s = .next u ∧ u.mem = s.mem ∧ u.cur.g = s.cur.g ∧ u.cur.pc = s.cur.pc ∧ (∃ r, u.peer? m = some r ∧ r.lost = true)
            ∧ (∀ r ∈ u.net, r.target.mid = m → r.done = true)
            ∧ ∀ b, s.cur.blocked = some b → b.asked = some m → b.answer = none →
                u.cur.blocked = some { b with answer := some (.refused .incarn) }))

/-- PACKET_FORWARD and MILL_MERGE_FORWARD (R250, R377, R422, R424, R427): a packet of an older incarnation is refused with INCARN, one for no part in
service with PART, an HSH page of a part without its shared key with KEY, one outside the part's lines with ADDR, one that meets a typed granule
with TYPE; a TLB.INV begins here; another becomes a request at its home; two INT32 additions to one element are merged, added to the prior value,
and both answered. -/
def Obligations.PacketsEnterTheModule : Prop :=
  ∀ s : State,
    (∀ n k rest q, (s.port n).waiting = k :: rest → s.peer? k.mid = some q → (∀ p ∈ s.parts, s.part? p.cix = some p) →
      let enters (P : State → Prop) : Prop := Moves (exec (.packetForward n) s) s fun u => u.mem = s.mem ∧ (u.port n).waiting = rest ∧ P u
      let refusedWith (c : WireCode) : Prop := enters fun u => u.net = s.net ∧ u.posts = s.posts
        ∧ u.out = s.out ++ if RemoteAccess.answered k.access then [.response k.mid k.seqNo (.refused c)] else []
      (k.inc < q.inc → refusedWith .incarn)
      ∧ (k.inc = q.inc →
        ((∀ p ∈ s.parts, p.st ≠ .free → p.cid.toNat % 2 ^ 32 ≠ k.cid.toNat) → refusedWith .part)
        ∧ (∀ p, s.parts.find? (fun p => p.st != .free && fieldNat p.cid 0 32 == k.cid.toNat) = some p →
          (p.serves = false → refusedWith .part)
          ∧ (p.serves = true → k.hsh = true → (p.shk && p.sslot) = false → refusedWith .key)
          ∧ (p.serves = true → (k.hsh = true → (p.shk && p.sslot) = true) →
            (∀ m, k.access = .read m → s.reaches p k.pa m = false → refusedWith .addr)
            ∧ (∀ m, k.access = .read m → s.reaches p k.pa m = true → s.typedIn k.pa m = none →
                enters fun u => u.out = s.out ∧ ∃ r : Request, u.net = s.net ++ [r] ∧ r.kind = .read m ∧ r.target.pa = k.pa ∧ r.target.mid = s.mid
                  ∧ r.cix = p.cix ∧ r.tag = some k.seqNo ∧ r.party = Packet.sender k ∧ r.done = false)
            ∧ (∀ m d, k.access = .write m d → s.reaches p k.pa m = true → s.typedIn k.pa m = none →
                enters fun u => u.out = s.out ∧ ∃ r : Request, u.net = s.net ++ [r] ∧ r.kind = .write m d ∧ r.target.pa = k.pa ∧ r.party = Packet.sender k)
            ∧ (∀ m g, k.access = .read m → s.reaches p k.pa m = true → isHbm k.pa = true → s.typedIn k.pa m = some g →
                enters fun u => u.net = s.net ∧ u.out = s.out ++ [.response k.mid k.seqNo (.fault .type (BitVec.ofNat 64 g.tag.code))])
            ∧ (∀ h f w op, k.access = .cell h f w op → isHbm k.pa = true → p.inRanges k.pa 32 = true →
                enters fun u => u.out = s.out ∧ u.net = s.net ∧ ∃ m : Post, u.posts = s.posts ++ [m] ∧ m.source = .remote k)
            ∧ (∀ b m, k.access = .invalidate b m → enters fun u => u.out = s.out ∧ u.net = s.net ∧ ∃ v : Invalidation, u.invs = s.invs ++ [v] ∧ v.cix = p.cix
                  ∧ v.base = b ∧ v.len = m ∧ v.acked = [] ∧ v.asker = some k)))))
    ∧ (∀ n, (s.port n).waiting = [] → exec (.packetForward n) s = .next s)
    ∧ (∀ (c d : Contribution) (p : Part) (a b : BitVec 128), s.mill = [c, d] → s.part? c.cix = some p → p.serves = true → c.cix = d.cix →
        c.line = lineOf c.packet.pa → d.line = c.line → d.packet.pa = c.packet.pa → c.packet.hyp = 0 → d.packet.hyp = 0 →
        c.packet.access = .reduce .add .int32 a → d.packet.access = .reduce .add .int32 b →
        p.inRegion c.packet.pa 4 = false → s.otherKey c.packet.hsh c.packet.pa = false → s.lineVersions p.cix (lineOf c.packet.pa) = [] →
        (∀ q ∈ s.recent, overlaps c.packet.pa 4 q.pa q.size = true → q.size = 4) →
        Moves (exec (.millMergeForward c.line) s) s fun u => u.mill = []
          ∧ u.mem = writeNat s.mem c.packet.pa ((readNat s.mem c.packet.pa 4 + a.toNat + b.toNat) % 2 ^ 32) 4
          ∧ u.out = s.out ++ [.response c.packet.mid c.packet.seqNo (.data 0), .response d.packet.mid d.packet.seqNo (.data 0)])
    ∧ (s.mill = [] → ∀ line, exec (.millMergeForward line) s = .next s)

namespace Sys2Proof.Says

/-- A host address in a page of a part. -/
def hostTarget (s : State) (a : Nat) (l : Leaf) : Target := { va := BitVec.ofNat 64 (l.vbase + (a - l.frame)), mid := s.mid, pa := a, leaf := l }
/-- The home of a page of a part takes an access of n bytes at an address: no line of them is in error, no cell is there, the line is under its own key,
and the slice takes it. -/
def HomeTakes (s : State) (p : Part) (l : Leaf) (a n : Nat) (write : Bool) : Prop :=
  s.versions = [] ∧ s.errorsIn a n = false ∧ p.inRegion a n = false ∧ s.typedSpan l a n = false ∧ s.otherKey l.hsh a = false
    ∧ (p.current = true → (s.sliceVisit (p.home a) (hostTarget s a l) write).isSome = true)

end Sys2Proof.Says

/-- CXL_MEM_READ, CXL_MEM_WRITE and HOST_SNOOP (R5, R24, R246, R257, R273, R424, R428, R429): the host reads and writes the ranges of a part in
CONFIGURING and the HOST_SHARED pages of one in RUN; elsewhere a read completes with an error and a write is dropped, but for the host's own memory,
which it writes where the bridge does not hold it (assumption 86); the host link reads the control registers on its PCIe function, a write-only one
as zero, and is told of one that is not there; a snooped half falls to S or I, and a modified one's data go back. -/
def Obligations.HostAccesses : Prop :=
  ∀ (s : State) (a n : Nat),
    let here := (List.range n).map fun i => readByte s.mem (a + i)
    let alone (p : Part) : Prop := (∀ q ∈ s.otherParts p, ∀ i, i < n → q.inRanges (lineOf (a + i)) 1 = false)
      ∧ ∀ i, i < n → s.otherKey false (a + i) = false
    (a < 0x20100000000 →
      (∀ p, s.hostConfig a n = some p → alone p → Moves (exec (.cxlMemRead a n) s) s fun u => u.mem = s.mem ∧ u.out = s.out ++ [.hostData a here])
      ∧ (s.hostConfig a n = none → s.hostPage a n = none → exec (.cxlMemRead a n) s = .next { s with out := s.out ++ [.hostError a] })
      ∧ (∀ p l, s.hostConfig a n = none → s.hostPage a n = some (p, l) → HomeTakes s p l a n false →
          Moves (exec (.cxlMemRead a n) s) s fun u => u.mem = s.mem ∧ u.out = s.out ++ [.hostData a here]))
    ∧ (∀ x, controlSpace x = true → s.controlWord x = none → exec (.cxlMemRead x 8) s = .next ({ s with out := s.out ++ [.unsupported x] } : State).bump)
    ∧ (let gives (x : Nat) (v : Nat) : Prop := exec (.cxlMemRead x 8) s = .next ({ s with
        out := s.out ++ [.registerData x ((List.range 8).map fun i => BitVec.ofNat 8 (v / 256 ^ i))] } : State).bump
      gives 0x20100400000 (s.mid * 2 ^ 24 + s.inc % 2 ^ 24) ∧ (s.lostt < 2 ^ 64 → gives 0x20100400008 s.lostt)
      ∧ ∀ p : Part, Indexed s p → gives (0x20100800000 + p.cix * 0x1000) (p.cause.toNat * 256 + p.st.code)
        ∧ gives (0x20100800008 + p.cix * 0x1000) 0 ∧ gives (0x20100800010 + p.cix * 0x1000) p.cid.toNat)
    ∧ (∀ bytes : List Byte, bytes.length = n → 0 < n → a % 64 + n ≤ 64 →
        let wrote (o : Host.Outcome State Fault Refusal) : Prop := Moves o s fun u => u.mem = writeNat s.mem a (leNat bytes) n ∧ u.out = s.out
          ∧ (Safe s → ∀ b, b < a ∨ a + n ≤ b → readByte u.mem b = readByte s.mem b)
        (∀ p, s.hostConfig a n = some p → alone p → wrote (exec (.cxlMemWrite a bytes) s))
        ∧ (s.hostConfig a n = none → s.hostPage a n = none →
            (isHost a = false ∨ (∃ h ∈ s.bridge, h.1 = a / 64 * 64) → exec (.cxlMemWrite a bytes) s = .next s)
            ∧ (isHost a = true → (∀ h ∈ s.bridge, h.1 ≠ a / 64 * 64) → wrote (exec (.cxlMemWrite a bytes) s)))
        ∧ (∀ p l, s.hostConfig a n = none → s.hostPage a n = some (p, l) → HomeTakes s p { l with hyp := false } a n true → wrote (exec (.cxlMemWrite a bytes) s)))
    ∧ (∀ inval, s.bridge.find? (fun h => h.1 == a / 64 * 64) = none → exec (.hostSnoop a inval) s = .next s)
    ∧ (∀ st inval, s.bridge.find? (fun h => h.1 == a / 64 * 64) = some (a / 64 * 64, st) →
        let back := (List.range 64).map fun i => readByte s.mem (a / 64 * 64 + i)
        Moves (exec (.hostSnoop a inval) s) s fun u => u.mem = s.mem ∧ u.out = (if st = .modified then s.out ++ [.hostData (a / 64 * 64) back] else s.out)
          ∧ u.bridge.find? (fun h => h.1 == a / 64 * 64) = if inval then none else some (a / 64 * 64, .shared))
/-! ### Encoding (spec/02_encoding.md R28-R57) -/

namespace Sys2Proof.Says

/-- GUARD 0b0000. -/
def always : Guard := { inv := false, k := 0 }
/-- Forms with every field zero. -/
def zeroA : FormA := { grd := always, gd := 0, ga := 0, gb := 0, kd := 0, ka := 0, kb := 0, w := .w64, rm := .rne, cc := 0, imm := 0 }
def zeroM : FormM := { grd := always, gt := 0, gb := 0, gx := 0, sz := .b, ord := .plain, scp := .core, aop := .add, msk := 0, me := false, off := 0 }
def zeroV : FormV :=
  { grd := always, vd := 0, va := 0, vb := 0, msk := 0, mz := false, me := false, et := .fp32, et2 := .fp32, rm := .rne, sat := false, fd := 0, gs := 0
    imm := 0 }
def zeroX : FormX :=
  { grd := always, ca := 0, da := 0, db := 0, gl := 0, gw := 0, loff := 0, woff := 0, gc := 0, fd := 0, dc := 0, et := .fp32, rm := .rne, sat := false }
def zeroC : FormC :=
  { grd := always, gs := 0, gd := 0, gn := 0, gk := 0, ds := 0, mc := 0, ss := .glob, dsp := .glob, gp := 0, rop := .add, et := .fp32, len := 0 }
def zeroY : FormY := { grd := always, gh := 0, gv1 := 0, gv2 := 0, gst := 0, ls := 0, f := false, gl := 0, src := .one, imm := 0 }
def zeroB : FormB := { grd := always, ga := 0, glk := 0, cnt := 0, cs := false, ls := 0, off := 0 }
def zeroS : FormS := { grd := always, gd := 0, sel := 0, ga := 0, gb := 0, imm := 0 }
/-- A slot of chunks 2, 1 and 0 (R28). -/
def slotOf (c2 c1 c0 : Nat) : SlotBits := BitVec.ofNat 96 (c2 * 2 ^ 64 + c1 * 2 ^ 32 + c0)

end Sys2Proof.Says

/-- Words written out in the spec's worked encodings decode to what they stand for: `add g1, g2, g3`, `ld.d g4, [g5 + #64]` and `exit` (02_encoding.md),
`mma c1, d2, d3, ls[g4 + #0x800], vt[g5 + #0x2000]` (08_tile.md), `cpy g9, [g6], ls[g5], #256` (11_copy.md), `grp.thaw g3, g5` (19_fault.md),
`hyp.rsv g3, g7, g5, #1` (22_hypothesis.md), `rcp.bind v41, #1, g10, #1` (23_recipe.md); the filler word and GUARD 0b1000 are no instructions (R41,
R58). -/
def Obligations.SpecWordsDecode : Prop :=
  decodeSlot (slotOf 0x10000108 0x30000000 0) = .ok (.add { zeroA with gd := 1, ga := 2, gb := 3 })
  ∧ decodeSlot (slotOf 0x40000414 0x06000000 0x40) = .ok (.ld { zeroM with gt := 4, gb := 5, sz := .d, off := 64 })
  ∧ decodeSlot (slotOf 0x011C0000 0 0) = .ok (.exit zeroB)
  ∧ decodeSlot (slotOf 0x90001231 0x05040008 0) = .ok (.mma { zeroX with ca := 1, da := 2, db := 3, gl := 4, gw := 5, loff := 32, woff := 8 })
  ∧ decodeSlot (slotOf 0xA0000518 0x02400100 0x100) = .ok (.cpy { zeroC with gs := 5, gd := 6, gk := 9, ss := .ls, len := 0x100 })
  ∧ decodeSlot (slotOf 0xD00C0300 0x01400000 0) = .ok (.grpThaw { zeroS with gd := 3, ga := 5 })
  ∧ decodeSlot (slotOf 0xB00C051C 0x00C00000 1) = .ok (.hypRsv { zeroY with gh := 5, gv1 := 7, gst := 3, imm := 1 })
  ∧ decodeSlot (slotOf 0xB8002900 0x00000028 0x11) = .ok (.rcpBind { zeroV with vd := 41, gs := 10, imm := 0x11 })
  ∧ decodeSlot (slotOf 0xFFFFFFFF 0xFFFFFFFF 0xFFFFFFFF) = .error .noOpcode
  ∧ (∀ p : BitVec 78, decodeSlot (BitVec.ofNat 96 (0x10 * 2 ^ 88 + 8 * 2 ^ 78 + p.toNat)) = .error .never)

/-- Decoding and encoding agree, both ways: the word of a well-formed slot instruction decodes to it with every operand, and a word that decodes is the
one word of its instruction, which is well-formed. Every slot instruction has a word, and no step of another agent has one (R40-R57). -/
def Obligations.DecodeAndEncodeAgree : Prop :=
  (∀ (i : Instr) (w : SlotBits), i.wf = true → encode i = some w → decodeSlot w = .ok i)
  ∧ (∀ (i : Instr) (w : SlotBits), decodeSlot w = .ok i → i.wf = true ∧ encode i = some w)
  ∧ ∀ i : Instr, (encode i).isSome = (payloadOf i).isSome
/-! ### The machine as a whole (spec/02_encoding.md R31-R41; spec/05_strand.md R109; spec/19_fault.md R353-R355; spec/00_scope.md R7, R10) -/

namespace Sys2Proof.Says

/-- Instructions that one core may not execute: those of the foreman (R57, R308, R324), those whose live set the image does not have (R67), and a BAR.ARW whose
phase register its live set does not keep (R298). -/
def RefusedWhateverTheGuard (i : Instr) (s : State) : Prop :=
  match i with
  | .winRd _ | .winWr _ | .grpFrz _ | .grpThaw _ | .grpKill _ | .tlbInv _ | .qJoinGovernor _ => s.cur.fmn = false
  | .cellInit f => f.imm.toNat % 8 = 4 ∧ f.imm.getLsbD 10 = true ∧ s.cur.fmn = false
  | .prePoint f | .yield f => s.liveCount ≤ f.ls.toNat
  | .barArw f => s.liveCount ≤ f.ls.toNat ∨ f.gv1 = 0 ∨ s.liveG f.ls f.gv1 = false
  | i => ∃ ls, waitSet i = some ls ∧ s.liveCount ≤ ls.toNat
/-- The state in which the issuing strand's group issues: the move is off the agenda. -/
def issuing (s : State) (rest : List Move) : State := { s with agenda := rest, opnd := none }
/-- The 64 bytes that R31 step 1 finds at the PC: a sealed page of this module that may be executed, and no error in the line. A blocked instruction
goes on from the line it was begun from. -/
def Fetches (s : State) (l : LineBits) : Prop :=
  (s.cur.blocked = none
    ∧ ∃ t p, s.translate s.cix (coreCluster s.cur.place) (BitVec.ofNat 64 (s.cur.pc.toNat / 64 * 64)) .execute = .ok t ∧ t.leaf.st = .sealed ∧ t.mid = s.mid
      ∧ s.isBad t.pa = false ∧ s.part? s.cix = some p ∧ l = BitVec.ofNat 512 (s.homeBytes p t.leaf.hsh t.pa 64 (if t.leaf.hyp then s.cur.hcur else 0)))
  ∨ s.cur.blocked.isSome = true ∧ ∃ m pa gen, s.cur.line = some (m, pa, gen, some l)
/-- The next move is a turn of the issuing strand: named by the agenda, or taken because no other agent has anything due (assumption 1). -/
def TurnOfCur (s : State) (rest : List Move) : Prop :=
  s.cur.status = .run ∧ s.cur.stop = none
    ∧ (s.agenda = .issue s.cur.id :: rest
      ∨ s.agenda = [] ∧ rest = [] ∧ firstChange s s.due = none ∧ s.others.find? Strand.issues = none)

end Sys2Proof.Says

/-- A step runs the decoded instruction (R31-R39, R109, R355): at the turn of a strand whose line is sound and whose slot is no first of a pair, step is
exec of the instruction that the slot decodes to, followed by the group's end (the next PC, or the transfer, or a loop's return) and one cycle, a
blocked one keeping its line, and a strand whose group is FROZEN by then freezing at this boundary (afterAttempt); a mismatch of parity, an illegal
line word, a transfer to no target and a word that is no instruction fault instead; a legal pair runs both, the second on the first's state with the
operands that stood before both. A move of another agent is exec of it, and time passes as the agenda says. -/
def Obligations.StepRunsDecodedInstruction : Prop :=
  (∀ (s : State) (rest : List Move) (l : LineBits), TurnOfCur s rest →
    let t := issuing s rest
    let slot := s.cur.pc.toNat % 8
    Fetches t l →
      (parityBad l ≠ 0 →
        let line := BitVec.ofNat 64 (s.cur.pc.toNat / 64 * 64)
        let noted := t.scrivener s.cur.place.site 9 0 s.cix 0 (locWord s.mid s.cur.place) line 0
        step s = .next ((noted.raise { code := .parity, addr := line, info := (parityBad l).setWidth 64 }).afterAttempt.advance 1))
      ∧ (parityBad l = 0 → linePairs l = none → step s = .next ((t.raiseCode .illegalOp).afterAttempt.advance 1))
      ∧ (∀ pairs, parityBad l = 0 → linePairs l = some pairs →
        (s.cur.byTransfer = true → (lineWord l).getLsbD slot = false →
          step s = .next ((t.raise { code := .cfi, addr := s.cur.pc.setWidth 64, info := 0 }).afterAttempt.advance 1))
        ∧ (s.cur.byTransfer = false ∨ (lineWord l).getLsbD slot = true →
          (∀ e, slot ∉ pairs → decodeSlot (lineSlot l slot) = .error e → step s = .next ((t.raiseCode .illegalOp).afterAttempt.advance 1))
          ∧ (∀ i, slot ∉ pairs → decodeSlot (lineSlot l slot) = .ok i → beforeIssue i t = none →
              (∀ u, exec i t = .next u → 
                let v := finishGroup t.here t.here u
                (v.cur.blocked = none → step s = .next (v.afterAttempt.advance 1))
                ∧ (v.cur.blocked.isSome = true → ∃ m pa gen,
                    step s = .next (({ v with cur := { v.cur with line := some (m, pa, gen, some l) } } : State).afterAttempt.advance 1)))
              ∧ (∀ f, exec i t = .fault f → step s = .fault f) ∧ ∀ r, exec i t = .refused r → step s = .refused r)
          ∧ (∀ a b, slot ∈ pairs → decodeSlot (lineSlot l slot) = .ok a → decodeSlot (lineSlot l (slot + 1)) = .ok b →
              (pairLegal a b = false → step s = .next (t.raiseIllegalPair.afterAttempt.advance 1))
              ∧ (∀ u v, pairLegal a b = true →
                  let t0 := t.atSlot t.cur.pc t.beginPair
                  let u2 := t.atSlot (pcNext t.cur.pc) u
                  let w := finishGroup t.here (t.here + 1) (v.keepFrom t.fresh (if guardHolds (guardOf b) t then writesG b else []))
                  beforeIssue a t0 = none → exec a t0 = .next u → u.last = .seq → beforeIssue b u2 = none → exec b u2 = .next v →
                  isFaulted v.last = false → v.last ≠ .stall → w.cur.blocked = none → step s = .next (({ w with opnd := none } : State).afterAttempt.advance 1)))
          ∧ (∀ e, slot ∈ pairs → decodeSlot (lineSlot l slot) = .error e ∨ decodeSlot (lineSlot l (slot + 1)) = .error e →
              step s = .next (t.raiseIllegalPair.afterAttempt.advance 1)))))
  ∧ (∀ (s : State) (e : Instr) (rest : List Move), s.agenda = .act e :: rest → payloadOf e = none → step s = exec e { s with agenda := rest })
  ∧ (∀ (s : State) (n : Nat) (rest : List Move), s.agenda = .tick n :: rest →
      ∃ u, step s = .next u ∧ u.clk = s.clk + BitVec.ofNat 64 n ∧ u.agenda = rest ∧ u.mem = s.mem ∧ u.cur = s.cur ∧ u.others = s.others)

/-- Every instruction goes on: each instruction of a slot answers a next state whenever its strand is in RUN, and stops (as no strand executes it) only
when it is not; each step of another agent answers a next state in every state.
A slot whose guard is false has no effect (R41), but that an instruction of the foreman elsewhere, and a live set that the image does not have, are
ILLEGAL_OP whatever the guard (R57, R67). -/
def Obligations.EveryInstructionGoesOn : Prop :=
  (∀ (i : Instr) (s : State),
    ((payloadOf i).isSome = true → s.cur.status = .run → ∃ t : State, exec i s = .next t)
    ∧ ((payloadOf i).isSome = true → s.cur.status ≠ .run → exec i s = .fault .noStrand)
    ∧ (payloadOf i = none → ∃ t : State, exec i s = .next t))
  ∧ (∀ (i : Instr) (s : State), (payloadOf i).isSome = true → s.cur.status = .run →
    (RefusedWhateverTheGuard i s → exec i s = .next (s.raiseCode .illegalOp))
    ∧ (¬RefusedWhateverTheGuard i s → guardHolds (guardOf i) s = false → exec i s = .next { s with last := .seq }))

/-- Taking a fault (R10, R353, R354, R355): the strand freezes at its resume PC with its registers as they were, the strands of its group in RUN or
PARKED freeze with it, but for one that waits for an answer, which freezes at its boundary, and one record leaves for the foreman with the code, the
PC, the handle and the place; a fault of the foreman leaves its record in the part as a DOUBLE (R360). -/
def Obligations.FaultsAreTaken : Prop :=
  ∀ (s : State) (f : FaultInfo), f.code ≠ .pagePerm →
    let u := s.raise f
    let first := (s.opnd.map fun o => o.before.pc).getD s.cur.pc
    u.cur.status = .frozen ∧ u.cur.pc = first ∧ u.cur.g = s.cur.g ∧ u.cur.k = s.cur.k ∧ u.cur.loops = s.cur.loops ∧ u.mem = s.mem ∧ u.last = .faulted f
    ∧ (s.cur.fmn = false →
      (∀ t ∈ u.others, t.id.grp = s.cur.id.grp → (t.status = .run → t.blocked ≠ none) ∧ t.status ≠ .parked)
      ∧ (∀ t ∈ s.others, t.id.grp ≠ s.cur.id.grp → t ∈ u.others)
      ∧ (∀ g ∈ u.groups, g.id = s.cur.id.grp → g.st = .frozen)
      ∧ ∃ d : Delivery, u.records = s.records ++ [d] ∧ d.cix = s.cix ∧ d.after = some (s.cur.id, s.cur.unacked) ∧ d.record.code = f.code ∧ d.record.addr = f.addr
          ∧ d.record.info = f.info ∧ d.record.frz = true ∧ d.record.pair = s.opnd.isSome ∧ d.record.pc = s.cur.pc.setWidth 64
          ∧ d.record.rpc = first.setWidth 64 ∧ d.record.sidx = s.cur.id.sidx ∧ d.record.ghnd = groupHandle s.cur.id.grp
          ∧ d.record.loc = locWord s.mid s.cur.place ∧ d.record.hyp = s.cur.hcur ∧ d.record.clk = s.clk)
    ∧ (s.cur.fmn = true → u.records = s.records ∧ u.others = s.others ∧ u.groups = s.groups
      ∧ ∀ p, s.part? s.cix = some p → ∃ x r, u.part? s.cix = some x ∧ x.double = some r ∧ r.code = f.code ∧ r.addr = f.addr ∧ r.info = f.info)

/-- After reset (R7): every part is FREE, every port DOWN, nothing is placed and nothing is in flight, LOSTT is 100,000; memory and stores are in
canonical form (what an unlisted byte reads as, no core being fused, MID 0 and INC 1 are assumptions 2, 5 and 6). -/
def Obligations.ResetLeavesNothingRunning : Prop :=
  Safe State.reset
  ∧ (∀ cix, State.reset.partState cix = .free) ∧ (∀ n, (State.reset.port n).st = .down) ∧ State.reset.cur.ended = true ∧ State.reset.others = []
  ∧ State.reset.groups = [] ∧ State.reset.net = [] ∧ State.reset.jobs = [] ∧ State.reset.clk = 0 ∧ State.reset.lostt = 100000
  ∧ (∀ l, State.reset.winOf l = 4) ∧ (∀ a, readByte State.reset.mem a = 0)
  ∧ ∃ u, step State.reset = .next u ∧ u.clk = 1 ∧ u.mem = [] ∧ u.parts = []

/-- The bytes of memory: a byte reads as what was last written to it, a write reaches no other byte and keeps the canonical form, and of two canonical
memories that read alike everywhere there is one. -/
def Obligations.BytesReadAsWritten : Prop :=
  ∀ m : List Host.Cell, Memory.wf m = true →
    (∀ a b x, Memory.wf (writeByte m a b) = true ∧ readByte (writeByte m a b) x = if x = a then b else readByte m x)
    ∧ (∀ a v n x, Memory.wf (writeNat m a v n) = true
        ∧ readByte (writeNat m a v n) x = if a ≤ x ∧ x < a + n then BitVec.ofNat 8 (v / 256 ^ (x - a)) else readByte m x)
    ∧ (∀ a v n, readNat (writeNat m a v n) a n = v % 256 ^ n)
    ∧ ∀ m', Memory.wf m' = true → (∀ x, readByte m x = readByte m' x) → m = m'

/-- Every step keeps module memory and every local store in canonical form. -/
def Obligations.EveryStepKeepsMemoryCanonical : Prop := ∀ s t : State, Safe s → step s = .next t → Safe t
end

