-- ==== Sys2Proof/Laws/Memory.lean ====
section
/-! SUPPORT. Every operation over bytes keeps the canonical form (addresses strictly rising, no entry equal to what an unlisted address reads
as), and so does the state after each operation that writes memory or a local store. -/

namespace Sys2Proof.Machine

theorem wfFrom_mono {lo hi : Nat} (h : lo ≤ hi) : ∀ {m : List Host.Cell}, wfFrom hi m = true → wfFrom lo m = true
  | [], _ => rfl
  | (a, b) :: rest, w => by
    simp only [wfFrom, Bool.and_eq_true, decide_eq_true_eq] at w ⊢
    exact ⟨⟨by omega, w.1.2⟩, w.2⟩

theorem wfFrom_writeByte (x : Nat) (y : Byte) : ∀ {lo : Nat} {m : List Host.Cell}, lo ≤ x → wfFrom lo m = true → wfFrom lo (writeByte m x y) = true
  | lo, [], h, _ => by
    by_cases e : y = emptyByte <;> simp [writeByte, wfFrom, e, h]
  | lo, (a, b) :: rest, h, w => by
    have w' := w
    simp only [wfFrom, Bool.and_eq_true, decide_eq_true_eq] at w'
    unfold writeByte
    by_cases h1 : x < a
    · rw [if_pos h1]
      by_cases e : y = emptyByte
      · rw [if_pos e]; exact w
      · rw [if_neg e]
        have : wfFrom (x + 1) ((a, b) :: rest) = true := by simp [wfFrom, w'.1.2, w'.2]; omega
        simp [wfFrom, e, h] at this ⊢; exact this
    · rw [if_neg h1]
      by_cases h2 : x = a
      · rw [if_pos h2]
        by_cases e : y = emptyByte
        · rw [if_pos e]; exact wfFrom_mono (by omega) w'.2
        · rw [if_neg e]; subst h2; simp [wfFrom, e, h, w'.2]
      · rw [if_neg h2]
        have := wfFrom_writeByte x y (m := rest) (lo := a + 1) (by omega) w'.2
        simp [wfFrom, this, w'.1.1]
        simpa using w'.1.2

/-- The canonical form is kept by a byte written. -/
theorem Memory.wf_writeByte {m : List Host.Cell} (x : Nat) (y : Byte) (h : Memory.wf m = true) : Memory.wf (writeByte m x y) = true :=
  wfFrom_writeByte x y (Nat.zero_le x) h
theorem Memory.wf_writeNat : ∀ (n : Nat) {m : List Host.Cell} (x v : Nat), Memory.wf m = true → Memory.wf (writeNat m x v n) = true
  | 0, _, _, _, h => h
  | n + 1, _, x, v, h => Memory.wf_writeNat n (x + 1) (v / 256) (Memory.wf_writeByte x _ h)
theorem Memory.wf_writeBytes : ∀ (l : List (Nat × Byte)) {m : List Host.Cell}, Memory.wf m = true → Memory.wf (writeBytes m l) = true
  | [], _, h => h
  | (x, y) :: rest, _, h => Memory.wf_writeBytes rest (Memory.wf_writeByte x y h)
theorem Memory.wf_writeFields (base : Nat) :
    ∀ (l : List RecordField) {m : List Host.Cell}, Memory.wf m = true → Memory.wf (writeFields m base l) = true
  | [], _, h => h
  | (_, n, v) :: rest, _, h => Memory.wf_writeFields base rest (Memory.wf_writeNat n _ v h)
theorem wfFrom_filter (p : Host.Cell → Bool) : ∀ {lo : Nat} {m : List Host.Cell}, wfFrom lo m = true → wfFrom lo (m.filter p) = true
  | _, [], _ => rfl
  | lo, (a, b) :: rest, h => by
    have h' := h
    simp only [wfFrom, Bool.and_eq_true, decide_eq_true_eq] at h'
    rw [List.filter_cons]
    split
    · simp only [wfFrom, Bool.and_eq_true, decide_eq_true_eq]
      exact ⟨h'.1, wfFrom_filter p h'.2⟩
    · exact wfFrom_mono (by omega) (wfFrom_filter p h'.2)
/-- The canonical form is kept by entries removed. -/
theorem Memory.wf_filter {m : List Host.Cell} (p : Host.Cell → Bool) (h : Memory.wf m = true) : Memory.wf (m.filter p) = true := wfFrom_filter p h
theorem Memory.wf_keepStore {m : List Host.Cell} (ls : List (Nat × Nat)) (h : Memory.wf m = true) : Memory.wf (keepStore ls m) = true :=
  Memory.wf_filter _ h
theorem Memory.wf_scrubCells {m : List Host.Cell} (mine : Nat → Bool) (zf : Bool) (fresh : Nat) (h : Memory.wf m = true) :
    Memory.wf (scrubCells mine zf fresh m) = true := by
  unfold scrubCells
  dsimp only
  split
  · exact Memory.wf_filter _ h
  · exact Memory.wf_writeBytes _ (Memory.wf_filter _ h)

/-- Memory after reset is in canonical form. -/
theorem Memory.wf_reset : Memory.wf State.reset.mem = true := rfl

/-! ### The state -/

theorem mem_replaceFirst {α : Type} {p : α → Bool} {x y : α} : ∀ {l : List α}, y ∈ replaceFirst p x l → y = x ∨ y ∈ l
  | [], h => absurd h List.not_mem_nil
  | a :: rest, h => by
    unfold replaceFirst at h
    split at h
    · rcases List.mem_cons.1 h with h | h
      · exact .inl h
      · exact .inr (List.mem_cons_of_mem _ h)
    · rcases List.mem_cons.1 h with h | h
      · exact .inr (h ▸ List.mem_cons_self)
      · exact (mem_replaceFirst h).imp_right (List.mem_cons_of_mem _)
end Sys2Proof.Machine

namespace Sys2Proof

open Sys2Proof.Machine

/-- The store of any core of a safe state is in canonical form. -/
theorem Safe.core {s : State} (h : Safe s) (l : CoreLoc) : Memory.wf (s.core l).store = true := by
  unfold State.core
  cases e : s.cores.find? (fun c => c.loc = l) with
  | none => rfl
  | some c => exact h.2 c (List.mem_of_find?_eq_some e)
/-- A state that differs in neither memory nor cores is as safe. -/
theorem Safe.of_eq {s t : State} (h : Safe s) (hm : t.mem = s.mem) (hc : t.cores = s.cores) : Safe t := ⟨hm ▸ h.1, hc ▸ h.2⟩
theorem Safe.setCore {s : State} (h : Safe s) {c : Core} (hc : Memory.wf c.store = true) : Safe (s.setCore c) := by
  refine ⟨h.1, fun d hd => ?_⟩
  have hd' : d ∈ (if s.cores.any (fun d => d.loc = c.loc) then replaceFirst (fun d => decide (d.loc = c.loc)) c s.cores else c :: s.cores) := hd
  split at hd'
  · rcases mem_replaceFirst hd' with e | e
    · exact e ▸ hc
    · exact h.2 d e
  · rcases List.mem_cons.1 hd' with e | e
    · exact e ▸ hc
    · exact h.2 d e
theorem Safe.writeStore {s : State} (h : Safe s) (l : CoreLoc) (a n v : Nat) : Safe (s.writeStore l a n v) :=
  h.setCore (Memory.wf_writeNat n a v (h.core l))
theorem Safe.rekeyed {s : State} (h : Safe s) (hsh : Bool) (pa : Nat) : Safe (s.rekeyed hsh pa) := by
  unfold State.rekeyed
  dsimp only
  split
  · refine ⟨?_, h.2⟩
    dsimp only
    split
    · exact Memory.wf_writeNat 128 _ _ h.1
    · exact h.1
  · exact h
theorem Safe.writeMem {s : State} (h : Safe s) (entry : Option Nat) (hsh : Bool) (pa n v : Nat) : Safe (s.writeMem entry hsh pa n v) := by
  have h := h.rekeyed hsh pa
  unfold State.writeMem
  generalize s.rekeyed hsh pa = s at h ⊢
  have key : ∀ t : State, t.mem = writeNat s.mem pa v n → t.cores = s.cores.map (fun c => { c with l1 := c.l1.map (s.scrambleLine entry pa n) }) →
      Safe t := by
    intro t hm hc
    refine ⟨hm ▸ Memory.wf_writeNat n pa v h.1, fun c hcm => ?_⟩
    rw [hc] at hcm
    obtain ⟨d, hd, rfl⟩ := List.mem_map.1 hcm
    exact h.2 d hd
  dsimp only
  split
  · exact key _ rfl rfl
  · exact key _ rfl rfl

end Sys2Proof
end

