-- ==== Sys2Proof/Laws/State.lean ====
section
/-! SUPPORT. The named updates of the state, field by field: what each leaves as it was, and what the simplest ones write. -/

namespace Sys2Proof.Machine

variable (s : State)

@[simp] theorem State.done_cur : s.done.cur = s.cur := rfl
@[simp] theorem State.done_others : s.done.others = s.others := rfl
@[simp] theorem State.done_cores : s.done.cores = s.cores := rfl
@[simp] theorem State.done_mem : s.done.mem = s.mem := rfl
@[simp] theorem State.done_keys : s.done.keys = s.keys := rfl
@[simp] theorem State.done_badLines : s.done.badLines = s.badLines := rfl
@[simp] theorem State.done_scribbled : s.done.scribbled = s.scribbled := rfl
@[simp] theorem State.done_net : s.done.net = s.net := rfl
@[simp] theorem State.done_recent : s.done.recent = s.recent := rfl
@[simp] theorem State.done_views : s.done.views = s.views := rfl
@[simp] theorem State.done_tlb : s.done.tlb = s.tlb := rfl
@[simp] theorem State.done_ptrs : s.done.ptrs = s.ptrs := rfl
@[simp] theorem State.done_walks : s.done.walks = s.walks := rfl
@[simp] theorem State.done_frames : s.done.frames = s.frames := rfl
@[simp] theorem State.done_sentRels : s.done.sentRels = s.sentRels := rfl
@[simp] theorem State.done_givenUp : s.done.givenUp = s.givenUp := rfl
@[simp] theorem State.done_sealedAt : s.done.sealedAt = s.sealedAt := rfl
@[simp] theorem State.done_invs : s.done.invs = s.invs := rfl
@[simp] theorem State.done_cells : s.done.cells = s.cells := rfl
@[simp] theorem State.done_waits : s.done.waits = s.waits := rfl
@[simp] theorem State.done_wakes : s.done.wakes = s.wakes := rfl
@[simp] theorem State.done_posts : s.done.posts = s.posts := rfl
@[simp] theorem State.done_jobs : s.done.jobs = s.jobs := rfl
@[simp] theorem State.done_versions : s.done.versions = s.versions := rfl
@[simp] theorem State.done_parts : s.done.parts = s.parts := rfl
@[simp] theorem State.done_groups : s.done.groups = s.groups := rfl
@[simp] theorem State.done_records : s.done.records = s.records := rfl
@[simp] theorem State.done_slices : s.done.slices = s.slices := rfl
@[simp] theorem State.done_turns : s.done.turns = s.turns := rfl
@[simp] theorem State.done_sites : s.done.sites = s.sites := rfl
@[simp] theorem State.done_hmap : s.done.hmap = s.hmap := rfl
@[simp] theorem State.done_vbnd : s.done.vbnd = s.vbnd := rfl
@[simp] theorem State.done_ports : s.done.ports = s.ports := rfl
@[simp] theorem State.done_peers : s.done.peers = s.peers := rfl
@[simp] theorem State.done_bounds : s.done.bounds = s.bounds := rfl
@[simp] theorem State.done_bridge : s.done.bridge = s.bridge := rfl
@[simp] theorem State.done_mill : s.done.mill = s.mill := rfl
@[simp] theorem State.done_out : s.done.out = s.out := rfl
@[simp] theorem State.done_mid : s.done.mid = s.mid := rfl
@[simp] theorem State.done_inc : s.done.inc = s.inc := rfl
@[simp] theorem State.done_lostt : s.done.lostt = s.lostt := rfl
@[simp] theorem State.done_firmware : s.done.firmware = s.firmware := rfl
@[simp] theorem State.done_clk : s.done.clk = s.clk := rfl
@[simp] theorem State.done_agenda : s.done.agenda = s.agenda := rfl
@[simp] theorem State.done_opnd : s.done.opnd = s.opnd := rfl
@[simp] theorem State.done_fresh : s.done.fresh = s.fresh := rfl

@[simp] theorem State.stall_cur : s.stall.cur = s.cur := rfl
@[simp] theorem State.stall_others : s.stall.others = s.others := rfl
@[simp] theorem State.stall_cores : s.stall.cores = s.cores := rfl
@[simp] theorem State.stall_mem : s.stall.mem = s.mem := rfl
@[simp] theorem State.stall_keys : s.stall.keys = s.keys := rfl
@[simp] theorem State.stall_badLines : s.stall.badLines = s.badLines := rfl
@[simp] theorem State.stall_scribbled : s.stall.scribbled = s.scribbled := rfl
@[simp] theorem State.stall_net : s.stall.net = s.net := rfl
@[simp] theorem State.stall_recent : s.stall.recent = s.recent := rfl
@[simp] theorem State.stall_views : s.stall.views = s.views := rfl
@[simp] theorem State.stall_tlb : s.stall.tlb = s.tlb := rfl
@[simp] theorem State.stall_ptrs : s.stall.ptrs = s.ptrs := rfl
@[simp] theorem State.stall_walks : s.stall.walks = s.walks := rfl
@[simp] theorem State.stall_frames : s.stall.frames = s.frames := rfl
@[simp] theorem State.stall_sentRels : s.stall.sentRels = s.sentRels := rfl
@[simp] theorem State.stall_givenUp : s.stall.givenUp = s.givenUp := rfl
@[simp] theorem State.stall_sealedAt : s.stall.sealedAt = s.sealedAt := rfl
@[simp] theorem State.stall_invs : s.stall.invs = s.invs := rfl
@[simp] theorem State.stall_cells : s.stall.cells = s.cells := rfl
@[simp] theorem State.stall_waits : s.stall.waits = s.waits := rfl
@[simp] theorem State.stall_wakes : s.stall.wakes = s.wakes := rfl
@[simp] theorem State.stall_posts : s.stall.posts = s.posts := rfl
@[simp] theorem State.stall_jobs : s.stall.jobs = s.jobs := rfl
@[simp] theorem State.stall_versions : s.stall.versions = s.versions := rfl
@[simp] theorem State.stall_parts : s.stall.parts = s.parts := rfl
@[simp] theorem State.stall_groups : s.stall.groups = s.groups := rfl
@[simp] theorem State.stall_records : s.stall.records = s.records := rfl
@[simp] theorem State.stall_slices : s.stall.slices = s.slices := rfl
@[simp] theorem State.stall_turns : s.stall.turns = s.turns := rfl
@[simp] theorem State.stall_sites : s.stall.sites = s.sites := rfl
@[simp] theorem State.stall_hmap : s.stall.hmap = s.hmap := rfl
@[simp] theorem State.stall_vbnd : s.stall.vbnd = s.vbnd := rfl
@[simp] theorem State.stall_ports : s.stall.ports = s.ports := rfl
@[simp] theorem State.stall_peers : s.stall.peers = s.peers := rfl
@[simp] theorem State.stall_bounds : s.stall.bounds = s.bounds := rfl
@[simp] theorem State.stall_bridge : s.stall.bridge = s.bridge := rfl
@[simp] theorem State.stall_mill : s.stall.mill = s.mill := rfl
@[simp] theorem State.stall_out : s.stall.out = s.out := rfl
@[simp] theorem State.stall_mid : s.stall.mid = s.mid := rfl
@[simp] theorem State.stall_inc : s.stall.inc = s.inc := rfl
@[simp] theorem State.stall_lostt : s.stall.lostt = s.lostt := rfl
@[simp] theorem State.stall_firmware : s.stall.firmware = s.firmware := rfl
@[simp] theorem State.stall_clk : s.stall.clk = s.clk := rfl
@[simp] theorem State.stall_agenda : s.stall.agenda = s.agenda := rfl
@[simp] theorem State.stall_opnd : s.stall.opnd = s.opnd := rfl
@[simp] theorem State.stall_fresh : s.stall.fresh = s.fresh := rfl

@[simp] theorem State.bump_cur : s.bump.cur = s.cur := rfl
@[simp] theorem State.bump_others : s.bump.others = s.others := rfl
@[simp] theorem State.bump_cores : s.bump.cores = s.cores := rfl
@[simp] theorem State.bump_mem : s.bump.mem = s.mem := rfl
@[simp] theorem State.bump_keys : s.bump.keys = s.keys := rfl
@[simp] theorem State.bump_badLines : s.bump.badLines = s.badLines := rfl
@[simp] theorem State.bump_scribbled : s.bump.scribbled = s.scribbled := rfl
@[simp] theorem State.bump_net : s.bump.net = s.net := rfl
@[simp] theorem State.bump_recent : s.bump.recent = s.recent := rfl
@[simp] theorem State.bump_views : s.bump.views = s.views := rfl
@[simp] theorem State.bump_tlb : s.bump.tlb = s.tlb := rfl
@[simp] theorem State.bump_ptrs : s.bump.ptrs = s.ptrs := rfl
@[simp] theorem State.bump_walks : s.bump.walks = s.walks := rfl
@[simp] theorem State.bump_frames : s.bump.frames = s.frames := rfl
@[simp] theorem State.bump_sentRels : s.bump.sentRels = s.sentRels := rfl
@[simp] theorem State.bump_givenUp : s.bump.givenUp = s.givenUp := rfl
@[simp] theorem State.bump_sealedAt : s.bump.sealedAt = s.sealedAt := rfl
@[simp] theorem State.bump_invs : s.bump.invs = s.invs := rfl
@[simp] theorem State.bump_cells : s.bump.cells = s.cells := rfl
@[simp] theorem State.bump_waits : s.bump.waits = s.waits := rfl
@[simp] theorem State.bump_wakes : s.bump.wakes = s.wakes := rfl
@[simp] theorem State.bump_posts : s.bump.posts = s.posts := rfl
@[simp] theorem State.bump_jobs : s.bump.jobs = s.jobs := rfl
@[simp] theorem State.bump_versions : s.bump.versions = s.versions := rfl
@[simp] theorem State.bump_parts : s.bump.parts = s.parts := rfl
@[simp] theorem State.bump_groups : s.bump.groups = s.groups := rfl
@[simp] theorem State.bump_records : s.bump.records = s.records := rfl
@[simp] theorem State.bump_slices : s.bump.slices = s.slices := rfl
@[simp] theorem State.bump_turns : s.bump.turns = s.turns := rfl
@[simp] theorem State.bump_sites : s.bump.sites = s.sites := rfl
@[simp] theorem State.bump_hmap : s.bump.hmap = s.hmap := rfl
@[simp] theorem State.bump_vbnd : s.bump.vbnd = s.vbnd := rfl
@[simp] theorem State.bump_ports : s.bump.ports = s.ports := rfl
@[simp] theorem State.bump_peers : s.bump.peers = s.peers := rfl
@[simp] theorem State.bump_bounds : s.bump.bounds = s.bounds := rfl
@[simp] theorem State.bump_bridge : s.bump.bridge = s.bridge := rfl
@[simp] theorem State.bump_mill : s.bump.mill = s.mill := rfl
@[simp] theorem State.bump_out : s.bump.out = s.out := rfl
@[simp] theorem State.bump_mid : s.bump.mid = s.mid := rfl
@[simp] theorem State.bump_inc : s.bump.inc = s.inc := rfl
@[simp] theorem State.bump_lostt : s.bump.lostt = s.lostt := rfl
@[simp] theorem State.bump_firmware : s.bump.firmware = s.firmware := rfl
@[simp] theorem State.bump_clk : s.bump.clk = s.clk := rfl
@[simp] theorem State.bump_agenda : s.bump.agenda = s.agenda := rfl
@[simp] theorem State.bump_opnd : s.bump.opnd = s.opnd := rfl
@[simp] theorem State.bump_last : s.bump.last = s.last := rfl

@[simp] theorem State.setDz_others : s.setDz.others = s.others := rfl
@[simp] theorem State.setDz_cores : s.setDz.cores = s.cores := rfl
@[simp] theorem State.setDz_mem : s.setDz.mem = s.mem := rfl
@[simp] theorem State.setDz_keys : s.setDz.keys = s.keys := rfl
@[simp] theorem State.setDz_badLines : s.setDz.badLines = s.badLines := rfl
@[simp] theorem State.setDz_scribbled : s.setDz.scribbled = s.scribbled := rfl
@[simp] theorem State.setDz_net : s.setDz.net = s.net := rfl
@[simp] theorem State.setDz_recent : s.setDz.recent = s.recent := rfl
@[simp] theorem State.setDz_views : s.setDz.views = s.views := rfl
@[simp] theorem State.setDz_tlb : s.setDz.tlb = s.tlb := rfl
@[simp] theorem State.setDz_ptrs : s.setDz.ptrs = s.ptrs := rfl
@[simp] theorem State.setDz_walks : s.setDz.walks = s.walks := rfl
@[simp] theorem State.setDz_frames : s.setDz.frames = s.frames := rfl
@[simp] theorem State.setDz_sentRels : s.setDz.sentRels = s.sentRels := rfl
@[simp] theorem State.setDz_givenUp : s.setDz.givenUp = s.givenUp := rfl
@[simp] theorem State.setDz_sealedAt : s.setDz.sealedAt = s.sealedAt := rfl
@[simp] theorem State.setDz_invs : s.setDz.invs = s.invs := rfl
@[simp] theorem State.setDz_cells : s.setDz.cells = s.cells := rfl
@[simp] theorem State.setDz_waits : s.setDz.waits = s.waits := rfl
@[simp] theorem State.setDz_wakes : s.setDz.wakes = s.wakes := rfl
@[simp] theorem State.setDz_posts : s.setDz.posts = s.posts := rfl
@[simp] theorem State.setDz_jobs : s.setDz.jobs = s.jobs := rfl
@[simp] theorem State.setDz_versions : s.setDz.versions = s.versions := rfl
@[simp] theorem State.setDz_parts : s.setDz.parts = s.parts := rfl
@[simp] theorem State.setDz_groups : s.setDz.groups = s.groups := rfl
@[simp] theorem State.setDz_records : s.setDz.records = s.records := rfl
@[simp] theorem State.setDz_slices : s.setDz.slices = s.slices := rfl
@[simp] theorem State.setDz_turns : s.setDz.turns = s.turns := rfl
@[simp] theorem State.setDz_sites : s.setDz.sites = s.sites := rfl
@[simp] theorem State.setDz_hmap : s.setDz.hmap = s.hmap := rfl
@[simp] theorem State.setDz_vbnd : s.setDz.vbnd = s.vbnd := rfl
@[simp] theorem State.setDz_ports : s.setDz.ports = s.ports := rfl
@[simp] theorem State.setDz_peers : s.setDz.peers = s.peers := rfl
@[simp] theorem State.setDz_bounds : s.setDz.bounds = s.bounds := rfl
@[simp] theorem State.setDz_bridge : s.setDz.bridge = s.bridge := rfl
@[simp] theorem State.setDz_mill : s.setDz.mill = s.mill := rfl
@[simp] theorem State.setDz_out : s.setDz.out = s.out := rfl
@[simp] theorem State.setDz_mid : s.setDz.mid = s.mid := rfl
@[simp] theorem State.setDz_inc : s.setDz.inc = s.inc := rfl
@[simp] theorem State.setDz_lostt : s.setDz.lostt = s.lostt := rfl
@[simp] theorem State.setDz_firmware : s.setDz.firmware = s.firmware := rfl
@[simp] theorem State.setDz_clk : s.setDz.clk = s.clk := rfl
@[simp] theorem State.setDz_agenda : s.setDz.agenda = s.agenda := rfl
@[simp] theorem State.setDz_opnd : s.setDz.opnd = s.opnd := rfl
@[simp] theorem State.setDz_last : s.setDz.last = s.last := rfl
@[simp] theorem State.setDz_fresh : s.setDz.fresh = s.fresh := rfl

@[simp] theorem State.setFu_others : s.setFu.others = s.others := rfl
@[simp] theorem State.setFu_cores : s.setFu.cores = s.cores := rfl
@[simp] theorem State.setFu_mem : s.setFu.mem = s.mem := rfl
@[simp] theorem State.setFu_keys : s.setFu.keys = s.keys := rfl
@[simp] theorem State.setFu_badLines : s.setFu.badLines = s.badLines := rfl
@[simp] theorem State.setFu_scribbled : s.setFu.scribbled = s.scribbled := rfl
@[simp] theorem State.setFu_net : s.setFu.net = s.net := rfl
@[simp] theorem State.setFu_recent : s.setFu.recent = s.recent := rfl
@[simp] theorem State.setFu_views : s.setFu.views = s.views := rfl
@[simp] theorem State.setFu_tlb : s.setFu.tlb = s.tlb := rfl
@[simp] theorem State.setFu_ptrs : s.setFu.ptrs = s.ptrs := rfl
@[simp] theorem State.setFu_walks : s.setFu.walks = s.walks := rfl
@[simp] theorem State.setFu_frames : s.setFu.frames = s.frames := rfl
@[simp] theorem State.setFu_sentRels : s.setFu.sentRels = s.sentRels := rfl
@[simp] theorem State.setFu_givenUp : s.setFu.givenUp = s.givenUp := rfl
@[simp] theorem State.setFu_sealedAt : s.setFu.sealedAt = s.sealedAt := rfl
@[simp] theorem State.setFu_invs : s.setFu.invs = s.invs := rfl
@[simp] theorem State.setFu_cells : s.setFu.cells = s.cells := rfl
@[simp] theorem State.setFu_waits : s.setFu.waits = s.waits := rfl
@[simp] theorem State.setFu_wakes : s.setFu.wakes = s.wakes := rfl
@[simp] theorem State.setFu_posts : s.setFu.posts = s.posts := rfl
@[simp] theorem State.setFu_jobs : s.setFu.jobs = s.jobs := rfl
@[simp] theorem State.setFu_versions : s.setFu.versions = s.versions := rfl
@[simp] theorem State.setFu_parts : s.setFu.parts = s.parts := rfl
@[simp] theorem State.setFu_groups : s.setFu.groups = s.groups := rfl
@[simp] theorem State.setFu_records : s.setFu.records = s.records := rfl
@[simp] theorem State.setFu_slices : s.setFu.slices = s.slices := rfl
@[simp] theorem State.setFu_turns : s.setFu.turns = s.turns := rfl
@[simp] theorem State.setFu_sites : s.setFu.sites = s.sites := rfl
@[simp] theorem State.setFu_hmap : s.setFu.hmap = s.hmap := rfl
@[simp] theorem State.setFu_vbnd : s.setFu.vbnd = s.vbnd := rfl
@[simp] theorem State.setFu_ports : s.setFu.ports = s.ports := rfl
@[simp] theorem State.setFu_peers : s.setFu.peers = s.peers := rfl
@[simp] theorem State.setFu_bounds : s.setFu.bounds = s.bounds := rfl
@[simp] theorem State.setFu_bridge : s.setFu.bridge = s.bridge := rfl
@[simp] theorem State.setFu_mill : s.setFu.mill = s.mill := rfl
@[simp] theorem State.setFu_out : s.setFu.out = s.out := rfl
@[simp] theorem State.setFu_mid : s.setFu.mid = s.mid := rfl
@[simp] theorem State.setFu_inc : s.setFu.inc = s.inc := rfl
@[simp] theorem State.setFu_lostt : s.setFu.lostt = s.lostt := rfl
@[simp] theorem State.setFu_firmware : s.setFu.firmware = s.firmware := rfl
@[simp] theorem State.setFu_clk : s.setFu.clk = s.clk := rfl
@[simp] theorem State.setFu_agenda : s.setFu.agenda = s.agenda := rfl
@[simp] theorem State.setFu_opnd : s.setFu.opnd = s.opnd := rfl
@[simp] theorem State.setFu_last : s.setFu.last = s.last := rfl
@[simp] theorem State.setFu_fresh : s.setFu.fresh = s.fresh := rfl

@[simp] theorem State.raiseFlags_others (f : FloatFlags) : (s.raiseFlags f).others = s.others := rfl
@[simp] theorem State.raiseFlags_cores (f : FloatFlags) : (s.raiseFlags f).cores = s.cores := rfl
@[simp] theorem State.raiseFlags_mem (f : FloatFlags) : (s.raiseFlags f).mem = s.mem := rfl
@[simp] theorem State.raiseFlags_keys (f : FloatFlags) : (s.raiseFlags f).keys = s.keys := rfl
@[simp] theorem State.raiseFlags_badLines (f : FloatFlags) : (s.raiseFlags f).badLines = s.badLines := rfl
@[simp] theorem State.raiseFlags_scribbled (f : FloatFlags) : (s.raiseFlags f).scribbled = s.scribbled := rfl
@[simp] theorem State.raiseFlags_net (f : FloatFlags) : (s.raiseFlags f).net = s.net := rfl
@[simp] theorem State.raiseFlags_recent (f : FloatFlags) : (s.raiseFlags f).recent = s.recent := rfl
@[simp] theorem State.raiseFlags_views (f : FloatFlags) : (s.raiseFlags f).views = s.views := rfl
@[simp] theorem State.raiseFlags_tlb (f : FloatFlags) : (s.raiseFlags f).tlb = s.tlb := rfl
@[simp] theorem State.raiseFlags_ptrs (f : FloatFlags) : (s.raiseFlags f).ptrs = s.ptrs := rfl
@[simp] theorem State.raiseFlags_walks (f : FloatFlags) : (s.raiseFlags f).walks = s.walks := rfl
@[simp] theorem State.raiseFlags_frames (f : FloatFlags) : (s.raiseFlags f).frames = s.frames := rfl
@[simp] theorem State.raiseFlags_sentRels (f : FloatFlags) : (s.raiseFlags f).sentRels = s.sentRels := rfl
@[simp] theorem State.raiseFlags_givenUp (f : FloatFlags) : (s.raiseFlags f).givenUp = s.givenUp := rfl
@[simp] theorem State.raiseFlags_sealedAt (f : FloatFlags) : (s.raiseFlags f).sealedAt = s.sealedAt := rfl
@[simp] theorem State.raiseFlags_invs (f : FloatFlags) : (s.raiseFlags f).invs = s.invs := rfl
@[simp] theorem State.raiseFlags_cells (f : FloatFlags) : (s.raiseFlags f).cells = s.cells := rfl
@[simp] theorem State.raiseFlags_waits (f : FloatFlags) : (s.raiseFlags f).waits = s.waits := rfl
@[simp] theorem State.raiseFlags_wakes (f : FloatFlags) : (s.raiseFlags f).wakes = s.wakes := rfl
@[simp] theorem State.raiseFlags_posts (f : FloatFlags) : (s.raiseFlags f).posts = s.posts := rfl
@[simp] theorem State.raiseFlags_jobs (f : FloatFlags) : (s.raiseFlags f).jobs = s.jobs := rfl
@[simp] theorem State.raiseFlags_versions (f : FloatFlags) : (s.raiseFlags f).versions = s.versions := rfl
@[simp] theorem State.raiseFlags_parts (f : FloatFlags) : (s.raiseFlags f).parts = s.parts := rfl
@[simp] theorem State.raiseFlags_groups (f : FloatFlags) : (s.raiseFlags f).groups = s.groups := rfl
@[simp] theorem State.raiseFlags_records (f : FloatFlags) : (s.raiseFlags f).records = s.records := rfl
@[simp] theorem State.raiseFlags_slices (f : FloatFlags) : (s.raiseFlags f).slices = s.slices := rfl
@[simp] theorem State.raiseFlags_turns (f : FloatFlags) : (s.raiseFlags f).turns = s.turns := rfl
@[simp] theorem State.raiseFlags_sites (f : FloatFlags) : (s.raiseFlags f).sites = s.sites := rfl
@[simp] theorem State.raiseFlags_hmap (f : FloatFlags) : (s.raiseFlags f).hmap = s.hmap := rfl
@[simp] theorem State.raiseFlags_vbnd (f : FloatFlags) : (s.raiseFlags f).vbnd = s.vbnd := rfl
@[simp] theorem State.raiseFlags_ports (f : FloatFlags) : (s.raiseFlags f).ports = s.ports := rfl
@[simp] theorem State.raiseFlags_peers (f : FloatFlags) : (s.raiseFlags f).peers = s.peers := rfl
@[simp] theorem State.raiseFlags_bounds (f : FloatFlags) : (s.raiseFlags f).bounds = s.bounds := rfl
@[simp] theorem State.raiseFlags_bridge (f : FloatFlags) : (s.raiseFlags f).bridge = s.bridge := rfl
@[simp] theorem State.raiseFlags_mill (f : FloatFlags) : (s.raiseFlags f).mill = s.mill := rfl
@[simp] theorem State.raiseFlags_out (f : FloatFlags) : (s.raiseFlags f).out = s.out := rfl
@[simp] theorem State.raiseFlags_mid (f : FloatFlags) : (s.raiseFlags f).mid = s.mid := rfl
@[simp] theorem State.raiseFlags_inc (f : FloatFlags) : (s.raiseFlags f).inc = s.inc := rfl
@[simp] theorem State.raiseFlags_lostt (f : FloatFlags) : (s.raiseFlags f).lostt = s.lostt := rfl
@[simp] theorem State.raiseFlags_firmware (f : FloatFlags) : (s.raiseFlags f).firmware = s.firmware := rfl
@[simp] theorem State.raiseFlags_clk (f : FloatFlags) : (s.raiseFlags f).clk = s.clk := rfl
@[simp] theorem State.raiseFlags_agenda (f : FloatFlags) : (s.raiseFlags f).agenda = s.agenda := rfl
@[simp] theorem State.raiseFlags_opnd (f : FloatFlags) : (s.raiseFlags f).opnd = s.opnd := rfl
@[simp] theorem State.raiseFlags_last (f : FloatFlags) : (s.raiseFlags f).last = s.last := rfl
@[simp] theorem State.raiseFlags_fresh (f : FloatFlags) : (s.raiseFlags f).fresh = s.fresh := rfl

@[simp] theorem State.wrG_others (n : BitVec 6) (x : Word64) : (s.wrG n x).others = s.others := by unfold State.wrG; split <;> rfl
@[simp] theorem State.wrG_cores (n : BitVec 6) (x : Word64) : (s.wrG n x).cores = s.cores := by unfold State.wrG; split <;> rfl
@[simp] theorem State.wrG_mem (n : BitVec 6) (x : Word64) : (s.wrG n x).mem = s.mem := by unfold State.wrG; split <;> rfl
@[simp] theorem State.wrG_keys (n : BitVec 6) (x : Word64) : (s.wrG n x).keys = s.keys := by unfold State.wrG; split <;> rfl
@[simp] theorem State.wrG_badLines (n : BitVec 6) (x : Word64) : (s.wrG n x).badLines = s.badLines := by unfold State.wrG; split <;> rfl
@[simp] theorem State.wrG_scribbled (n : BitVec 6) (x : Word64) : (s.wrG n x).scribbled = s.scribbled := by unfold State.wrG; split <;> rfl
@[simp] theorem State.wrG_net (n : BitVec 6) (x : Word64) : (s.wrG n x).net = s.net := by unfold State.wrG; split <;> rfl
@[simp] theorem State.wrG_recent (n : BitVec 6) (x : Word64) : (s.wrG n x).recent = s.recent := by unfold State.wrG; split <;> rfl
@[simp] theorem State.wrG_views (n : BitVec 6) (x : Word64) : (s.wrG n x).views = s.views := by unfold State.wrG; split <;> rfl
@[simp] theorem State.wrG_tlb (n : BitVec 6) (x : Word64) : (s.wrG n x).tlb = s.tlb := by unfold State.wrG; split <;> rfl
@[simp] theorem State.wrG_ptrs (n : BitVec 6) (x : Word64) : (s.wrG n x).ptrs = s.ptrs := by unfold State.wrG; split <;> rfl
@[simp] theorem State.wrG_walks (n : BitVec 6) (x : Word64) : (s.wrG n x).walks = s.walks := by unfold State.wrG; split <;> rfl
@[simp] theorem State.wrG_frames (n : BitVec 6) (x : Word64) : (s.wrG n x).frames = s.frames := by unfold State.wrG; split <;> rfl
@[simp] theorem State.wrG_sentRels (n : BitVec 6) (x : Word64) : (s.wrG n x).sentRels = s.sentRels := by unfold State.wrG; split <;> rfl
@[simp] theorem State.wrG_givenUp (n : BitVec 6) (x : Word64) : (s.wrG n x).givenUp = s.givenUp := by unfold State.wrG; split <;> rfl
@[simp] theorem State.wrG_sealedAt (n : BitVec 6) (x : Word64) : (s.wrG n x).sealedAt = s.sealedAt := by unfold State.wrG; split <;> rfl
@[simp] theorem State.wrG_invs (n : BitVec 6) (x : Word64) : (s.wrG n x).invs = s.invs := by unfold State.wrG; split <;> rfl
@[simp] theorem State.wrG_cells (n : BitVec 6) (x : Word64) : (s.wrG n x).cells = s.cells := by unfold State.wrG; split <;> rfl
@[simp] theorem State.wrG_waits (n : BitVec 6) (x : Word64) : (s.wrG n x).waits = s.waits := by unfold State.wrG; split <;> rfl
@[simp] theorem State.wrG_wakes (n : BitVec 6) (x : Word64) : (s.wrG n x).wakes = s.wakes := by unfold State.wrG; split <;> rfl
@[simp] theorem State.wrG_posts (n : BitVec 6) (x : Word64) : (s.wrG n x).posts = s.posts := by unfold State.wrG; split <;> rfl
@[simp] theorem State.wrG_jobs (n : BitVec 6) (x : Word64) : (s.wrG n x).jobs = s.jobs := by unfold State.wrG; split <;> rfl
@[simp] theorem State.wrG_versions (n : BitVec 6) (x : Word64) : (s.wrG n x).versions = s.versions := by unfold State.wrG; split <;> rfl
@[simp] theorem State.wrG_parts (n : BitVec 6) (x : Word64) : (s.wrG n x).parts = s.parts := by unfold State.wrG; split <;> rfl
@[simp] theorem State.wrG_groups (n : BitVec 6) (x : Word64) : (s.wrG n x).groups = s.groups := by unfold State.wrG; split <;> rfl
@[simp] theorem State.wrG_records (n : BitVec 6) (x : Word64) : (s.wrG n x).records = s.records := by unfold State.wrG; split <;> rfl
@[simp] theorem State.wrG_slices (n : BitVec 6) (x : Word64) : (s.wrG n x).slices = s.slices := by unfold State.wrG; split <;> rfl
@[simp] theorem State.wrG_turns (n : BitVec 6) (x : Word64) : (s.wrG n x).turns = s.turns := by unfold State.wrG; split <;> rfl
@[simp] theorem State.wrG_sites (n : BitVec 6) (x : Word64) : (s.wrG n x).sites = s.sites := by unfold State.wrG; split <;> rfl
@[simp] theorem State.wrG_hmap (n : BitVec 6) (x : Word64) : (s.wrG n x).hmap = s.hmap := by unfold State.wrG; split <;> rfl
@[simp] theorem State.wrG_vbnd (n : BitVec 6) (x : Word64) : (s.wrG n x).vbnd = s.vbnd := by unfold State.wrG; split <;> rfl
@[simp] theorem State.wrG_ports (n : BitVec 6) (x : Word64) : (s.wrG n x).ports = s.ports := by unfold State.wrG; split <;> rfl
@[simp] theorem State.wrG_peers (n : BitVec 6) (x : Word64) : (s.wrG n x).peers = s.peers := by unfold State.wrG; split <;> rfl
@[simp] theorem State.wrG_bounds (n : BitVec 6) (x : Word64) : (s.wrG n x).bounds = s.bounds := by unfold State.wrG; split <;> rfl
@[simp] theorem State.wrG_bridge (n : BitVec 6) (x : Word64) : (s.wrG n x).bridge = s.bridge := by unfold State.wrG; split <;> rfl
@[simp] theorem State.wrG_mill (n : BitVec 6) (x : Word64) : (s.wrG n x).mill = s.mill := by unfold State.wrG; split <;> rfl
@[simp] theorem State.wrG_out (n : BitVec 6) (x : Word64) : (s.wrG n x).out = s.out := by unfold State.wrG; split <;> rfl
@[simp] theorem State.wrG_mid (n : BitVec 6) (x : Word64) : (s.wrG n x).mid = s.mid := by unfold State.wrG; split <;> rfl
@[simp] theorem State.wrG_inc (n : BitVec 6) (x : Word64) : (s.wrG n x).inc = s.inc := by unfold State.wrG; split <;> rfl
@[simp] theorem State.wrG_lostt (n : BitVec 6) (x : Word64) : (s.wrG n x).lostt = s.lostt := by unfold State.wrG; split <;> rfl
@[simp] theorem State.wrG_firmware (n : BitVec 6) (x : Word64) : (s.wrG n x).firmware = s.firmware := by unfold State.wrG; split <;> rfl
@[simp] theorem State.wrG_clk (n : BitVec 6) (x : Word64) : (s.wrG n x).clk = s.clk := by unfold State.wrG; split <;> rfl
@[simp] theorem State.wrG_agenda (n : BitVec 6) (x : Word64) : (s.wrG n x).agenda = s.agenda := by unfold State.wrG; split <;> rfl
@[simp] theorem State.wrG_opnd (n : BitVec 6) (x : Word64) : (s.wrG n x).opnd = s.opnd := by unfold State.wrG; split <;> rfl
@[simp] theorem State.wrG_last (n : BitVec 6) (x : Word64) : (s.wrG n x).last = s.last := by unfold State.wrG; split <;> rfl
@[simp] theorem State.wrG_fresh (n : BitVec 6) (x : Word64) : (s.wrG n x).fresh = s.fresh := by unfold State.wrG; split <;> rfl

@[simp] theorem State.wrK_others (n : BitVec 3) (b : Bool) : (s.wrK n b).others = s.others := by unfold State.wrK; split <;> rfl
@[simp] theorem State.wrK_cores (n : BitVec 3) (b : Bool) : (s.wrK n b).cores = s.cores := by unfold State.wrK; split <;> rfl
@[simp] theorem State.wrK_mem (n : BitVec 3) (b : Bool) : (s.wrK n b).mem = s.mem := by unfold State.wrK; split <;> rfl
@[simp] theorem State.wrK_keys (n : BitVec 3) (b : Bool) : (s.wrK n b).keys = s.keys := by unfold State.wrK; split <;> rfl
@[simp] theorem State.wrK_badLines (n : BitVec 3) (b : Bool) : (s.wrK n b).badLines = s.badLines := by unfold State.wrK; split <;> rfl
@[simp] theorem State.wrK_scribbled (n : BitVec 3) (b : Bool) : (s.wrK n b).scribbled = s.scribbled := by unfold State.wrK; split <;> rfl
@[simp] theorem State.wrK_net (n : BitVec 3) (b : Bool) : (s.wrK n b).net = s.net := by unfold State.wrK; split <;> rfl
@[simp] theorem State.wrK_recent (n : BitVec 3) (b : Bool) : (s.wrK n b).recent = s.recent := by unfold State.wrK; split <;> rfl
@[simp] theorem State.wrK_views (n : BitVec 3) (b : Bool) : (s.wrK n b).views = s.views := by unfold State.wrK; split <;> rfl
@[simp] theorem State.wrK_tlb (n : BitVec 3) (b : Bool) : (s.wrK n b).tlb = s.tlb := by unfold State.wrK; split <;> rfl
@[simp] theorem State.wrK_ptrs (n : BitVec 3) (b : Bool) : (s.wrK n b).ptrs = s.ptrs := by unfold State.wrK; split <;> rfl
@[simp] theorem State.wrK_walks (n : BitVec 3) (b : Bool) : (s.wrK n b).walks = s.walks := by unfold State.wrK; split <;> rfl
@[simp] theorem State.wrK_frames (n : BitVec 3) (b : Bool) : (s.wrK n b).frames = s.frames := by unfold State.wrK; split <;> rfl
@[simp] theorem State.wrK_sentRels (n : BitVec 3) (b : Bool) : (s.wrK n b).sentRels = s.sentRels := by unfold State.wrK; split <;> rfl
@[simp] theorem State.wrK_givenUp (n : BitVec 3) (b : Bool) : (s.wrK n b).givenUp = s.givenUp := by unfold State.wrK; split <;> rfl
@[simp] theorem State.wrK_sealedAt (n : BitVec 3) (b : Bool) : (s.wrK n b).sealedAt = s.sealedAt := by unfold State.wrK; split <;> rfl
@[simp] theorem State.wrK_invs (n : BitVec 3) (b : Bool) : (s.wrK n b).invs = s.invs := by unfold State.wrK; split <;> rfl
@[simp] theorem State.wrK_cells (n : BitVec 3) (b : Bool) : (s.wrK n b).cells = s.cells := by unfold State.wrK; split <;> rfl
@[simp] theorem State.wrK_waits (n : BitVec 3) (b : Bool) : (s.wrK n b).waits = s.waits := by unfold State.wrK; split <;> rfl
@[simp] theorem State.wrK_wakes (n : BitVec 3) (b : Bool) : (s.wrK n b).wakes = s.wakes := by unfold State.wrK; split <;> rfl
@[simp] theorem State.wrK_posts (n : BitVec 3) (b : Bool) : (s.wrK n b).posts = s.posts := by unfold State.wrK; split <;> rfl
@[simp] theorem State.wrK_jobs (n : BitVec 3) (b : Bool) : (s.wrK n b).jobs = s.jobs := by unfold State.wrK; split <;> rfl
@[simp] theorem State.wrK_versions (n : BitVec 3) (b : Bool) : (s.wrK n b).versions = s.versions := by unfold State.wrK; split <;> rfl
@[simp] theorem State.wrK_parts (n : BitVec 3) (b : Bool) : (s.wrK n b).parts = s.parts := by unfold State.wrK; split <;> rfl
@[simp] theorem State.wrK_groups (n : BitVec 3) (b : Bool) : (s.wrK n b).groups = s.groups := by unfold State.wrK; split <;> rfl
@[simp] theorem State.wrK_records (n : BitVec 3) (b : Bool) : (s.wrK n b).records = s.records := by unfold State.wrK; split <;> rfl
@[simp] theorem State.wrK_slices (n : BitVec 3) (b : Bool) : (s.wrK n b).slices = s.slices := by unfold State.wrK; split <;> rfl
@[simp] theorem State.wrK_turns (n : BitVec 3) (b : Bool) : (s.wrK n b).turns = s.turns := by unfold State.wrK; split <;> rfl
@[simp] theorem State.wrK_sites (n : BitVec 3) (b : Bool) : (s.wrK n b).sites = s.sites := by unfold State.wrK; split <;> rfl
@[simp] theorem State.wrK_hmap (n : BitVec 3) (b : Bool) : (s.wrK n b).hmap = s.hmap := by unfold State.wrK; split <;> rfl
@[simp] theorem State.wrK_vbnd (n : BitVec 3) (b : Bool) : (s.wrK n b).vbnd = s.vbnd := by unfold State.wrK; split <;> rfl
@[simp] theorem State.wrK_ports (n : BitVec 3) (b : Bool) : (s.wrK n b).ports = s.ports := by unfold State.wrK; split <;> rfl
@[simp] theorem State.wrK_peers (n : BitVec 3) (b : Bool) : (s.wrK n b).peers = s.peers := by unfold State.wrK; split <;> rfl
@[simp] theorem State.wrK_bounds (n : BitVec 3) (b : Bool) : (s.wrK n b).bounds = s.bounds := by unfold State.wrK; split <;> rfl
@[simp] theorem State.wrK_bridge (n : BitVec 3) (b : Bool) : (s.wrK n b).bridge = s.bridge := by unfold State.wrK; split <;> rfl
@[simp] theorem State.wrK_mill (n : BitVec 3) (b : Bool) : (s.wrK n b).mill = s.mill := by unfold State.wrK; split <;> rfl
@[simp] theorem State.wrK_out (n : BitVec 3) (b : Bool) : (s.wrK n b).out = s.out := by unfold State.wrK; split <;> rfl
@[simp] theorem State.wrK_mid (n : BitVec 3) (b : Bool) : (s.wrK n b).mid = s.mid := by unfold State.wrK; split <;> rfl
@[simp] theorem State.wrK_inc (n : BitVec 3) (b : Bool) : (s.wrK n b).inc = s.inc := by unfold State.wrK; split <;> rfl
@[simp] theorem State.wrK_lostt (n : BitVec 3) (b : Bool) : (s.wrK n b).lostt = s.lostt := by unfold State.wrK; split <;> rfl
@[simp] theorem State.wrK_firmware (n : BitVec 3) (b : Bool) : (s.wrK n b).firmware = s.firmware := by unfold State.wrK; split <;> rfl
@[simp] theorem State.wrK_clk (n : BitVec 3) (b : Bool) : (s.wrK n b).clk = s.clk := by unfold State.wrK; split <;> rfl
@[simp] theorem State.wrK_agenda (n : BitVec 3) (b : Bool) : (s.wrK n b).agenda = s.agenda := by unfold State.wrK; split <;> rfl
@[simp] theorem State.wrK_opnd (n : BitVec 3) (b : Bool) : (s.wrK n b).opnd = s.opnd := by unfold State.wrK; split <;> rfl
@[simp] theorem State.wrK_last (n : BitVec 3) (b : Bool) : (s.wrK n b).last = s.last := by unfold State.wrK; split <;> rfl
@[simp] theorem State.wrK_fresh (n : BitVec 3) (b : Bool) : (s.wrK n b).fresh = s.fresh := by unfold State.wrK; split <;> rfl

@[simp] theorem State.putG_others (n : BitVec 6) (x : Word64) : (s.putG n x).others = s.others := by simp [State.putG]
@[simp] theorem State.putG_cores (n : BitVec 6) (x : Word64) : (s.putG n x).cores = s.cores := by simp [State.putG]
@[simp] theorem State.putG_mem (n : BitVec 6) (x : Word64) : (s.putG n x).mem = s.mem := by simp [State.putG]
@[simp] theorem State.putG_keys (n : BitVec 6) (x : Word64) : (s.putG n x).keys = s.keys := by simp [State.putG]
@[simp] theorem State.putG_badLines (n : BitVec 6) (x : Word64) : (s.putG n x).badLines = s.badLines := by simp [State.putG]
@[simp] theorem State.putG_scribbled (n : BitVec 6) (x : Word64) : (s.putG n x).scribbled = s.scribbled := by simp [State.putG]
@[simp] theorem State.putG_net (n : BitVec 6) (x : Word64) : (s.putG n x).net = s.net := by simp [State.putG]
@[simp] theorem State.putG_recent (n : BitVec 6) (x : Word64) : (s.putG n x).recent = s.recent := by simp [State.putG]
@[simp] theorem State.putG_views (n : BitVec 6) (x : Word64) : (s.putG n x).views = s.views := by simp [State.putG]
@[simp] theorem State.putG_tlb (n : BitVec 6) (x : Word64) : (s.putG n x).tlb = s.tlb := by simp [State.putG]
@[simp] theorem State.putG_ptrs (n : BitVec 6) (x : Word64) : (s.putG n x).ptrs = s.ptrs := by simp [State.putG]
@[simp] theorem State.putG_walks (n : BitVec 6) (x : Word64) : (s.putG n x).walks = s.walks := by simp [State.putG]
@[simp] theorem State.putG_frames (n : BitVec 6) (x : Word64) : (s.putG n x).frames = s.frames := by simp [State.putG]
@[simp] theorem State.putG_sentRels (n : BitVec 6) (x : Word64) : (s.putG n x).sentRels = s.sentRels := by simp [State.putG]
@[simp] theorem State.putG_givenUp (n : BitVec 6) (x : Word64) : (s.putG n x).givenUp = s.givenUp := by simp [State.putG]
@[simp] theorem State.putG_sealedAt (n : BitVec 6) (x : Word64) : (s.putG n x).sealedAt = s.sealedAt := by simp [State.putG]
@[simp] theorem State.putG_invs (n : BitVec 6) (x : Word64) : (s.putG n x).invs = s.invs := by simp [State.putG]
@[simp] theorem State.putG_cells (n : BitVec 6) (x : Word64) : (s.putG n x).cells = s.cells := by simp [State.putG]
@[simp] theorem State.putG_waits (n : BitVec 6) (x : Word64) : (s.putG n x).waits = s.waits := by simp [State.putG]
@[simp] theorem State.putG_wakes (n : BitVec 6) (x : Word64) : (s.putG n x).wakes = s.wakes := by simp [State.putG]
@[simp] theorem State.putG_posts (n : BitVec 6) (x : Word64) : (s.putG n x).posts = s.posts := by simp [State.putG]
@[simp] theorem State.putG_jobs (n : BitVec 6) (x : Word64) : (s.putG n x).jobs = s.jobs := by simp [State.putG]
@[simp] theorem State.putG_versions (n : BitVec 6) (x : Word64) : (s.putG n x).versions = s.versions := by simp [State.putG]
@[simp] theorem State.putG_parts (n : BitVec 6) (x : Word64) : (s.putG n x).parts = s.parts := by simp [State.putG]
@[simp] theorem State.putG_groups (n : BitVec 6) (x : Word64) : (s.putG n x).groups = s.groups := by simp [State.putG]
@[simp] theorem State.putG_records (n : BitVec 6) (x : Word64) : (s.putG n x).records = s.records := by simp [State.putG]
@[simp] theorem State.putG_slices (n : BitVec 6) (x : Word64) : (s.putG n x).slices = s.slices := by simp [State.putG]
@[simp] theorem State.putG_turns (n : BitVec 6) (x : Word64) : (s.putG n x).turns = s.turns := by simp [State.putG]
@[simp] theorem State.putG_sites (n : BitVec 6) (x : Word64) : (s.putG n x).sites = s.sites := by simp [State.putG]
@[simp] theorem State.putG_hmap (n : BitVec 6) (x : Word64) : (s.putG n x).hmap = s.hmap := by simp [State.putG]
@[simp] theorem State.putG_vbnd (n : BitVec 6) (x : Word64) : (s.putG n x).vbnd = s.vbnd := by simp [State.putG]
@[simp] theorem State.putG_ports (n : BitVec 6) (x : Word64) : (s.putG n x).ports = s.ports := by simp [State.putG]
@[simp] theorem State.putG_peers (n : BitVec 6) (x : Word64) : (s.putG n x).peers = s.peers := by simp [State.putG]
@[simp] theorem State.putG_bounds (n : BitVec 6) (x : Word64) : (s.putG n x).bounds = s.bounds := by simp [State.putG]
@[simp] theorem State.putG_bridge (n : BitVec 6) (x : Word64) : (s.putG n x).bridge = s.bridge := by simp [State.putG]
@[simp] theorem State.putG_mill (n : BitVec 6) (x : Word64) : (s.putG n x).mill = s.mill := by simp [State.putG]
@[simp] theorem State.putG_out (n : BitVec 6) (x : Word64) : (s.putG n x).out = s.out := by simp [State.putG]
@[simp] theorem State.putG_mid (n : BitVec 6) (x : Word64) : (s.putG n x).mid = s.mid := by simp [State.putG]
@[simp] theorem State.putG_inc (n : BitVec 6) (x : Word64) : (s.putG n x).inc = s.inc := by simp [State.putG]
@[simp] theorem State.putG_lostt (n : BitVec 6) (x : Word64) : (s.putG n x).lostt = s.lostt := by simp [State.putG]
@[simp] theorem State.putG_firmware (n : BitVec 6) (x : Word64) : (s.putG n x).firmware = s.firmware := by simp [State.putG]
@[simp] theorem State.putG_clk (n : BitVec 6) (x : Word64) : (s.putG n x).clk = s.clk := by simp [State.putG]
@[simp] theorem State.putG_agenda (n : BitVec 6) (x : Word64) : (s.putG n x).agenda = s.agenda := by simp [State.putG]
@[simp] theorem State.putG_opnd (n : BitVec 6) (x : Word64) : (s.putG n x).opnd = s.opnd := by simp [State.putG]
@[simp] theorem State.putG_fresh (n : BitVec 6) (x : Word64) : (s.putG n x).fresh = s.fresh := by simp [State.putG]

@[simp] theorem State.putK_others (n : BitVec 3) (b : Bool) : (s.putK n b).others = s.others := by simp [State.putK]
@[simp] theorem State.putK_cores (n : BitVec 3) (b : Bool) : (s.putK n b).cores = s.cores := by simp [State.putK]
@[simp] theorem State.putK_mem (n : BitVec 3) (b : Bool) : (s.putK n b).mem = s.mem := by simp [State.putK]
@[simp] theorem State.putK_keys (n : BitVec 3) (b : Bool) : (s.putK n b).keys = s.keys := by simp [State.putK]
@[simp] theorem State.putK_badLines (n : BitVec 3) (b : Bool) : (s.putK n b).badLines = s.badLines := by simp [State.putK]
@[simp] theorem State.putK_scribbled (n : BitVec 3) (b : Bool) : (s.putK n b).scribbled = s.scribbled := by simp [State.putK]
@[simp] theorem State.putK_net (n : BitVec 3) (b : Bool) : (s.putK n b).net = s.net := by simp [State.putK]
@[simp] theorem State.putK_recent (n : BitVec 3) (b : Bool) : (s.putK n b).recent = s.recent := by simp [State.putK]
@[simp] theorem State.putK_views (n : BitVec 3) (b : Bool) : (s.putK n b).views = s.views := by simp [State.putK]
@[simp] theorem State.putK_tlb (n : BitVec 3) (b : Bool) : (s.putK n b).tlb = s.tlb := by simp [State.putK]
@[simp] theorem State.putK_ptrs (n : BitVec 3) (b : Bool) : (s.putK n b).ptrs = s.ptrs := by simp [State.putK]
@[simp] theorem State.putK_walks (n : BitVec 3) (b : Bool) : (s.putK n b).walks = s.walks := by simp [State.putK]
@[simp] theorem State.putK_frames (n : BitVec 3) (b : Bool) : (s.putK n b).frames = s.frames := by simp [State.putK]
@[simp] theorem State.putK_sentRels (n : BitVec 3) (b : Bool) : (s.putK n b).sentRels = s.sentRels := by simp [State.putK]
@[simp] theorem State.putK_givenUp (n : BitVec 3) (b : Bool) : (s.putK n b).givenUp = s.givenUp := by simp [State.putK]
@[simp] theorem State.putK_sealedAt (n : BitVec 3) (b : Bool) : (s.putK n b).sealedAt = s.sealedAt := by simp [State.putK]
@[simp] theorem State.putK_invs (n : BitVec 3) (b : Bool) : (s.putK n b).invs = s.invs := by simp [State.putK]
@[simp] theorem State.putK_cells (n : BitVec 3) (b : Bool) : (s.putK n b).cells = s.cells := by simp [State.putK]
@[simp] theorem State.putK_waits (n : BitVec 3) (b : Bool) : (s.putK n b).waits = s.waits := by simp [State.putK]
@[simp] theorem State.putK_wakes (n : BitVec 3) (b : Bool) : (s.putK n b).wakes = s.wakes := by simp [State.putK]
@[simp] theorem State.putK_posts (n : BitVec 3) (b : Bool) : (s.putK n b).posts = s.posts := by simp [State.putK]
@[simp] theorem State.putK_jobs (n : BitVec 3) (b : Bool) : (s.putK n b).jobs = s.jobs := by simp [State.putK]
@[simp] theorem State.putK_versions (n : BitVec 3) (b : Bool) : (s.putK n b).versions = s.versions := by simp [State.putK]
@[simp] theorem State.putK_parts (n : BitVec 3) (b : Bool) : (s.putK n b).parts = s.parts := by simp [State.putK]
@[simp] theorem State.putK_groups (n : BitVec 3) (b : Bool) : (s.putK n b).groups = s.groups := by simp [State.putK]
@[simp] theorem State.putK_records (n : BitVec 3) (b : Bool) : (s.putK n b).records = s.records := by simp [State.putK]
@[simp] theorem State.putK_slices (n : BitVec 3) (b : Bool) : (s.putK n b).slices = s.slices := by simp [State.putK]
@[simp] theorem State.putK_turns (n : BitVec 3) (b : Bool) : (s.putK n b).turns = s.turns := by simp [State.putK]
@[simp] theorem State.putK_sites (n : BitVec 3) (b : Bool) : (s.putK n b).sites = s.sites := by simp [State.putK]
@[simp] theorem State.putK_hmap (n : BitVec 3) (b : Bool) : (s.putK n b).hmap = s.hmap := by simp [State.putK]
@[simp] theorem State.putK_vbnd (n : BitVec 3) (b : Bool) : (s.putK n b).vbnd = s.vbnd := by simp [State.putK]
@[simp] theorem State.putK_ports (n : BitVec 3) (b : Bool) : (s.putK n b).ports = s.ports := by simp [State.putK]
@[simp] theorem State.putK_peers (n : BitVec 3) (b : Bool) : (s.putK n b).peers = s.peers := by simp [State.putK]
@[simp] theorem State.putK_bounds (n : BitVec 3) (b : Bool) : (s.putK n b).bounds = s.bounds := by simp [State.putK]
@[simp] theorem State.putK_bridge (n : BitVec 3) (b : Bool) : (s.putK n b).bridge = s.bridge := by simp [State.putK]
@[simp] theorem State.putK_mill (n : BitVec 3) (b : Bool) : (s.putK n b).mill = s.mill := by simp [State.putK]
@[simp] theorem State.putK_out (n : BitVec 3) (b : Bool) : (s.putK n b).out = s.out := by simp [State.putK]
@[simp] theorem State.putK_mid (n : BitVec 3) (b : Bool) : (s.putK n b).mid = s.mid := by simp [State.putK]
@[simp] theorem State.putK_inc (n : BitVec 3) (b : Bool) : (s.putK n b).inc = s.inc := by simp [State.putK]
@[simp] theorem State.putK_lostt (n : BitVec 3) (b : Bool) : (s.putK n b).lostt = s.lostt := by simp [State.putK]
@[simp] theorem State.putK_firmware (n : BitVec 3) (b : Bool) : (s.putK n b).firmware = s.firmware := by simp [State.putK]
@[simp] theorem State.putK_clk (n : BitVec 3) (b : Bool) : (s.putK n b).clk = s.clk := by simp [State.putK]
@[simp] theorem State.putK_agenda (n : BitVec 3) (b : Bool) : (s.putK n b).agenda = s.agenda := by simp [State.putK]
@[simp] theorem State.putK_opnd (n : BitVec 3) (b : Bool) : (s.putK n b).opnd = s.opnd := by simp [State.putK]
@[simp] theorem State.putK_fresh (n : BitVec 3) (b : Bool) : (s.putK n b).fresh = s.fresh := by simp [State.putK]

@[simp] theorem State.jump_cur (t : Nat) : (s.jump t).cur = s.cur := rfl
@[simp] theorem State.jump_others (t : Nat) : (s.jump t).others = s.others := rfl
@[simp] theorem State.jump_cores (t : Nat) : (s.jump t).cores = s.cores := rfl
@[simp] theorem State.jump_mem (t : Nat) : (s.jump t).mem = s.mem := rfl
@[simp] theorem State.jump_keys (t : Nat) : (s.jump t).keys = s.keys := rfl
@[simp] theorem State.jump_badLines (t : Nat) : (s.jump t).badLines = s.badLines := rfl
@[simp] theorem State.jump_scribbled (t : Nat) : (s.jump t).scribbled = s.scribbled := rfl
@[simp] theorem State.jump_net (t : Nat) : (s.jump t).net = s.net := rfl
@[simp] theorem State.jump_recent (t : Nat) : (s.jump t).recent = s.recent := rfl
@[simp] theorem State.jump_views (t : Nat) : (s.jump t).views = s.views := rfl
@[simp] theorem State.jump_tlb (t : Nat) : (s.jump t).tlb = s.tlb := rfl
@[simp] theorem State.jump_ptrs (t : Nat) : (s.jump t).ptrs = s.ptrs := rfl
@[simp] theorem State.jump_walks (t : Nat) : (s.jump t).walks = s.walks := rfl
@[simp] theorem State.jump_frames (t : Nat) : (s.jump t).frames = s.frames := rfl
@[simp] theorem State.jump_sentRels (t : Nat) : (s.jump t).sentRels = s.sentRels := rfl
@[simp] theorem State.jump_givenUp (t : Nat) : (s.jump t).givenUp = s.givenUp := rfl
@[simp] theorem State.jump_sealedAt (t : Nat) : (s.jump t).sealedAt = s.sealedAt := rfl
@[simp] theorem State.jump_invs (t : Nat) : (s.jump t).invs = s.invs := rfl
@[simp] theorem State.jump_cells (t : Nat) : (s.jump t).cells = s.cells := rfl
@[simp] theorem State.jump_waits (t : Nat) : (s.jump t).waits = s.waits := rfl
@[simp] theorem State.jump_wakes (t : Nat) : (s.jump t).wakes = s.wakes := rfl
@[simp] theorem State.jump_posts (t : Nat) : (s.jump t).posts = s.posts := rfl
@[simp] theorem State.jump_jobs (t : Nat) : (s.jump t).jobs = s.jobs := rfl
@[simp] theorem State.jump_versions (t : Nat) : (s.jump t).versions = s.versions := rfl
@[simp] theorem State.jump_parts (t : Nat) : (s.jump t).parts = s.parts := rfl
@[simp] theorem State.jump_groups (t : Nat) : (s.jump t).groups = s.groups := rfl
@[simp] theorem State.jump_records (t : Nat) : (s.jump t).records = s.records := rfl
@[simp] theorem State.jump_slices (t : Nat) : (s.jump t).slices = s.slices := rfl
@[simp] theorem State.jump_turns (t : Nat) : (s.jump t).turns = s.turns := rfl
@[simp] theorem State.jump_sites (t : Nat) : (s.jump t).sites = s.sites := rfl
@[simp] theorem State.jump_hmap (t : Nat) : (s.jump t).hmap = s.hmap := rfl
@[simp] theorem State.jump_vbnd (t : Nat) : (s.jump t).vbnd = s.vbnd := rfl
@[simp] theorem State.jump_ports (t : Nat) : (s.jump t).ports = s.ports := rfl
@[simp] theorem State.jump_peers (t : Nat) : (s.jump t).peers = s.peers := rfl
@[simp] theorem State.jump_bounds (t : Nat) : (s.jump t).bounds = s.bounds := rfl
@[simp] theorem State.jump_bridge (t : Nat) : (s.jump t).bridge = s.bridge := rfl
@[simp] theorem State.jump_mill (t : Nat) : (s.jump t).mill = s.mill := rfl
@[simp] theorem State.jump_out (t : Nat) : (s.jump t).out = s.out := rfl
@[simp] theorem State.jump_mid (t : Nat) : (s.jump t).mid = s.mid := rfl
@[simp] theorem State.jump_inc (t : Nat) : (s.jump t).inc = s.inc := rfl
@[simp] theorem State.jump_lostt (t : Nat) : (s.jump t).lostt = s.lostt := rfl
@[simp] theorem State.jump_firmware (t : Nat) : (s.jump t).firmware = s.firmware := rfl
@[simp] theorem State.jump_clk (t : Nat) : (s.jump t).clk = s.clk := rfl
@[simp] theorem State.jump_agenda (t : Nat) : (s.jump t).agenda = s.agenda := rfl
@[simp] theorem State.jump_opnd (t : Nat) : (s.jump t).opnd = s.opnd := rfl
@[simp] theorem State.jump_fresh (t : Nat) : (s.jump t).fresh = s.fresh := rfl

@[simp] theorem State.setLoops_others (l : List LoopEntry) : (s.setLoops l).others = s.others := rfl
@[simp] theorem State.setLoops_cores (l : List LoopEntry) : (s.setLoops l).cores = s.cores := rfl
@[simp] theorem State.setLoops_mem (l : List LoopEntry) : (s.setLoops l).mem = s.mem := rfl
@[simp] theorem State.setLoops_keys (l : List LoopEntry) : (s.setLoops l).keys = s.keys := rfl
@[simp] theorem State.setLoops_badLines (l : List LoopEntry) : (s.setLoops l).badLines = s.badLines := rfl
@[simp] theorem State.setLoops_scribbled (l : List LoopEntry) : (s.setLoops l).scribbled = s.scribbled := rfl
@[simp] theorem State.setLoops_net (l : List LoopEntry) : (s.setLoops l).net = s.net := rfl
@[simp] theorem State.setLoops_recent (l : List LoopEntry) : (s.setLoops l).recent = s.recent := rfl
@[simp] theorem State.setLoops_views (l : List LoopEntry) : (s.setLoops l).views = s.views := rfl
@[simp] theorem State.setLoops_tlb (l : List LoopEntry) : (s.setLoops l).tlb = s.tlb := rfl
@[simp] theorem State.setLoops_ptrs (l : List LoopEntry) : (s.setLoops l).ptrs = s.ptrs := rfl
@[simp] theorem State.setLoops_walks (l : List LoopEntry) : (s.setLoops l).walks = s.walks := rfl
@[simp] theorem State.setLoops_frames (l : List LoopEntry) : (s.setLoops l).frames = s.frames := rfl
@[simp] theorem State.setLoops_sentRels (l : List LoopEntry) : (s.setLoops l).sentRels = s.sentRels := rfl
@[simp] theorem State.setLoops_givenUp (l : List LoopEntry) : (s.setLoops l).givenUp = s.givenUp := rfl
@[simp] theorem State.setLoops_sealedAt (l : List LoopEntry) : (s.setLoops l).sealedAt = s.sealedAt := rfl
@[simp] theorem State.setLoops_invs (l : List LoopEntry) : (s.setLoops l).invs = s.invs := rfl
@[simp] theorem State.setLoops_cells (l : List LoopEntry) : (s.setLoops l).cells = s.cells := rfl
@[simp] theorem State.setLoops_waits (l : List LoopEntry) : (s.setLoops l).waits = s.waits := rfl
@[simp] theorem State.setLoops_wakes (l : List LoopEntry) : (s.setLoops l).wakes = s.wakes := rfl
@[simp] theorem State.setLoops_posts (l : List LoopEntry) : (s.setLoops l).posts = s.posts := rfl
@[simp] theorem State.setLoops_jobs (l : List LoopEntry) : (s.setLoops l).jobs = s.jobs := rfl
@[simp] theorem State.setLoops_versions (l : List LoopEntry) : (s.setLoops l).versions = s.versions := rfl
@[simp] theorem State.setLoops_parts (l : List LoopEntry) : (s.setLoops l).parts = s.parts := rfl
@[simp] theorem State.setLoops_groups (l : List LoopEntry) : (s.setLoops l).groups = s.groups := rfl
@[simp] theorem State.setLoops_records (l : List LoopEntry) : (s.setLoops l).records = s.records := rfl
@[simp] theorem State.setLoops_slices (l : List LoopEntry) : (s.setLoops l).slices = s.slices := rfl
@[simp] theorem State.setLoops_turns (l : List LoopEntry) : (s.setLoops l).turns = s.turns := rfl
@[simp] theorem State.setLoops_sites (l : List LoopEntry) : (s.setLoops l).sites = s.sites := rfl
@[simp] theorem State.setLoops_hmap (l : List LoopEntry) : (s.setLoops l).hmap = s.hmap := rfl
@[simp] theorem State.setLoops_vbnd (l : List LoopEntry) : (s.setLoops l).vbnd = s.vbnd := rfl
@[simp] theorem State.setLoops_ports (l : List LoopEntry) : (s.setLoops l).ports = s.ports := rfl
@[simp] theorem State.setLoops_peers (l : List LoopEntry) : (s.setLoops l).peers = s.peers := rfl
@[simp] theorem State.setLoops_bounds (l : List LoopEntry) : (s.setLoops l).bounds = s.bounds := rfl
@[simp] theorem State.setLoops_bridge (l : List LoopEntry) : (s.setLoops l).bridge = s.bridge := rfl
@[simp] theorem State.setLoops_mill (l : List LoopEntry) : (s.setLoops l).mill = s.mill := rfl
@[simp] theorem State.setLoops_out (l : List LoopEntry) : (s.setLoops l).out = s.out := rfl
@[simp] theorem State.setLoops_mid (l : List LoopEntry) : (s.setLoops l).mid = s.mid := rfl
@[simp] theorem State.setLoops_inc (l : List LoopEntry) : (s.setLoops l).inc = s.inc := rfl
@[simp] theorem State.setLoops_lostt (l : List LoopEntry) : (s.setLoops l).lostt = s.lostt := rfl
@[simp] theorem State.setLoops_firmware (l : List LoopEntry) : (s.setLoops l).firmware = s.firmware := rfl
@[simp] theorem State.setLoops_clk (l : List LoopEntry) : (s.setLoops l).clk = s.clk := rfl
@[simp] theorem State.setLoops_agenda (l : List LoopEntry) : (s.setLoops l).agenda = s.agenda := rfl
@[simp] theorem State.setLoops_opnd (l : List LoopEntry) : (s.setLoops l).opnd = s.opnd := rfl
@[simp] theorem State.setLoops_last (l : List LoopEntry) : (s.setLoops l).last = s.last := rfl
@[simp] theorem State.setLoops_fresh (l : List LoopEntry) : (s.setLoops l).fresh = s.fresh := rfl

@[simp] theorem State.setStrand_cores (t : Strand) : (s.setStrand t).cores = s.cores := by unfold State.setStrand; split <;> rfl
@[simp] theorem State.setStrand_mem (t : Strand) : (s.setStrand t).mem = s.mem := by unfold State.setStrand; split <;> rfl
@[simp] theorem State.setStrand_keys (t : Strand) : (s.setStrand t).keys = s.keys := by unfold State.setStrand; split <;> rfl
@[simp] theorem State.setStrand_badLines (t : Strand) : (s.setStrand t).badLines = s.badLines := by unfold State.setStrand; split <;> rfl
@[simp] theorem State.setStrand_scribbled (t : Strand) : (s.setStrand t).scribbled = s.scribbled := by unfold State.setStrand; split <;> rfl
@[simp] theorem State.setStrand_net (t : Strand) : (s.setStrand t).net = s.net := by unfold State.setStrand; split <;> rfl
@[simp] theorem State.setStrand_recent (t : Strand) : (s.setStrand t).recent = s.recent := by unfold State.setStrand; split <;> rfl
@[simp] theorem State.setStrand_views (t : Strand) : (s.setStrand t).views = s.views := by unfold State.setStrand; split <;> rfl
@[simp] theorem State.setStrand_tlb (t : Strand) : (s.setStrand t).tlb = s.tlb := by unfold State.setStrand; split <;> rfl
@[simp] theorem State.setStrand_ptrs (t : Strand) : (s.setStrand t).ptrs = s.ptrs := by unfold State.setStrand; split <;> rfl
@[simp] theorem State.setStrand_walks (t : Strand) : (s.setStrand t).walks = s.walks := by unfold State.setStrand; split <;> rfl
@[simp] theorem State.setStrand_frames (t : Strand) : (s.setStrand t).frames = s.frames := by unfold State.setStrand; split <;> rfl
@[simp] theorem State.setStrand_sentRels (t : Strand) : (s.setStrand t).sentRels = s.sentRels := by unfold State.setStrand; split <;> rfl
@[simp] theorem State.setStrand_givenUp (t : Strand) : (s.setStrand t).givenUp = s.givenUp := by unfold State.setStrand; split <;> rfl
@[simp] theorem State.setStrand_sealedAt (t : Strand) : (s.setStrand t).sealedAt = s.sealedAt := by unfold State.setStrand; split <;> rfl
@[simp] theorem State.setStrand_invs (t : Strand) : (s.setStrand t).invs = s.invs := by unfold State.setStrand; split <;> rfl
@[simp] theorem State.setStrand_cells (t : Strand) : (s.setStrand t).cells = s.cells := by unfold State.setStrand; split <;> rfl
@[simp] theorem State.setStrand_waits (t : Strand) : (s.setStrand t).waits = s.waits := by unfold State.setStrand; split <;> rfl
@[simp] theorem State.setStrand_wakes (t : Strand) : (s.setStrand t).wakes = s.wakes := by unfold State.setStrand; split <;> rfl
@[simp] theorem State.setStrand_posts (t : Strand) : (s.setStrand t).posts = s.posts := by unfold State.setStrand; split <;> rfl
@[simp] theorem State.setStrand_jobs (t : Strand) : (s.setStrand t).jobs = s.jobs := by unfold State.setStrand; split <;> rfl
@[simp] theorem State.setStrand_versions (t : Strand) : (s.setStrand t).versions = s.versions := by unfold State.setStrand; split <;> rfl
@[simp] theorem State.setStrand_parts (t : Strand) : (s.setStrand t).parts = s.parts := by unfold State.setStrand; split <;> rfl
@[simp] theorem State.setStrand_groups (t : Strand) : (s.setStrand t).groups = s.groups := by unfold State.setStrand; split <;> rfl
@[simp] theorem State.setStrand_records (t : Strand) : (s.setStrand t).records = s.records := by unfold State.setStrand; split <;> rfl
@[simp] theorem State.setStrand_slices (t : Strand) : (s.setStrand t).slices = s.slices := by unfold State.setStrand; split <;> rfl
@[simp] theorem State.setStrand_turns (t : Strand) : (s.setStrand t).turns = s.turns := by unfold State.setStrand; split <;> rfl
@[simp] theorem State.setStrand_sites (t : Strand) : (s.setStrand t).sites = s.sites := by unfold State.setStrand; split <;> rfl
@[simp] theorem State.setStrand_hmap (t : Strand) : (s.setStrand t).hmap = s.hmap := by unfold State.setStrand; split <;> rfl
@[simp] theorem State.setStrand_vbnd (t : Strand) : (s.setStrand t).vbnd = s.vbnd := by unfold State.setStrand; split <;> rfl
@[simp] theorem State.setStrand_ports (t : Strand) : (s.setStrand t).ports = s.ports := by unfold State.setStrand; split <;> rfl
@[simp] theorem State.setStrand_peers (t : Strand) : (s.setStrand t).peers = s.peers := by unfold State.setStrand; split <;> rfl
@[simp] theorem State.setStrand_bounds (t : Strand) : (s.setStrand t).bounds = s.bounds := by unfold State.setStrand; split <;> rfl
@[simp] theorem State.setStrand_bridge (t : Strand) : (s.setStrand t).bridge = s.bridge := by unfold State.setStrand; split <;> rfl
@[simp] theorem State.setStrand_mill (t : Strand) : (s.setStrand t).mill = s.mill := by unfold State.setStrand; split <;> rfl
@[simp] theorem State.setStrand_out (t : Strand) : (s.setStrand t).out = s.out := by unfold State.setStrand; split <;> rfl
@[simp] theorem State.setStrand_mid (t : Strand) : (s.setStrand t).mid = s.mid := by unfold State.setStrand; split <;> rfl
@[simp] theorem State.setStrand_inc (t : Strand) : (s.setStrand t).inc = s.inc := by unfold State.setStrand; split <;> rfl
@[simp] theorem State.setStrand_lostt (t : Strand) : (s.setStrand t).lostt = s.lostt := by unfold State.setStrand; split <;> rfl
@[simp] theorem State.setStrand_firmware (t : Strand) : (s.setStrand t).firmware = s.firmware := by unfold State.setStrand; split <;> rfl
@[simp] theorem State.setStrand_clk (t : Strand) : (s.setStrand t).clk = s.clk := by unfold State.setStrand; split <;> rfl
@[simp] theorem State.setStrand_agenda (t : Strand) : (s.setStrand t).agenda = s.agenda := by unfold State.setStrand; split <;> rfl
@[simp] theorem State.setStrand_opnd (t : Strand) : (s.setStrand t).opnd = s.opnd := by unfold State.setStrand; split <;> rfl
@[simp] theorem State.setStrand_last (t : Strand) : (s.setStrand t).last = s.last := by unfold State.setStrand; split <;> rfl
@[simp] theorem State.setStrand_fresh (t : Strand) : (s.setStrand t).fresh = s.fresh := by unfold State.setStrand; split <;> rfl


@[simp] theorem State.mapStrands_cores (f : Strand → Strand) : (s.mapStrands f).cores = s.cores := rfl
@[simp] theorem State.mapStrands_mem (f : Strand → Strand) : (s.mapStrands f).mem = s.mem := rfl
@[simp] theorem State.mapStrands_keys (f : Strand → Strand) : (s.mapStrands f).keys = s.keys := rfl
@[simp] theorem State.mapStrands_badLines (f : Strand → Strand) : (s.mapStrands f).badLines = s.badLines := rfl
@[simp] theorem State.mapStrands_scribbled (f : Strand → Strand) : (s.mapStrands f).scribbled = s.scribbled := rfl
@[simp] theorem State.mapStrands_net (f : Strand → Strand) : (s.mapStrands f).net = s.net := rfl
@[simp] theorem State.mapStrands_recent (f : Strand → Strand) : (s.mapStrands f).recent = s.recent := rfl
@[simp] theorem State.mapStrands_views (f : Strand → Strand) : (s.mapStrands f).views = s.views := rfl
@[simp] theorem State.mapStrands_tlb (f : Strand → Strand) : (s.mapStrands f).tlb = s.tlb := rfl
@[simp] theorem State.mapStrands_ptrs (f : Strand → Strand) : (s.mapStrands f).ptrs = s.ptrs := rfl
@[simp] theorem State.mapStrands_walks (f : Strand → Strand) : (s.mapStrands f).walks = s.walks := rfl
@[simp] theorem State.mapStrands_frames (f : Strand → Strand) : (s.mapStrands f).frames = s.frames := rfl
@[simp] theorem State.mapStrands_sentRels (f : Strand → Strand) : (s.mapStrands f).sentRels = s.sentRels := rfl
@[simp] theorem State.mapStrands_givenUp (f : Strand → Strand) : (s.mapStrands f).givenUp = s.givenUp := rfl
@[simp] theorem State.mapStrands_sealedAt (f : Strand → Strand) : (s.mapStrands f).sealedAt = s.sealedAt := rfl
@[simp] theorem State.mapStrands_invs (f : Strand → Strand) : (s.mapStrands f).invs = s.invs := rfl
@[simp] theorem State.mapStrands_cells (f : Strand → Strand) : (s.mapStrands f).cells = s.cells := rfl
@[simp] theorem State.mapStrands_waits (f : Strand → Strand) : (s.mapStrands f).waits = s.waits := rfl
@[simp] theorem State.mapStrands_wakes (f : Strand → Strand) : (s.mapStrands f).wakes = s.wakes := rfl
@[simp] theorem State.mapStrands_posts (f : Strand → Strand) : (s.mapStrands f).posts = s.posts := rfl
@[simp] theorem State.mapStrands_jobs (f : Strand → Strand) : (s.mapStrands f).jobs = s.jobs := rfl
@[simp] theorem State.mapStrands_versions (f : Strand → Strand) : (s.mapStrands f).versions = s.versions := rfl
@[simp] theorem State.mapStrands_parts (f : Strand → Strand) : (s.mapStrands f).parts = s.parts := rfl
@[simp] theorem State.mapStrands_groups (f : Strand → Strand) : (s.mapStrands f).groups = s.groups := rfl
@[simp] theorem State.mapStrands_records (f : Strand → Strand) : (s.mapStrands f).records = s.records := rfl
@[simp] theorem State.mapStrands_slices (f : Strand → Strand) : (s.mapStrands f).slices = s.slices := rfl
@[simp] theorem State.mapStrands_turns (f : Strand → Strand) : (s.mapStrands f).turns = s.turns := rfl
@[simp] theorem State.mapStrands_sites (f : Strand → Strand) : (s.mapStrands f).sites = s.sites := rfl
@[simp] theorem State.mapStrands_hmap (f : Strand → Strand) : (s.mapStrands f).hmap = s.hmap := rfl
@[simp] theorem State.mapStrands_vbnd (f : Strand → Strand) : (s.mapStrands f).vbnd = s.vbnd := rfl
@[simp] theorem State.mapStrands_ports (f : Strand → Strand) : (s.mapStrands f).ports = s.ports := rfl
@[simp] theorem State.mapStrands_peers (f : Strand → Strand) : (s.mapStrands f).peers = s.peers := rfl
@[simp] theorem State.mapStrands_bounds (f : Strand → Strand) : (s.mapStrands f).bounds = s.bounds := rfl
@[simp] theorem State.mapStrands_bridge (f : Strand → Strand) : (s.mapStrands f).bridge = s.bridge := rfl
@[simp] theorem State.mapStrands_mill (f : Strand → Strand) : (s.mapStrands f).mill = s.mill := rfl
@[simp] theorem State.mapStrands_out (f : Strand → Strand) : (s.mapStrands f).out = s.out := rfl
@[simp] theorem State.mapStrands_mid (f : Strand → Strand) : (s.mapStrands f).mid = s.mid := rfl
@[simp] theorem State.mapStrands_inc (f : Strand → Strand) : (s.mapStrands f).inc = s.inc := rfl
@[simp] theorem State.mapStrands_lostt (f : Strand → Strand) : (s.mapStrands f).lostt = s.lostt := rfl
@[simp] theorem State.mapStrands_firmware (f : Strand → Strand) : (s.mapStrands f).firmware = s.firmware := rfl
@[simp] theorem State.mapStrands_clk (f : Strand → Strand) : (s.mapStrands f).clk = s.clk := rfl
@[simp] theorem State.mapStrands_agenda (f : Strand → Strand) : (s.mapStrands f).agenda = s.agenda := rfl
@[simp] theorem State.mapStrands_opnd (f : Strand → Strand) : (s.mapStrands f).opnd = s.opnd := rfl
@[simp] theorem State.mapStrands_last (f : Strand → Strand) : (s.mapStrands f).last = s.last := rfl
@[simp] theorem State.mapStrands_fresh (f : Strand → Strand) : (s.mapStrands f).fresh = s.fresh := rfl

@[simp] theorem State.setCore_cur (c : Core) : (s.setCore c).cur = s.cur := rfl
@[simp] theorem State.setCore_others (c : Core) : (s.setCore c).others = s.others := rfl
@[simp] theorem State.setCore_mem (c : Core) : (s.setCore c).mem = s.mem := rfl
@[simp] theorem State.setCore_keys (c : Core) : (s.setCore c).keys = s.keys := rfl
@[simp] theorem State.setCore_badLines (c : Core) : (s.setCore c).badLines = s.badLines := rfl
@[simp] theorem State.setCore_scribbled (c : Core) : (s.setCore c).scribbled = s.scribbled := rfl
@[simp] theorem State.setCore_net (c : Core) : (s.setCore c).net = s.net := rfl
@[simp] theorem State.setCore_recent (c : Core) : (s.setCore c).recent = s.recent := rfl
@[simp] theorem State.setCore_views (c : Core) : (s.setCore c).views = s.views := rfl
@[simp] theorem State.setCore_tlb (c : Core) : (s.setCore c).tlb = s.tlb := rfl
@[simp] theorem State.setCore_ptrs (c : Core) : (s.setCore c).ptrs = s.ptrs := rfl
@[simp] theorem State.setCore_walks (c : Core) : (s.setCore c).walks = s.walks := rfl
@[simp] theorem State.setCore_frames (c : Core) : (s.setCore c).frames = s.frames := rfl
@[simp] theorem State.setCore_sentRels (c : Core) : (s.setCore c).sentRels = s.sentRels := rfl
@[simp] theorem State.setCore_givenUp (c : Core) : (s.setCore c).givenUp = s.givenUp := rfl
@[simp] theorem State.setCore_sealedAt (c : Core) : (s.setCore c).sealedAt = s.sealedAt := rfl
@[simp] theorem State.setCore_invs (c : Core) : (s.setCore c).invs = s.invs := rfl
@[simp] theorem State.setCore_cells (c : Core) : (s.setCore c).cells = s.cells := rfl
@[simp] theorem State.setCore_waits (c : Core) : (s.setCore c).waits = s.waits := rfl
@[simp] theorem State.setCore_wakes (c : Core) : (s.setCore c).wakes = s.wakes := rfl
@[simp] theorem State.setCore_posts (c : Core) : (s.setCore c).posts = s.posts := rfl
@[simp] theorem State.setCore_jobs (c : Core) : (s.setCore c).jobs = s.jobs := rfl
@[simp] theorem State.setCore_versions (c : Core) : (s.setCore c).versions = s.versions := rfl
@[simp] theorem State.setCore_parts (c : Core) : (s.setCore c).parts = s.parts := rfl
@[simp] theorem State.setCore_groups (c : Core) : (s.setCore c).groups = s.groups := rfl
@[simp] theorem State.setCore_records (c : Core) : (s.setCore c).records = s.records := rfl
@[simp] theorem State.setCore_slices (c : Core) : (s.setCore c).slices = s.slices := rfl
@[simp] theorem State.setCore_turns (c : Core) : (s.setCore c).turns = s.turns := rfl
@[simp] theorem State.setCore_sites (c : Core) : (s.setCore c).sites = s.sites := rfl
@[simp] theorem State.setCore_hmap (c : Core) : (s.setCore c).hmap = s.hmap := rfl
@[simp] theorem State.setCore_vbnd (c : Core) : (s.setCore c).vbnd = s.vbnd := rfl
@[simp] theorem State.setCore_ports (c : Core) : (s.setCore c).ports = s.ports := rfl
@[simp] theorem State.setCore_peers (c : Core) : (s.setCore c).peers = s.peers := rfl
@[simp] theorem State.setCore_bounds (c : Core) : (s.setCore c).bounds = s.bounds := rfl
@[simp] theorem State.setCore_bridge (c : Core) : (s.setCore c).bridge = s.bridge := rfl
@[simp] theorem State.setCore_mill (c : Core) : (s.setCore c).mill = s.mill := rfl
@[simp] theorem State.setCore_out (c : Core) : (s.setCore c).out = s.out := rfl
@[simp] theorem State.setCore_mid (c : Core) : (s.setCore c).mid = s.mid := rfl
@[simp] theorem State.setCore_inc (c : Core) : (s.setCore c).inc = s.inc := rfl
@[simp] theorem State.setCore_lostt (c : Core) : (s.setCore c).lostt = s.lostt := rfl
@[simp] theorem State.setCore_firmware (c : Core) : (s.setCore c).firmware = s.firmware := rfl
@[simp] theorem State.setCore_clk (c : Core) : (s.setCore c).clk = s.clk := rfl
@[simp] theorem State.setCore_agenda (c : Core) : (s.setCore c).agenda = s.agenda := rfl
@[simp] theorem State.setCore_opnd (c : Core) : (s.setCore c).opnd = s.opnd := rfl
@[simp] theorem State.setCore_last (c : Core) : (s.setCore c).last = s.last := rfl
@[simp] theorem State.setCore_fresh (c : Core) : (s.setCore c).fresh = s.fresh := rfl

@[simp] theorem State.setPart_cur (p : Part) : (s.setPart p).cur = s.cur := rfl
@[simp] theorem State.setPart_others (p : Part) : (s.setPart p).others = s.others := rfl
@[simp] theorem State.setPart_cores (p : Part) : (s.setPart p).cores = s.cores := rfl
@[simp] theorem State.setPart_mem (p : Part) : (s.setPart p).mem = s.mem := rfl
@[simp] theorem State.setPart_keys (p : Part) : (s.setPart p).keys = s.keys := rfl
@[simp] theorem State.setPart_badLines (p : Part) : (s.setPart p).badLines = s.badLines := rfl
@[simp] theorem State.setPart_scribbled (p : Part) : (s.setPart p).scribbled = s.scribbled := rfl
@[simp] theorem State.setPart_net (p : Part) : (s.setPart p).net = s.net := rfl
@[simp] theorem State.setPart_recent (p : Part) : (s.setPart p).recent = s.recent := rfl
@[simp] theorem State.setPart_views (p : Part) : (s.setPart p).views = s.views := rfl
@[simp] theorem State.setPart_tlb (p : Part) : (s.setPart p).tlb = s.tlb := rfl
@[simp] theorem State.setPart_ptrs (p : Part) : (s.setPart p).ptrs = s.ptrs := rfl
@[simp] theorem State.setPart_walks (p : Part) : (s.setPart p).walks = s.walks := rfl
@[simp] theorem State.setPart_frames (p : Part) : (s.setPart p).frames = s.frames := rfl
@[simp] theorem State.setPart_sentRels (p : Part) : (s.setPart p).sentRels = s.sentRels := rfl
@[simp] theorem State.setPart_givenUp (p : Part) : (s.setPart p).givenUp = s.givenUp := rfl
@[simp] theorem State.setPart_sealedAt (p : Part) : (s.setPart p).sealedAt = s.sealedAt := rfl
@[simp] theorem State.setPart_invs (p : Part) : (s.setPart p).invs = s.invs := rfl
@[simp] theorem State.setPart_cells (p : Part) : (s.setPart p).cells = s.cells := rfl
@[simp] theorem State.setPart_waits (p : Part) : (s.setPart p).waits = s.waits := rfl
@[simp] theorem State.setPart_wakes (p : Part) : (s.setPart p).wakes = s.wakes := rfl
@[simp] theorem State.setPart_posts (p : Part) : (s.setPart p).posts = s.posts := rfl
@[simp] theorem State.setPart_jobs (p : Part) : (s.setPart p).jobs = s.jobs := rfl
@[simp] theorem State.setPart_versions (p : Part) : (s.setPart p).versions = s.versions := rfl
@[simp] theorem State.setPart_groups (p : Part) : (s.setPart p).groups = s.groups := rfl
@[simp] theorem State.setPart_records (p : Part) : (s.setPart p).records = s.records := rfl
@[simp] theorem State.setPart_slices (p : Part) : (s.setPart p).slices = s.slices := rfl
@[simp] theorem State.setPart_turns (p : Part) : (s.setPart p).turns = s.turns := rfl
@[simp] theorem State.setPart_sites (p : Part) : (s.setPart p).sites = s.sites := rfl
@[simp] theorem State.setPart_hmap (p : Part) : (s.setPart p).hmap = s.hmap := rfl
@[simp] theorem State.setPart_vbnd (p : Part) : (s.setPart p).vbnd = s.vbnd := rfl
@[simp] theorem State.setPart_ports (p : Part) : (s.setPart p).ports = s.ports := rfl
@[simp] theorem State.setPart_peers (p : Part) : (s.setPart p).peers = s.peers := rfl
@[simp] theorem State.setPart_bounds (p : Part) : (s.setPart p).bounds = s.bounds := rfl
@[simp] theorem State.setPart_bridge (p : Part) : (s.setPart p).bridge = s.bridge := rfl
@[simp] theorem State.setPart_mill (p : Part) : (s.setPart p).mill = s.mill := rfl
@[simp] theorem State.setPart_out (p : Part) : (s.setPart p).out = s.out := rfl
@[simp] theorem State.setPart_mid (p : Part) : (s.setPart p).mid = s.mid := rfl
@[simp] theorem State.setPart_inc (p : Part) : (s.setPart p).inc = s.inc := rfl
@[simp] theorem State.setPart_lostt (p : Part) : (s.setPart p).lostt = s.lostt := rfl
@[simp] theorem State.setPart_firmware (p : Part) : (s.setPart p).firmware = s.firmware := rfl
@[simp] theorem State.setPart_clk (p : Part) : (s.setPart p).clk = s.clk := rfl
@[simp] theorem State.setPart_agenda (p : Part) : (s.setPart p).agenda = s.agenda := rfl
@[simp] theorem State.setPart_opnd (p : Part) : (s.setPart p).opnd = s.opnd := rfl
@[simp] theorem State.setPart_last (p : Part) : (s.setPart p).last = s.last := rfl
@[simp] theorem State.setPart_fresh (p : Part) : (s.setPart p).fresh = s.fresh := rfl

@[simp] theorem State.updPart_cur (c : Nat) (f : Part → Part) : (s.updPart c f).cur = s.cur := rfl
@[simp] theorem State.updPart_others (c : Nat) (f : Part → Part) : (s.updPart c f).others = s.others := rfl
@[simp] theorem State.updPart_cores (c : Nat) (f : Part → Part) : (s.updPart c f).cores = s.cores := rfl
@[simp] theorem State.updPart_mem (c : Nat) (f : Part → Part) : (s.updPart c f).mem = s.mem := rfl
@[simp] theorem State.updPart_keys (c : Nat) (f : Part → Part) : (s.updPart c f).keys = s.keys := rfl
@[simp] theorem State.updPart_badLines (c : Nat) (f : Part → Part) : (s.updPart c f).badLines = s.badLines := rfl
@[simp] theorem State.updPart_scribbled (c : Nat) (f : Part → Part) : (s.updPart c f).scribbled = s.scribbled := rfl
@[simp] theorem State.updPart_net (c : Nat) (f : Part → Part) : (s.updPart c f).net = s.net := rfl
@[simp] theorem State.updPart_recent (c : Nat) (f : Part → Part) : (s.updPart c f).recent = s.recent := rfl
@[simp] theorem State.updPart_views (c : Nat) (f : Part → Part) : (s.updPart c f).views = s.views := rfl
@[simp] theorem State.updPart_tlb (c : Nat) (f : Part → Part) : (s.updPart c f).tlb = s.tlb := rfl
@[simp] theorem State.updPart_ptrs (c : Nat) (f : Part → Part) : (s.updPart c f).ptrs = s.ptrs := rfl
@[simp] theorem State.updPart_walks (c : Nat) (f : Part → Part) : (s.updPart c f).walks = s.walks := rfl
@[simp] theorem State.updPart_frames (c : Nat) (f : Part → Part) : (s.updPart c f).frames = s.frames := rfl
@[simp] theorem State.updPart_sentRels (c : Nat) (f : Part → Part) : (s.updPart c f).sentRels = s.sentRels := rfl
@[simp] theorem State.updPart_givenUp (c : Nat) (f : Part → Part) : (s.updPart c f).givenUp = s.givenUp := rfl
@[simp] theorem State.updPart_sealedAt (c : Nat) (f : Part → Part) : (s.updPart c f).sealedAt = s.sealedAt := rfl
@[simp] theorem State.updPart_invs (c : Nat) (f : Part → Part) : (s.updPart c f).invs = s.invs := rfl
@[simp] theorem State.updPart_cells (c : Nat) (f : Part → Part) : (s.updPart c f).cells = s.cells := rfl
@[simp] theorem State.updPart_waits (c : Nat) (f : Part → Part) : (s.updPart c f).waits = s.waits := rfl
@[simp] theorem State.updPart_wakes (c : Nat) (f : Part → Part) : (s.updPart c f).wakes = s.wakes := rfl
@[simp] theorem State.updPart_posts (c : Nat) (f : Part → Part) : (s.updPart c f).posts = s.posts := rfl
@[simp] theorem State.updPart_jobs (c : Nat) (f : Part → Part) : (s.updPart c f).jobs = s.jobs := rfl
@[simp] theorem State.updPart_versions (c : Nat) (f : Part → Part) : (s.updPart c f).versions = s.versions := rfl
@[simp] theorem State.updPart_groups (c : Nat) (f : Part → Part) : (s.updPart c f).groups = s.groups := rfl
@[simp] theorem State.updPart_records (c : Nat) (f : Part → Part) : (s.updPart c f).records = s.records := rfl
@[simp] theorem State.updPart_slices (c : Nat) (f : Part → Part) : (s.updPart c f).slices = s.slices := rfl
@[simp] theorem State.updPart_turns (c : Nat) (f : Part → Part) : (s.updPart c f).turns = s.turns := rfl
@[simp] theorem State.updPart_sites (c : Nat) (f : Part → Part) : (s.updPart c f).sites = s.sites := rfl
@[simp] theorem State.updPart_hmap (c : Nat) (f : Part → Part) : (s.updPart c f).hmap = s.hmap := rfl
@[simp] theorem State.updPart_vbnd (c : Nat) (f : Part → Part) : (s.updPart c f).vbnd = s.vbnd := rfl
@[simp] theorem State.updPart_ports (c : Nat) (f : Part → Part) : (s.updPart c f).ports = s.ports := rfl
@[simp] theorem State.updPart_peers (c : Nat) (f : Part → Part) : (s.updPart c f).peers = s.peers := rfl
@[simp] theorem State.updPart_bounds (c : Nat) (f : Part → Part) : (s.updPart c f).bounds = s.bounds := rfl
@[simp] theorem State.updPart_bridge (c : Nat) (f : Part → Part) : (s.updPart c f).bridge = s.bridge := rfl
@[simp] theorem State.updPart_mill (c : Nat) (f : Part → Part) : (s.updPart c f).mill = s.mill := rfl
@[simp] theorem State.updPart_out (c : Nat) (f : Part → Part) : (s.updPart c f).out = s.out := rfl
@[simp] theorem State.updPart_mid (c : Nat) (f : Part → Part) : (s.updPart c f).mid = s.mid := rfl
@[simp] theorem State.updPart_inc (c : Nat) (f : Part → Part) : (s.updPart c f).inc = s.inc := rfl
@[simp] theorem State.updPart_lostt (c : Nat) (f : Part → Part) : (s.updPart c f).lostt = s.lostt := rfl
@[simp] theorem State.updPart_firmware (c : Nat) (f : Part → Part) : (s.updPart c f).firmware = s.firmware := rfl
@[simp] theorem State.updPart_clk (c : Nat) (f : Part → Part) : (s.updPart c f).clk = s.clk := rfl
@[simp] theorem State.updPart_agenda (c : Nat) (f : Part → Part) : (s.updPart c f).agenda = s.agenda := rfl
@[simp] theorem State.updPart_opnd (c : Nat) (f : Part → Part) : (s.updPart c f).opnd = s.opnd := rfl
@[simp] theorem State.updPart_last (c : Nat) (f : Part → Part) : (s.updPart c f).last = s.last := rfl
@[simp] theorem State.updPart_fresh (c : Nat) (f : Part → Part) : (s.updPart c f).fresh = s.fresh := rfl

@[simp] theorem State.updGroup_cur (i : GroupId) (f : Group → Group) : (s.updGroup i f).cur = s.cur := rfl
@[simp] theorem State.updGroup_others (i : GroupId) (f : Group → Group) : (s.updGroup i f).others = s.others := rfl
@[simp] theorem State.updGroup_cores (i : GroupId) (f : Group → Group) : (s.updGroup i f).cores = s.cores := rfl
@[simp] theorem State.updGroup_mem (i : GroupId) (f : Group → Group) : (s.updGroup i f).mem = s.mem := rfl
@[simp] theorem State.updGroup_keys (i : GroupId) (f : Group → Group) : (s.updGroup i f).keys = s.keys := rfl
@[simp] theorem State.updGroup_badLines (i : GroupId) (f : Group → Group) : (s.updGroup i f).badLines = s.badLines := rfl
@[simp] theorem State.updGroup_scribbled (i : GroupId) (f : Group → Group) : (s.updGroup i f).scribbled = s.scribbled := rfl
@[simp] theorem State.updGroup_net (i : GroupId) (f : Group → Group) : (s.updGroup i f).net = s.net := rfl
@[simp] theorem State.updGroup_recent (i : GroupId) (f : Group → Group) : (s.updGroup i f).recent = s.recent := rfl
@[simp] theorem State.updGroup_views (i : GroupId) (f : Group → Group) : (s.updGroup i f).views = s.views := rfl
@[simp] theorem State.updGroup_tlb (i : GroupId) (f : Group → Group) : (s.updGroup i f).tlb = s.tlb := rfl
@[simp] theorem State.updGroup_ptrs (i : GroupId) (f : Group → Group) : (s.updGroup i f).ptrs = s.ptrs := rfl
@[simp] theorem State.updGroup_walks (i : GroupId) (f : Group → Group) : (s.updGroup i f).walks = s.walks := rfl
@[simp] theorem State.updGroup_frames (i : GroupId) (f : Group → Group) : (s.updGroup i f).frames = s.frames := rfl
@[simp] theorem State.updGroup_sentRels (i : GroupId) (f : Group → Group) : (s.updGroup i f).sentRels = s.sentRels := rfl
@[simp] theorem State.updGroup_givenUp (i : GroupId) (f : Group → Group) : (s.updGroup i f).givenUp = s.givenUp := rfl
@[simp] theorem State.updGroup_sealedAt (i : GroupId) (f : Group → Group) : (s.updGroup i f).sealedAt = s.sealedAt := rfl
@[simp] theorem State.updGroup_invs (i : GroupId) (f : Group → Group) : (s.updGroup i f).invs = s.invs := rfl
@[simp] theorem State.updGroup_cells (i : GroupId) (f : Group → Group) : (s.updGroup i f).cells = s.cells := rfl
@[simp] theorem State.updGroup_waits (i : GroupId) (f : Group → Group) : (s.updGroup i f).waits = s.waits := rfl
@[simp] theorem State.updGroup_wakes (i : GroupId) (f : Group → Group) : (s.updGroup i f).wakes = s.wakes := rfl
@[simp] theorem State.updGroup_posts (i : GroupId) (f : Group → Group) : (s.updGroup i f).posts = s.posts := rfl
@[simp] theorem State.updGroup_jobs (i : GroupId) (f : Group → Group) : (s.updGroup i f).jobs = s.jobs := rfl
@[simp] theorem State.updGroup_versions (i : GroupId) (f : Group → Group) : (s.updGroup i f).versions = s.versions := rfl
@[simp] theorem State.updGroup_parts (i : GroupId) (f : Group → Group) : (s.updGroup i f).parts = s.parts := rfl
@[simp] theorem State.updGroup_records (i : GroupId) (f : Group → Group) : (s.updGroup i f).records = s.records := rfl
@[simp] theorem State.updGroup_slices (i : GroupId) (f : Group → Group) : (s.updGroup i f).slices = s.slices := rfl
@[simp] theorem State.updGroup_turns (i : GroupId) (f : Group → Group) : (s.updGroup i f).turns = s.turns := rfl
@[simp] theorem State.updGroup_sites (i : GroupId) (f : Group → Group) : (s.updGroup i f).sites = s.sites := rfl
@[simp] theorem State.updGroup_hmap (i : GroupId) (f : Group → Group) : (s.updGroup i f).hmap = s.hmap := rfl
@[simp] theorem State.updGroup_vbnd (i : GroupId) (f : Group → Group) : (s.updGroup i f).vbnd = s.vbnd := rfl
@[simp] theorem State.updGroup_ports (i : GroupId) (f : Group → Group) : (s.updGroup i f).ports = s.ports := rfl
@[simp] theorem State.updGroup_peers (i : GroupId) (f : Group → Group) : (s.updGroup i f).peers = s.peers := rfl
@[simp] theorem State.updGroup_bounds (i : GroupId) (f : Group → Group) : (s.updGroup i f).bounds = s.bounds := rfl
@[simp] theorem State.updGroup_bridge (i : GroupId) (f : Group → Group) : (s.updGroup i f).bridge = s.bridge := rfl
@[simp] theorem State.updGroup_mill (i : GroupId) (f : Group → Group) : (s.updGroup i f).mill = s.mill := rfl
@[simp] theorem State.updGroup_out (i : GroupId) (f : Group → Group) : (s.updGroup i f).out = s.out := rfl
@[simp] theorem State.updGroup_mid (i : GroupId) (f : Group → Group) : (s.updGroup i f).mid = s.mid := rfl
@[simp] theorem State.updGroup_inc (i : GroupId) (f : Group → Group) : (s.updGroup i f).inc = s.inc := rfl
@[simp] theorem State.updGroup_lostt (i : GroupId) (f : Group → Group) : (s.updGroup i f).lostt = s.lostt := rfl
@[simp] theorem State.updGroup_firmware (i : GroupId) (f : Group → Group) : (s.updGroup i f).firmware = s.firmware := rfl
@[simp] theorem State.updGroup_clk (i : GroupId) (f : Group → Group) : (s.updGroup i f).clk = s.clk := rfl
@[simp] theorem State.updGroup_agenda (i : GroupId) (f : Group → Group) : (s.updGroup i f).agenda = s.agenda := rfl
@[simp] theorem State.updGroup_opnd (i : GroupId) (f : Group → Group) : (s.updGroup i f).opnd = s.opnd := rfl
@[simp] theorem State.updGroup_last (i : GroupId) (f : Group → Group) : (s.updGroup i f).last = s.last := rfl
@[simp] theorem State.updGroup_fresh (i : GroupId) (f : Group → Group) : (s.updGroup i f).fresh = s.fresh := rfl

@[simp] theorem State.setGranule_cur (g : Granule) : (s.setGranule g).cur = s.cur := rfl
@[simp] theorem State.setGranule_others (g : Granule) : (s.setGranule g).others = s.others := rfl
@[simp] theorem State.setGranule_cores (g : Granule) : (s.setGranule g).cores = s.cores := rfl
@[simp] theorem State.setGranule_mem (g : Granule) : (s.setGranule g).mem = s.mem := rfl
@[simp] theorem State.setGranule_keys (g : Granule) : (s.setGranule g).keys = s.keys := rfl
@[simp] theorem State.setGranule_badLines (g : Granule) : (s.setGranule g).badLines = s.badLines := rfl
@[simp] theorem State.setGranule_scribbled (g : Granule) : (s.setGranule g).scribbled = s.scribbled := rfl
@[simp] theorem State.setGranule_net (g : Granule) : (s.setGranule g).net = s.net := rfl
@[simp] theorem State.setGranule_recent (g : Granule) : (s.setGranule g).recent = s.recent := rfl
@[simp] theorem State.setGranule_views (g : Granule) : (s.setGranule g).views = s.views := rfl
@[simp] theorem State.setGranule_tlb (g : Granule) : (s.setGranule g).tlb = s.tlb := rfl
@[simp] theorem State.setGranule_ptrs (g : Granule) : (s.setGranule g).ptrs = s.ptrs := rfl
@[simp] theorem State.setGranule_walks (g : Granule) : (s.setGranule g).walks = s.walks := rfl
@[simp] theorem State.setGranule_frames (g : Granule) : (s.setGranule g).frames = s.frames := rfl
@[simp] theorem State.setGranule_sentRels (g : Granule) : (s.setGranule g).sentRels = s.sentRels := rfl
@[simp] theorem State.setGranule_givenUp (g : Granule) : (s.setGranule g).givenUp = s.givenUp := rfl
@[simp] theorem State.setGranule_sealedAt (g : Granule) : (s.setGranule g).sealedAt = s.sealedAt := rfl
@[simp] theorem State.setGranule_invs (g : Granule) : (s.setGranule g).invs = s.invs := rfl
@[simp] theorem State.setGranule_waits (g : Granule) : (s.setGranule g).waits = s.waits := rfl
@[simp] theorem State.setGranule_wakes (g : Granule) : (s.setGranule g).wakes = s.wakes := rfl
@[simp] theorem State.setGranule_posts (g : Granule) : (s.setGranule g).posts = s.posts := rfl
@[simp] theorem State.setGranule_jobs (g : Granule) : (s.setGranule g).jobs = s.jobs := rfl
@[simp] theorem State.setGranule_versions (g : Granule) : (s.setGranule g).versions = s.versions := rfl
@[simp] theorem State.setGranule_parts (g : Granule) : (s.setGranule g).parts = s.parts := rfl
@[simp] theorem State.setGranule_groups (g : Granule) : (s.setGranule g).groups = s.groups := rfl
@[simp] theorem State.setGranule_records (g : Granule) : (s.setGranule g).records = s.records := rfl
@[simp] theorem State.setGranule_slices (g : Granule) : (s.setGranule g).slices = s.slices := rfl
@[simp] theorem State.setGranule_turns (g : Granule) : (s.setGranule g).turns = s.turns := rfl
@[simp] theorem State.setGranule_sites (g : Granule) : (s.setGranule g).sites = s.sites := rfl
@[simp] theorem State.setGranule_hmap (g : Granule) : (s.setGranule g).hmap = s.hmap := rfl
@[simp] theorem State.setGranule_vbnd (g : Granule) : (s.setGranule g).vbnd = s.vbnd := rfl
@[simp] theorem State.setGranule_ports (g : Granule) : (s.setGranule g).ports = s.ports := rfl
@[simp] theorem State.setGranule_peers (g : Granule) : (s.setGranule g).peers = s.peers := rfl
@[simp] theorem State.setGranule_bounds (g : Granule) : (s.setGranule g).bounds = s.bounds := rfl
@[simp] theorem State.setGranule_bridge (g : Granule) : (s.setGranule g).bridge = s.bridge := rfl
@[simp] theorem State.setGranule_mill (g : Granule) : (s.setGranule g).mill = s.mill := rfl
@[simp] theorem State.setGranule_out (g : Granule) : (s.setGranule g).out = s.out := rfl
@[simp] theorem State.setGranule_mid (g : Granule) : (s.setGranule g).mid = s.mid := rfl
@[simp] theorem State.setGranule_inc (g : Granule) : (s.setGranule g).inc = s.inc := rfl
@[simp] theorem State.setGranule_lostt (g : Granule) : (s.setGranule g).lostt = s.lostt := rfl
@[simp] theorem State.setGranule_firmware (g : Granule) : (s.setGranule g).firmware = s.firmware := rfl
@[simp] theorem State.setGranule_clk (g : Granule) : (s.setGranule g).clk = s.clk := rfl
@[simp] theorem State.setGranule_agenda (g : Granule) : (s.setGranule g).agenda = s.agenda := rfl
@[simp] theorem State.setGranule_opnd (g : Granule) : (s.setGranule g).opnd = s.opnd := rfl
@[simp] theorem State.setGranule_last (g : Granule) : (s.setGranule g).last = s.last := rfl
@[simp] theorem State.setGranule_fresh (g : Granule) : (s.setGranule g).fresh = s.fresh := rfl

@[simp] theorem State.setSlice_cur (x : Slice) : (s.setSlice x).cur = s.cur := rfl
@[simp] theorem State.setSlice_others (x : Slice) : (s.setSlice x).others = s.others := rfl
@[simp] theorem State.setSlice_cores (x : Slice) : (s.setSlice x).cores = s.cores := rfl
@[simp] theorem State.setSlice_mem (x : Slice) : (s.setSlice x).mem = s.mem := rfl
@[simp] theorem State.setSlice_keys (x : Slice) : (s.setSlice x).keys = s.keys := rfl
@[simp] theorem State.setSlice_badLines (x : Slice) : (s.setSlice x).badLines = s.badLines := rfl
@[simp] theorem State.setSlice_scribbled (x : Slice) : (s.setSlice x).scribbled = s.scribbled := rfl
@[simp] theorem State.setSlice_net (x : Slice) : (s.setSlice x).net = s.net := rfl
@[simp] theorem State.setSlice_recent (x : Slice) : (s.setSlice x).recent = s.recent := rfl
@[simp] theorem State.setSlice_views (x : Slice) : (s.setSlice x).views = s.views := rfl
@[simp] theorem State.setSlice_tlb (x : Slice) : (s.setSlice x).tlb = s.tlb := rfl
@[simp] theorem State.setSlice_ptrs (x : Slice) : (s.setSlice x).ptrs = s.ptrs := rfl
@[simp] theorem State.setSlice_walks (x : Slice) : (s.setSlice x).walks = s.walks := rfl
@[simp] theorem State.setSlice_frames (x : Slice) : (s.setSlice x).frames = s.frames := rfl
@[simp] theorem State.setSlice_sentRels (x : Slice) : (s.setSlice x).sentRels = s.sentRels := rfl
@[simp] theorem State.setSlice_givenUp (x : Slice) : (s.setSlice x).givenUp = s.givenUp := rfl
@[simp] theorem State.setSlice_sealedAt (x : Slice) : (s.setSlice x).sealedAt = s.sealedAt := rfl
@[simp] theorem State.setSlice_invs (x : Slice) : (s.setSlice x).invs = s.invs := rfl
@[simp] theorem State.setSlice_cells (x : Slice) : (s.setSlice x).cells = s.cells := rfl
@[simp] theorem State.setSlice_waits (x : Slice) : (s.setSlice x).waits = s.waits := rfl
@[simp] theorem State.setSlice_wakes (x : Slice) : (s.setSlice x).wakes = s.wakes := rfl
@[simp] theorem State.setSlice_posts (x : Slice) : (s.setSlice x).posts = s.posts := rfl
@[simp] theorem State.setSlice_jobs (x : Slice) : (s.setSlice x).jobs = s.jobs := rfl
@[simp] theorem State.setSlice_versions (x : Slice) : (s.setSlice x).versions = s.versions := rfl
@[simp] theorem State.setSlice_parts (x : Slice) : (s.setSlice x).parts = s.parts := rfl
@[simp] theorem State.setSlice_groups (x : Slice) : (s.setSlice x).groups = s.groups := rfl
@[simp] theorem State.setSlice_records (x : Slice) : (s.setSlice x).records = s.records := rfl
@[simp] theorem State.setSlice_turns (x : Slice) : (s.setSlice x).turns = s.turns := rfl
@[simp] theorem State.setSlice_sites (x : Slice) : (s.setSlice x).sites = s.sites := rfl
@[simp] theorem State.setSlice_hmap (x : Slice) : (s.setSlice x).hmap = s.hmap := rfl
@[simp] theorem State.setSlice_vbnd (x : Slice) : (s.setSlice x).vbnd = s.vbnd := rfl
@[simp] theorem State.setSlice_ports (x : Slice) : (s.setSlice x).ports = s.ports := rfl
@[simp] theorem State.setSlice_peers (x : Slice) : (s.setSlice x).peers = s.peers := rfl
@[simp] theorem State.setSlice_bounds (x : Slice) : (s.setSlice x).bounds = s.bounds := rfl
@[simp] theorem State.setSlice_bridge (x : Slice) : (s.setSlice x).bridge = s.bridge := rfl
@[simp] theorem State.setSlice_mill (x : Slice) : (s.setSlice x).mill = s.mill := rfl
@[simp] theorem State.setSlice_out (x : Slice) : (s.setSlice x).out = s.out := rfl
@[simp] theorem State.setSlice_mid (x : Slice) : (s.setSlice x).mid = s.mid := rfl
@[simp] theorem State.setSlice_inc (x : Slice) : (s.setSlice x).inc = s.inc := rfl
@[simp] theorem State.setSlice_lostt (x : Slice) : (s.setSlice x).lostt = s.lostt := rfl
@[simp] theorem State.setSlice_firmware (x : Slice) : (s.setSlice x).firmware = s.firmware := rfl
@[simp] theorem State.setSlice_clk (x : Slice) : (s.setSlice x).clk = s.clk := rfl
@[simp] theorem State.setSlice_agenda (x : Slice) : (s.setSlice x).agenda = s.agenda := rfl
@[simp] theorem State.setSlice_opnd (x : Slice) : (s.setSlice x).opnd = s.opnd := rfl
@[simp] theorem State.setSlice_last (x : Slice) : (s.setSlice x).last = s.last := rfl
@[simp] theorem State.setSlice_fresh (x : Slice) : (s.setSlice x).fresh = s.fresh := rfl

@[simp] theorem State.setSite_cur (x : Site) : (s.setSite x).cur = s.cur := rfl
@[simp] theorem State.setSite_others (x : Site) : (s.setSite x).others = s.others := rfl
@[simp] theorem State.setSite_cores (x : Site) : (s.setSite x).cores = s.cores := rfl
@[simp] theorem State.setSite_mem (x : Site) : (s.setSite x).mem = s.mem := rfl
@[simp] theorem State.setSite_keys (x : Site) : (s.setSite x).keys = s.keys := rfl
@[simp] theorem State.setSite_badLines (x : Site) : (s.setSite x).badLines = s.badLines := rfl
@[simp] theorem State.setSite_scribbled (x : Site) : (s.setSite x).scribbled = s.scribbled := rfl
@[simp] theorem State.setSite_net (x : Site) : (s.setSite x).net = s.net := rfl
@[simp] theorem State.setSite_recent (x : Site) : (s.setSite x).recent = s.recent := rfl
@[simp] theorem State.setSite_views (x : Site) : (s.setSite x).views = s.views := rfl
@[simp] theorem State.setSite_tlb (x : Site) : (s.setSite x).tlb = s.tlb := rfl
@[simp] theorem State.setSite_ptrs (x : Site) : (s.setSite x).ptrs = s.ptrs := rfl
@[simp] theorem State.setSite_walks (x : Site) : (s.setSite x).walks = s.walks := rfl
@[simp] theorem State.setSite_frames (x : Site) : (s.setSite x).frames = s.frames := rfl
@[simp] theorem State.setSite_sentRels (x : Site) : (s.setSite x).sentRels = s.sentRels := rfl
@[simp] theorem State.setSite_givenUp (x : Site) : (s.setSite x).givenUp = s.givenUp := rfl
@[simp] theorem State.setSite_sealedAt (x : Site) : (s.setSite x).sealedAt = s.sealedAt := rfl
@[simp] theorem State.setSite_invs (x : Site) : (s.setSite x).invs = s.invs := rfl
@[simp] theorem State.setSite_cells (x : Site) : (s.setSite x).cells = s.cells := rfl
@[simp] theorem State.setSite_waits (x : Site) : (s.setSite x).waits = s.waits := rfl
@[simp] theorem State.setSite_wakes (x : Site) : (s.setSite x).wakes = s.wakes := rfl
@[simp] theorem State.setSite_posts (x : Site) : (s.setSite x).posts = s.posts := rfl
@[simp] theorem State.setSite_jobs (x : Site) : (s.setSite x).jobs = s.jobs := rfl
@[simp] theorem State.setSite_versions (x : Site) : (s.setSite x).versions = s.versions := rfl
@[simp] theorem State.setSite_parts (x : Site) : (s.setSite x).parts = s.parts := rfl
@[simp] theorem State.setSite_groups (x : Site) : (s.setSite x).groups = s.groups := rfl
@[simp] theorem State.setSite_records (x : Site) : (s.setSite x).records = s.records := rfl
@[simp] theorem State.setSite_slices (x : Site) : (s.setSite x).slices = s.slices := rfl
@[simp] theorem State.setSite_turns (x : Site) : (s.setSite x).turns = s.turns := rfl
@[simp] theorem State.setSite_hmap (x : Site) : (s.setSite x).hmap = s.hmap := rfl
@[simp] theorem State.setSite_vbnd (x : Site) : (s.setSite x).vbnd = s.vbnd := rfl
@[simp] theorem State.setSite_ports (x : Site) : (s.setSite x).ports = s.ports := rfl
@[simp] theorem State.setSite_peers (x : Site) : (s.setSite x).peers = s.peers := rfl
@[simp] theorem State.setSite_bounds (x : Site) : (s.setSite x).bounds = s.bounds := rfl
@[simp] theorem State.setSite_bridge (x : Site) : (s.setSite x).bridge = s.bridge := rfl
@[simp] theorem State.setSite_mill (x : Site) : (s.setSite x).mill = s.mill := rfl
@[simp] theorem State.setSite_out (x : Site) : (s.setSite x).out = s.out := rfl
@[simp] theorem State.setSite_mid (x : Site) : (s.setSite x).mid = s.mid := rfl
@[simp] theorem State.setSite_inc (x : Site) : (s.setSite x).inc = s.inc := rfl
@[simp] theorem State.setSite_lostt (x : Site) : (s.setSite x).lostt = s.lostt := rfl
@[simp] theorem State.setSite_firmware (x : Site) : (s.setSite x).firmware = s.firmware := rfl
@[simp] theorem State.setSite_clk (x : Site) : (s.setSite x).clk = s.clk := rfl
@[simp] theorem State.setSite_agenda (x : Site) : (s.setSite x).agenda = s.agenda := rfl
@[simp] theorem State.setSite_opnd (x : Site) : (s.setSite x).opnd = s.opnd := rfl
@[simp] theorem State.setSite_last (x : Site) : (s.setSite x).last = s.last := rfl
@[simp] theorem State.setSite_fresh (x : Site) : (s.setSite x).fresh = s.fresh := rfl

@[simp] theorem State.scrivener_cur (a k : Nat) (c : Byte) (i p : Nat) (l : BitVec 32) (d : Word64) (n : BitVec 32) : (s.scrivener a k c i p l d n).cur = s.cur := rfl
@[simp] theorem State.scrivener_others (a k : Nat) (c : Byte) (i p : Nat) (l : BitVec 32) (d : Word64) (n : BitVec 32) : (s.scrivener a k c i p l d n).others = s.others := rfl
@[simp] theorem State.scrivener_cores (a k : Nat) (c : Byte) (i p : Nat) (l : BitVec 32) (d : Word64) (n : BitVec 32) : (s.scrivener a k c i p l d n).cores = s.cores := rfl
@[simp] theorem State.scrivener_mem (a k : Nat) (c : Byte) (i p : Nat) (l : BitVec 32) (d : Word64) (n : BitVec 32) : (s.scrivener a k c i p l d n).mem = s.mem := rfl
@[simp] theorem State.scrivener_keys (a k : Nat) (c : Byte) (i p : Nat) (l : BitVec 32) (d : Word64) (n : BitVec 32) : (s.scrivener a k c i p l d n).keys = s.keys := rfl
@[simp] theorem State.scrivener_badLines (a k : Nat) (c : Byte) (i p : Nat) (l : BitVec 32) (d : Word64) (n : BitVec 32) : (s.scrivener a k c i p l d n).badLines = s.badLines := rfl
@[simp] theorem State.scrivener_scribbled (a k : Nat) (c : Byte) (i p : Nat) (l : BitVec 32) (d : Word64) (n : BitVec 32) : (s.scrivener a k c i p l d n).scribbled = s.scribbled := rfl
@[simp] theorem State.scrivener_net (a k : Nat) (c : Byte) (i p : Nat) (l : BitVec 32) (d : Word64) (n : BitVec 32) : (s.scrivener a k c i p l d n).net = s.net := rfl
@[simp] theorem State.scrivener_recent (a k : Nat) (c : Byte) (i p : Nat) (l : BitVec 32) (d : Word64) (n : BitVec 32) : (s.scrivener a k c i p l d n).recent = s.recent := rfl
@[simp] theorem State.scrivener_views (a k : Nat) (c : Byte) (i p : Nat) (l : BitVec 32) (d : Word64) (n : BitVec 32) : (s.scrivener a k c i p l d n).views = s.views := rfl
@[simp] theorem State.scrivener_tlb (a k : Nat) (c : Byte) (i p : Nat) (l : BitVec 32) (d : Word64) (n : BitVec 32) : (s.scrivener a k c i p l d n).tlb = s.tlb := rfl
@[simp] theorem State.scrivener_ptrs (a k : Nat) (c : Byte) (i p : Nat) (l : BitVec 32) (d : Word64) (n : BitVec 32) : (s.scrivener a k c i p l d n).ptrs = s.ptrs := rfl
@[simp] theorem State.scrivener_walks (a k : Nat) (c : Byte) (i p : Nat) (l : BitVec 32) (d : Word64) (n : BitVec 32) : (s.scrivener a k c i p l d n).walks = s.walks := rfl
@[simp] theorem State.scrivener_frames (a k : Nat) (c : Byte) (i p : Nat) (l : BitVec 32) (d : Word64) (n : BitVec 32) : (s.scrivener a k c i p l d n).frames = s.frames := rfl
@[simp] theorem State.scrivener_sentRels (a k : Nat) (c : Byte) (i p : Nat) (l : BitVec 32) (d : Word64) (n : BitVec 32) : (s.scrivener a k c i p l d n).sentRels = s.sentRels := rfl
@[simp] theorem State.scrivener_givenUp (a k : Nat) (c : Byte) (i p : Nat) (l : BitVec 32) (d : Word64) (n : BitVec 32) : (s.scrivener a k c i p l d n).givenUp = s.givenUp := rfl
@[simp] theorem State.scrivener_sealedAt (a k : Nat) (c : Byte) (i p : Nat) (l : BitVec 32) (d : Word64) (n : BitVec 32) : (s.scrivener a k c i p l d n).sealedAt = s.sealedAt := rfl
@[simp] theorem State.scrivener_invs (a k : Nat) (c : Byte) (i p : Nat) (l : BitVec 32) (d : Word64) (n : BitVec 32) : (s.scrivener a k c i p l d n).invs = s.invs := rfl
@[simp] theorem State.scrivener_cells (a k : Nat) (c : Byte) (i p : Nat) (l : BitVec 32) (d : Word64) (n : BitVec 32) : (s.scrivener a k c i p l d n).cells = s.cells := rfl
@[simp] theorem State.scrivener_waits (a k : Nat) (c : Byte) (i p : Nat) (l : BitVec 32) (d : Word64) (n : BitVec 32) : (s.scrivener a k c i p l d n).waits = s.waits := rfl
@[simp] theorem State.scrivener_wakes (a k : Nat) (c : Byte) (i p : Nat) (l : BitVec 32) (d : Word64) (n : BitVec 32) : (s.scrivener a k c i p l d n).wakes = s.wakes := rfl
@[simp] theorem State.scrivener_posts (a k : Nat) (c : Byte) (i p : Nat) (l : BitVec 32) (d : Word64) (n : BitVec 32) : (s.scrivener a k c i p l d n).posts = s.posts := rfl
@[simp] theorem State.scrivener_jobs (a k : Nat) (c : Byte) (i p : Nat) (l : BitVec 32) (d : Word64) (n : BitVec 32) : (s.scrivener a k c i p l d n).jobs = s.jobs := rfl
@[simp] theorem State.scrivener_versions (a k : Nat) (c : Byte) (i p : Nat) (l : BitVec 32) (d : Word64) (n : BitVec 32) : (s.scrivener a k c i p l d n).versions = s.versions := rfl
@[simp] theorem State.scrivener_parts (a k : Nat) (c : Byte) (i p : Nat) (l : BitVec 32) (d : Word64) (n : BitVec 32) : (s.scrivener a k c i p l d n).parts = s.parts := rfl
@[simp] theorem State.scrivener_groups (a k : Nat) (c : Byte) (i p : Nat) (l : BitVec 32) (d : Word64) (n : BitVec 32) : (s.scrivener a k c i p l d n).groups = s.groups := rfl
@[simp] theorem State.scrivener_records (a k : Nat) (c : Byte) (i p : Nat) (l : BitVec 32) (d : Word64) (n : BitVec 32) : (s.scrivener a k c i p l d n).records = s.records := rfl
@[simp] theorem State.scrivener_slices (a k : Nat) (c : Byte) (i p : Nat) (l : BitVec 32) (d : Word64) (n : BitVec 32) : (s.scrivener a k c i p l d n).slices = s.slices := rfl
@[simp] theorem State.scrivener_turns (a k : Nat) (c : Byte) (i p : Nat) (l : BitVec 32) (d : Word64) (n : BitVec 32) : (s.scrivener a k c i p l d n).turns = s.turns := rfl
@[simp] theorem State.scrivener_hmap (a k : Nat) (c : Byte) (i p : Nat) (l : BitVec 32) (d : Word64) (n : BitVec 32) : (s.scrivener a k c i p l d n).hmap = s.hmap := rfl
@[simp] theorem State.scrivener_vbnd (a k : Nat) (c : Byte) (i p : Nat) (l : BitVec 32) (d : Word64) (n : BitVec 32) : (s.scrivener a k c i p l d n).vbnd = s.vbnd := rfl
@[simp] theorem State.scrivener_ports (a k : Nat) (c : Byte) (i p : Nat) (l : BitVec 32) (d : Word64) (n : BitVec 32) : (s.scrivener a k c i p l d n).ports = s.ports := rfl
@[simp] theorem State.scrivener_peers (a k : Nat) (c : Byte) (i p : Nat) (l : BitVec 32) (d : Word64) (n : BitVec 32) : (s.scrivener a k c i p l d n).peers = s.peers := rfl
@[simp] theorem State.scrivener_bounds (a k : Nat) (c : Byte) (i p : Nat) (l : BitVec 32) (d : Word64) (n : BitVec 32) : (s.scrivener a k c i p l d n).bounds = s.bounds := rfl
@[simp] theorem State.scrivener_bridge (a k : Nat) (c : Byte) (i p : Nat) (l : BitVec 32) (d : Word64) (n : BitVec 32) : (s.scrivener a k c i p l d n).bridge = s.bridge := rfl
@[simp] theorem State.scrivener_mill (a k : Nat) (c : Byte) (i p : Nat) (l : BitVec 32) (d : Word64) (n : BitVec 32) : (s.scrivener a k c i p l d n).mill = s.mill := rfl
@[simp] theorem State.scrivener_out (a k : Nat) (c : Byte) (i p : Nat) (l : BitVec 32) (d : Word64) (n : BitVec 32) : (s.scrivener a k c i p l d n).out = s.out := rfl
@[simp] theorem State.scrivener_mid (a k : Nat) (c : Byte) (i p : Nat) (l : BitVec 32) (d : Word64) (n : BitVec 32) : (s.scrivener a k c i p l d n).mid = s.mid := rfl
@[simp] theorem State.scrivener_inc (a k : Nat) (c : Byte) (i p : Nat) (l : BitVec 32) (d : Word64) (n : BitVec 32) : (s.scrivener a k c i p l d n).inc = s.inc := rfl
@[simp] theorem State.scrivener_lostt (a k : Nat) (c : Byte) (i p : Nat) (l : BitVec 32) (d : Word64) (n : BitVec 32) : (s.scrivener a k c i p l d n).lostt = s.lostt := rfl
@[simp] theorem State.scrivener_firmware (a k : Nat) (c : Byte) (i p : Nat) (l : BitVec 32) (d : Word64) (n : BitVec 32) : (s.scrivener a k c i p l d n).firmware = s.firmware := rfl
@[simp] theorem State.scrivener_clk (a k : Nat) (c : Byte) (i p : Nat) (l : BitVec 32) (d : Word64) (n : BitVec 32) : (s.scrivener a k c i p l d n).clk = s.clk := rfl
@[simp] theorem State.scrivener_agenda (a k : Nat) (c : Byte) (i p : Nat) (l : BitVec 32) (d : Word64) (n : BitVec 32) : (s.scrivener a k c i p l d n).agenda = s.agenda := rfl
@[simp] theorem State.scrivener_opnd (a k : Nat) (c : Byte) (i p : Nat) (l : BitVec 32) (d : Word64) (n : BitVec 32) : (s.scrivener a k c i p l d n).opnd = s.opnd := rfl
@[simp] theorem State.scrivener_last (a k : Nat) (c : Byte) (i p : Nat) (l : BitVec 32) (d : Word64) (n : BitVec 32) : (s.scrivener a k c i p l d n).last = s.last := rfl
@[simp] theorem State.scrivener_fresh (a k : Nat) (c : Byte) (i p : Nat) (l : BitVec 32) (d : Word64) (n : BitVec 32) : (s.scrivener a k c i p l d n).fresh = s.fresh := rfl

@[simp] theorem State.setTurns_cur (x : Turns) : (s.setTurns x).cur = s.cur := rfl
@[simp] theorem State.setTurns_others (x : Turns) : (s.setTurns x).others = s.others := rfl
@[simp] theorem State.setTurns_cores (x : Turns) : (s.setTurns x).cores = s.cores := rfl
@[simp] theorem State.setTurns_mem (x : Turns) : (s.setTurns x).mem = s.mem := rfl
@[simp] theorem State.setTurns_keys (x : Turns) : (s.setTurns x).keys = s.keys := rfl
@[simp] theorem State.setTurns_badLines (x : Turns) : (s.setTurns x).badLines = s.badLines := rfl
@[simp] theorem State.setTurns_scribbled (x : Turns) : (s.setTurns x).scribbled = s.scribbled := rfl
@[simp] theorem State.setTurns_net (x : Turns) : (s.setTurns x).net = s.net := rfl
@[simp] theorem State.setTurns_recent (x : Turns) : (s.setTurns x).recent = s.recent := rfl
@[simp] theorem State.setTurns_views (x : Turns) : (s.setTurns x).views = s.views := rfl
@[simp] theorem State.setTurns_tlb (x : Turns) : (s.setTurns x).tlb = s.tlb := rfl
@[simp] theorem State.setTurns_ptrs (x : Turns) : (s.setTurns x).ptrs = s.ptrs := rfl
@[simp] theorem State.setTurns_walks (x : Turns) : (s.setTurns x).walks = s.walks := rfl
@[simp] theorem State.setTurns_frames (x : Turns) : (s.setTurns x).frames = s.frames := rfl
@[simp] theorem State.setTurns_sentRels (x : Turns) : (s.setTurns x).sentRels = s.sentRels := rfl
@[simp] theorem State.setTurns_givenUp (x : Turns) : (s.setTurns x).givenUp = s.givenUp := rfl
@[simp] theorem State.setTurns_sealedAt (x : Turns) : (s.setTurns x).sealedAt = s.sealedAt := rfl
@[simp] theorem State.setTurns_invs (x : Turns) : (s.setTurns x).invs = s.invs := rfl
@[simp] theorem State.setTurns_cells (x : Turns) : (s.setTurns x).cells = s.cells := rfl
@[simp] theorem State.setTurns_waits (x : Turns) : (s.setTurns x).waits = s.waits := rfl
@[simp] theorem State.setTurns_wakes (x : Turns) : (s.setTurns x).wakes = s.wakes := rfl
@[simp] theorem State.setTurns_posts (x : Turns) : (s.setTurns x).posts = s.posts := rfl
@[simp] theorem State.setTurns_jobs (x : Turns) : (s.setTurns x).jobs = s.jobs := rfl
@[simp] theorem State.setTurns_versions (x : Turns) : (s.setTurns x).versions = s.versions := rfl
@[simp] theorem State.setTurns_parts (x : Turns) : (s.setTurns x).parts = s.parts := rfl
@[simp] theorem State.setTurns_groups (x : Turns) : (s.setTurns x).groups = s.groups := rfl
@[simp] theorem State.setTurns_records (x : Turns) : (s.setTurns x).records = s.records := rfl
@[simp] theorem State.setTurns_slices (x : Turns) : (s.setTurns x).slices = s.slices := rfl
@[simp] theorem State.setTurns_sites (x : Turns) : (s.setTurns x).sites = s.sites := rfl
@[simp] theorem State.setTurns_hmap (x : Turns) : (s.setTurns x).hmap = s.hmap := rfl
@[simp] theorem State.setTurns_vbnd (x : Turns) : (s.setTurns x).vbnd = s.vbnd := rfl
@[simp] theorem State.setTurns_ports (x : Turns) : (s.setTurns x).ports = s.ports := rfl
@[simp] theorem State.setTurns_peers (x : Turns) : (s.setTurns x).peers = s.peers := rfl
@[simp] theorem State.setTurns_bounds (x : Turns) : (s.setTurns x).bounds = s.bounds := rfl
@[simp] theorem State.setTurns_bridge (x : Turns) : (s.setTurns x).bridge = s.bridge := rfl
@[simp] theorem State.setTurns_mill (x : Turns) : (s.setTurns x).mill = s.mill := rfl
@[simp] theorem State.setTurns_out (x : Turns) : (s.setTurns x).out = s.out := rfl
@[simp] theorem State.setTurns_mid (x : Turns) : (s.setTurns x).mid = s.mid := rfl
@[simp] theorem State.setTurns_inc (x : Turns) : (s.setTurns x).inc = s.inc := rfl
@[simp] theorem State.setTurns_lostt (x : Turns) : (s.setTurns x).lostt = s.lostt := rfl
@[simp] theorem State.setTurns_firmware (x : Turns) : (s.setTurns x).firmware = s.firmware := rfl
@[simp] theorem State.setTurns_clk (x : Turns) : (s.setTurns x).clk = s.clk := rfl
@[simp] theorem State.setTurns_agenda (x : Turns) : (s.setTurns x).agenda = s.agenda := rfl
@[simp] theorem State.setTurns_opnd (x : Turns) : (s.setTurns x).opnd = s.opnd := rfl
@[simp] theorem State.setTurns_last (x : Turns) : (s.setTurns x).last = s.last := rfl
@[simp] theorem State.setTurns_fresh (x : Turns) : (s.setTurns x).fresh = s.fresh := rfl

@[simp] theorem State.setPort_cur (p : Port) : (s.setPort p).cur = s.cur := rfl
@[simp] theorem State.setPort_others (p : Port) : (s.setPort p).others = s.others := rfl
@[simp] theorem State.setPort_cores (p : Port) : (s.setPort p).cores = s.cores := rfl
@[simp] theorem State.setPort_mem (p : Port) : (s.setPort p).mem = s.mem := rfl
@[simp] theorem State.setPort_keys (p : Port) : (s.setPort p).keys = s.keys := rfl
@[simp] theorem State.setPort_badLines (p : Port) : (s.setPort p).badLines = s.badLines := rfl
@[simp] theorem State.setPort_scribbled (p : Port) : (s.setPort p).scribbled = s.scribbled := rfl
@[simp] theorem State.setPort_net (p : Port) : (s.setPort p).net = s.net := rfl
@[simp] theorem State.setPort_recent (p : Port) : (s.setPort p).recent = s.recent := rfl
@[simp] theorem State.setPort_views (p : Port) : (s.setPort p).views = s.views := rfl
@[simp] theorem State.setPort_tlb (p : Port) : (s.setPort p).tlb = s.tlb := rfl
@[simp] theorem State.setPort_ptrs (p : Port) : (s.setPort p).ptrs = s.ptrs := rfl
@[simp] theorem State.setPort_walks (p : Port) : (s.setPort p).walks = s.walks := rfl
@[simp] theorem State.setPort_frames (p : Port) : (s.setPort p).frames = s.frames := rfl
@[simp] theorem State.setPort_sentRels (p : Port) : (s.setPort p).sentRels = s.sentRels := rfl
@[simp] theorem State.setPort_givenUp (p : Port) : (s.setPort p).givenUp = s.givenUp := rfl
@[simp] theorem State.setPort_sealedAt (p : Port) : (s.setPort p).sealedAt = s.sealedAt := rfl
@[simp] theorem State.setPort_invs (p : Port) : (s.setPort p).invs = s.invs := rfl
@[simp] theorem State.setPort_cells (p : Port) : (s.setPort p).cells = s.cells := rfl
@[simp] theorem State.setPort_waits (p : Port) : (s.setPort p).waits = s.waits := rfl
@[simp] theorem State.setPort_wakes (p : Port) : (s.setPort p).wakes = s.wakes := rfl
@[simp] theorem State.setPort_posts (p : Port) : (s.setPort p).posts = s.posts := rfl
@[simp] theorem State.setPort_jobs (p : Port) : (s.setPort p).jobs = s.jobs := rfl
@[simp] theorem State.setPort_versions (p : Port) : (s.setPort p).versions = s.versions := rfl
@[simp] theorem State.setPort_parts (p : Port) : (s.setPort p).parts = s.parts := rfl
@[simp] theorem State.setPort_groups (p : Port) : (s.setPort p).groups = s.groups := rfl
@[simp] theorem State.setPort_records (p : Port) : (s.setPort p).records = s.records := rfl
@[simp] theorem State.setPort_slices (p : Port) : (s.setPort p).slices = s.slices := rfl
@[simp] theorem State.setPort_turns (p : Port) : (s.setPort p).turns = s.turns := rfl
@[simp] theorem State.setPort_sites (p : Port) : (s.setPort p).sites = s.sites := rfl
@[simp] theorem State.setPort_hmap (p : Port) : (s.setPort p).hmap = s.hmap := rfl
@[simp] theorem State.setPort_vbnd (p : Port) : (s.setPort p).vbnd = s.vbnd := rfl
@[simp] theorem State.setPort_peers (p : Port) : (s.setPort p).peers = s.peers := rfl
@[simp] theorem State.setPort_bounds (p : Port) : (s.setPort p).bounds = s.bounds := rfl
@[simp] theorem State.setPort_bridge (p : Port) : (s.setPort p).bridge = s.bridge := rfl
@[simp] theorem State.setPort_mill (p : Port) : (s.setPort p).mill = s.mill := rfl
@[simp] theorem State.setPort_out (p : Port) : (s.setPort p).out = s.out := rfl
@[simp] theorem State.setPort_mid (p : Port) : (s.setPort p).mid = s.mid := rfl
@[simp] theorem State.setPort_inc (p : Port) : (s.setPort p).inc = s.inc := rfl
@[simp] theorem State.setPort_lostt (p : Port) : (s.setPort p).lostt = s.lostt := rfl
@[simp] theorem State.setPort_firmware (p : Port) : (s.setPort p).firmware = s.firmware := rfl
@[simp] theorem State.setPort_clk (p : Port) : (s.setPort p).clk = s.clk := rfl
@[simp] theorem State.setPort_agenda (p : Port) : (s.setPort p).agenda = s.agenda := rfl
@[simp] theorem State.setPort_opnd (p : Port) : (s.setPort p).opnd = s.opnd := rfl
@[simp] theorem State.setPort_last (p : Port) : (s.setPort p).last = s.last := rfl
@[simp] theorem State.setPort_fresh (p : Port) : (s.setPort p).fresh = s.fresh := rfl

@[simp] theorem State.setPeer_cur (p : Peer) : (s.setPeer p).cur = s.cur := rfl
@[simp] theorem State.setPeer_others (p : Peer) : (s.setPeer p).others = s.others := rfl
@[simp] theorem State.setPeer_cores (p : Peer) : (s.setPeer p).cores = s.cores := rfl
@[simp] theorem State.setPeer_mem (p : Peer) : (s.setPeer p).mem = s.mem := rfl
@[simp] theorem State.setPeer_keys (p : Peer) : (s.setPeer p).keys = s.keys := rfl
@[simp] theorem State.setPeer_badLines (p : Peer) : (s.setPeer p).badLines = s.badLines := rfl
@[simp] theorem State.setPeer_scribbled (p : Peer) : (s.setPeer p).scribbled = s.scribbled := rfl
@[simp] theorem State.setPeer_net (p : Peer) : (s.setPeer p).net = s.net := rfl
@[simp] theorem State.setPeer_recent (p : Peer) : (s.setPeer p).recent = s.recent := rfl
@[simp] theorem State.setPeer_views (p : Peer) : (s.setPeer p).views = s.views := rfl
@[simp] theorem State.setPeer_tlb (p : Peer) : (s.setPeer p).tlb = s.tlb := rfl
@[simp] theorem State.setPeer_ptrs (p : Peer) : (s.setPeer p).ptrs = s.ptrs := rfl
@[simp] theorem State.setPeer_walks (p : Peer) : (s.setPeer p).walks = s.walks := rfl
@[simp] theorem State.setPeer_frames (p : Peer) : (s.setPeer p).frames = s.frames := rfl
@[simp] theorem State.setPeer_sentRels (p : Peer) : (s.setPeer p).sentRels = s.sentRels := rfl
@[simp] theorem State.setPeer_givenUp (p : Peer) : (s.setPeer p).givenUp = s.givenUp := rfl
@[simp] theorem State.setPeer_sealedAt (p : Peer) : (s.setPeer p).sealedAt = s.sealedAt := rfl
@[simp] theorem State.setPeer_invs (p : Peer) : (s.setPeer p).invs = s.invs := rfl
@[simp] theorem State.setPeer_cells (p : Peer) : (s.setPeer p).cells = s.cells := rfl
@[simp] theorem State.setPeer_waits (p : Peer) : (s.setPeer p).waits = s.waits := rfl
@[simp] theorem State.setPeer_wakes (p : Peer) : (s.setPeer p).wakes = s.wakes := rfl
@[simp] theorem State.setPeer_posts (p : Peer) : (s.setPeer p).posts = s.posts := rfl
@[simp] theorem State.setPeer_jobs (p : Peer) : (s.setPeer p).jobs = s.jobs := rfl
@[simp] theorem State.setPeer_versions (p : Peer) : (s.setPeer p).versions = s.versions := rfl
@[simp] theorem State.setPeer_parts (p : Peer) : (s.setPeer p).parts = s.parts := rfl
@[simp] theorem State.setPeer_groups (p : Peer) : (s.setPeer p).groups = s.groups := rfl
@[simp] theorem State.setPeer_records (p : Peer) : (s.setPeer p).records = s.records := rfl
@[simp] theorem State.setPeer_slices (p : Peer) : (s.setPeer p).slices = s.slices := rfl
@[simp] theorem State.setPeer_turns (p : Peer) : (s.setPeer p).turns = s.turns := rfl
@[simp] theorem State.setPeer_sites (p : Peer) : (s.setPeer p).sites = s.sites := rfl
@[simp] theorem State.setPeer_hmap (p : Peer) : (s.setPeer p).hmap = s.hmap := rfl
@[simp] theorem State.setPeer_vbnd (p : Peer) : (s.setPeer p).vbnd = s.vbnd := rfl
@[simp] theorem State.setPeer_ports (p : Peer) : (s.setPeer p).ports = s.ports := rfl
@[simp] theorem State.setPeer_bounds (p : Peer) : (s.setPeer p).bounds = s.bounds := rfl
@[simp] theorem State.setPeer_bridge (p : Peer) : (s.setPeer p).bridge = s.bridge := rfl
@[simp] theorem State.setPeer_mill (p : Peer) : (s.setPeer p).mill = s.mill := rfl
@[simp] theorem State.setPeer_out (p : Peer) : (s.setPeer p).out = s.out := rfl
@[simp] theorem State.setPeer_mid (p : Peer) : (s.setPeer p).mid = s.mid := rfl
@[simp] theorem State.setPeer_inc (p : Peer) : (s.setPeer p).inc = s.inc := rfl
@[simp] theorem State.setPeer_lostt (p : Peer) : (s.setPeer p).lostt = s.lostt := rfl
@[simp] theorem State.setPeer_firmware (p : Peer) : (s.setPeer p).firmware = s.firmware := rfl
@[simp] theorem State.setPeer_clk (p : Peer) : (s.setPeer p).clk = s.clk := rfl
@[simp] theorem State.setPeer_agenda (p : Peer) : (s.setPeer p).agenda = s.agenda := rfl
@[simp] theorem State.setPeer_opnd (p : Peer) : (s.setPeer p).opnd = s.opnd := rfl
@[simp] theorem State.setPeer_last (p : Peer) : (s.setPeer p).last = s.last := rfl
@[simp] theorem State.setPeer_fresh (p : Peer) : (s.setPeer p).fresh = s.fresh := rfl

@[simp] theorem State.setBoundary_cur (b : Boundary) : (s.setBoundary b).cur = s.cur := rfl
@[simp] theorem State.setBoundary_others (b : Boundary) : (s.setBoundary b).others = s.others := rfl
@[simp] theorem State.setBoundary_cores (b : Boundary) : (s.setBoundary b).cores = s.cores := rfl
@[simp] theorem State.setBoundary_mem (b : Boundary) : (s.setBoundary b).mem = s.mem := rfl
@[simp] theorem State.setBoundary_keys (b : Boundary) : (s.setBoundary b).keys = s.keys := rfl
@[simp] theorem State.setBoundary_badLines (b : Boundary) : (s.setBoundary b).badLines = s.badLines := rfl
@[simp] theorem State.setBoundary_scribbled (b : Boundary) : (s.setBoundary b).scribbled = s.scribbled := rfl
@[simp] theorem State.setBoundary_net (b : Boundary) : (s.setBoundary b).net = s.net := rfl
@[simp] theorem State.setBoundary_recent (b : Boundary) : (s.setBoundary b).recent = s.recent := rfl
@[simp] theorem State.setBoundary_views (b : Boundary) : (s.setBoundary b).views = s.views := rfl
@[simp] theorem State.setBoundary_tlb (b : Boundary) : (s.setBoundary b).tlb = s.tlb := rfl
@[simp] theorem State.setBoundary_ptrs (b : Boundary) : (s.setBoundary b).ptrs = s.ptrs := rfl
@[simp] theorem State.setBoundary_walks (b : Boundary) : (s.setBoundary b).walks = s.walks := rfl
@[simp] theorem State.setBoundary_frames (b : Boundary) : (s.setBoundary b).frames = s.frames := rfl
@[simp] theorem State.setBoundary_sentRels (b : Boundary) : (s.setBoundary b).sentRels = s.sentRels := rfl
@[simp] theorem State.setBoundary_givenUp (b : Boundary) : (s.setBoundary b).givenUp = s.givenUp := rfl
@[simp] theorem State.setBoundary_sealedAt (b : Boundary) : (s.setBoundary b).sealedAt = s.sealedAt := rfl
@[simp] theorem State.setBoundary_invs (b : Boundary) : (s.setBoundary b).invs = s.invs := rfl
@[simp] theorem State.setBoundary_cells (b : Boundary) : (s.setBoundary b).cells = s.cells := rfl
@[simp] theorem State.setBoundary_waits (b : Boundary) : (s.setBoundary b).waits = s.waits := rfl
@[simp] theorem State.setBoundary_wakes (b : Boundary) : (s.setBoundary b).wakes = s.wakes := rfl
@[simp] theorem State.setBoundary_posts (b : Boundary) : (s.setBoundary b).posts = s.posts := rfl
@[simp] theorem State.setBoundary_jobs (b : Boundary) : (s.setBoundary b).jobs = s.jobs := rfl
@[simp] theorem State.setBoundary_versions (b : Boundary) : (s.setBoundary b).versions = s.versions := rfl
@[simp] theorem State.setBoundary_parts (b : Boundary) : (s.setBoundary b).parts = s.parts := rfl
@[simp] theorem State.setBoundary_groups (b : Boundary) : (s.setBoundary b).groups = s.groups := rfl
@[simp] theorem State.setBoundary_records (b : Boundary) : (s.setBoundary b).records = s.records := rfl
@[simp] theorem State.setBoundary_slices (b : Boundary) : (s.setBoundary b).slices = s.slices := rfl
@[simp] theorem State.setBoundary_turns (b : Boundary) : (s.setBoundary b).turns = s.turns := rfl
@[simp] theorem State.setBoundary_sites (b : Boundary) : (s.setBoundary b).sites = s.sites := rfl
@[simp] theorem State.setBoundary_hmap (b : Boundary) : (s.setBoundary b).hmap = s.hmap := rfl
@[simp] theorem State.setBoundary_vbnd (b : Boundary) : (s.setBoundary b).vbnd = s.vbnd := rfl
@[simp] theorem State.setBoundary_ports (b : Boundary) : (s.setBoundary b).ports = s.ports := rfl
@[simp] theorem State.setBoundary_peers (b : Boundary) : (s.setBoundary b).peers = s.peers := rfl
@[simp] theorem State.setBoundary_bridge (b : Boundary) : (s.setBoundary b).bridge = s.bridge := rfl
@[simp] theorem State.setBoundary_mill (b : Boundary) : (s.setBoundary b).mill = s.mill := rfl
@[simp] theorem State.setBoundary_out (b : Boundary) : (s.setBoundary b).out = s.out := rfl
@[simp] theorem State.setBoundary_mid (b : Boundary) : (s.setBoundary b).mid = s.mid := rfl
@[simp] theorem State.setBoundary_inc (b : Boundary) : (s.setBoundary b).inc = s.inc := rfl
@[simp] theorem State.setBoundary_lostt (b : Boundary) : (s.setBoundary b).lostt = s.lostt := rfl
@[simp] theorem State.setBoundary_firmware (b : Boundary) : (s.setBoundary b).firmware = s.firmware := rfl
@[simp] theorem State.setBoundary_clk (b : Boundary) : (s.setBoundary b).clk = s.clk := rfl
@[simp] theorem State.setBoundary_agenda (b : Boundary) : (s.setBoundary b).agenda = s.agenda := rfl
@[simp] theorem State.setBoundary_opnd (b : Boundary) : (s.setBoundary b).opnd = s.opnd := rfl
@[simp] theorem State.setBoundary_last (b : Boundary) : (s.setBoundary b).last = s.last := rfl
@[simp] theorem State.setBoundary_fresh (b : Boundary) : (s.setBoundary b).fresh = s.fresh := rfl

@[simp] theorem State.post_cur (c : Nat) (r : PostSource) (q : Party) (v : View) (h : Word64) (y : BitVec 20) (o : CellOp) : (s.post c r q v h y o).cur = s.cur := rfl
@[simp] theorem State.post_others (c : Nat) (r : PostSource) (q : Party) (v : View) (h : Word64) (y : BitVec 20) (o : CellOp) : (s.post c r q v h y o).others = s.others := rfl
@[simp] theorem State.post_cores (c : Nat) (r : PostSource) (q : Party) (v : View) (h : Word64) (y : BitVec 20) (o : CellOp) : (s.post c r q v h y o).cores = s.cores := rfl
@[simp] theorem State.post_mem (c : Nat) (r : PostSource) (q : Party) (v : View) (h : Word64) (y : BitVec 20) (o : CellOp) : (s.post c r q v h y o).mem = s.mem := rfl
@[simp] theorem State.post_keys (c : Nat) (r : PostSource) (q : Party) (v : View) (h : Word64) (y : BitVec 20) (o : CellOp) : (s.post c r q v h y o).keys = s.keys := rfl
@[simp] theorem State.post_badLines (c : Nat) (r : PostSource) (q : Party) (v : View) (h : Word64) (y : BitVec 20) (o : CellOp) : (s.post c r q v h y o).badLines = s.badLines := rfl
@[simp] theorem State.post_scribbled (c : Nat) (r : PostSource) (q : Party) (v : View) (h : Word64) (y : BitVec 20) (o : CellOp) : (s.post c r q v h y o).scribbled = s.scribbled := rfl
@[simp] theorem State.post_net (c : Nat) (r : PostSource) (q : Party) (v : View) (h : Word64) (y : BitVec 20) (o : CellOp) : (s.post c r q v h y o).net = s.net := rfl
@[simp] theorem State.post_recent (c : Nat) (r : PostSource) (q : Party) (v : View) (h : Word64) (y : BitVec 20) (o : CellOp) : (s.post c r q v h y o).recent = s.recent := rfl
@[simp] theorem State.post_views (c : Nat) (r : PostSource) (q : Party) (v : View) (h : Word64) (y : BitVec 20) (o : CellOp) : (s.post c r q v h y o).views = s.views := rfl
@[simp] theorem State.post_tlb (c : Nat) (r : PostSource) (q : Party) (v : View) (h : Word64) (y : BitVec 20) (o : CellOp) : (s.post c r q v h y o).tlb = s.tlb := rfl
@[simp] theorem State.post_ptrs (c : Nat) (r : PostSource) (q : Party) (v : View) (h : Word64) (y : BitVec 20) (o : CellOp) : (s.post c r q v h y o).ptrs = s.ptrs := rfl
@[simp] theorem State.post_walks (c : Nat) (r : PostSource) (q : Party) (v : View) (h : Word64) (y : BitVec 20) (o : CellOp) : (s.post c r q v h y o).walks = s.walks := rfl
@[simp] theorem State.post_frames (c : Nat) (r : PostSource) (q : Party) (v : View) (h : Word64) (y : BitVec 20) (o : CellOp) : (s.post c r q v h y o).frames = s.frames := rfl
@[simp] theorem State.post_sentRels (c : Nat) (r : PostSource) (q : Party) (v : View) (h : Word64) (y : BitVec 20) (o : CellOp) : (s.post c r q v h y o).sentRels = s.sentRels := rfl
@[simp] theorem State.post_givenUp (c : Nat) (r : PostSource) (q : Party) (v : View) (h : Word64) (y : BitVec 20) (o : CellOp) : (s.post c r q v h y o).givenUp = s.givenUp := rfl
@[simp] theorem State.post_sealedAt (c : Nat) (r : PostSource) (q : Party) (v : View) (h : Word64) (y : BitVec 20) (o : CellOp) : (s.post c r q v h y o).sealedAt = s.sealedAt := rfl
@[simp] theorem State.post_invs (c : Nat) (r : PostSource) (q : Party) (v : View) (h : Word64) (y : BitVec 20) (o : CellOp) : (s.post c r q v h y o).invs = s.invs := rfl
@[simp] theorem State.post_cells (c : Nat) (r : PostSource) (q : Party) (v : View) (h : Word64) (y : BitVec 20) (o : CellOp) : (s.post c r q v h y o).cells = s.cells := rfl
@[simp] theorem State.post_waits (c : Nat) (r : PostSource) (q : Party) (v : View) (h : Word64) (y : BitVec 20) (o : CellOp) : (s.post c r q v h y o).waits = s.waits := rfl
@[simp] theorem State.post_wakes (c : Nat) (r : PostSource) (q : Party) (v : View) (h : Word64) (y : BitVec 20) (o : CellOp) : (s.post c r q v h y o).wakes = s.wakes := rfl
@[simp] theorem State.post_jobs (c : Nat) (r : PostSource) (q : Party) (v : View) (h : Word64) (y : BitVec 20) (o : CellOp) : (s.post c r q v h y o).jobs = s.jobs := rfl
@[simp] theorem State.post_versions (c : Nat) (r : PostSource) (q : Party) (v : View) (h : Word64) (y : BitVec 20) (o : CellOp) : (s.post c r q v h y o).versions = s.versions := rfl
@[simp] theorem State.post_parts (c : Nat) (r : PostSource) (q : Party) (v : View) (h : Word64) (y : BitVec 20) (o : CellOp) : (s.post c r q v h y o).parts = s.parts := rfl
@[simp] theorem State.post_groups (c : Nat) (r : PostSource) (q : Party) (v : View) (h : Word64) (y : BitVec 20) (o : CellOp) : (s.post c r q v h y o).groups = s.groups := rfl
@[simp] theorem State.post_records (c : Nat) (r : PostSource) (q : Party) (v : View) (h : Word64) (y : BitVec 20) (o : CellOp) : (s.post c r q v h y o).records = s.records := rfl
@[simp] theorem State.post_slices (c : Nat) (r : PostSource) (q : Party) (v : View) (h : Word64) (y : BitVec 20) (o : CellOp) : (s.post c r q v h y o).slices = s.slices := rfl
@[simp] theorem State.post_turns (c : Nat) (r : PostSource) (q : Party) (v : View) (h : Word64) (y : BitVec 20) (o : CellOp) : (s.post c r q v h y o).turns = s.turns := rfl
@[simp] theorem State.post_sites (c : Nat) (r : PostSource) (q : Party) (v : View) (h : Word64) (y : BitVec 20) (o : CellOp) : (s.post c r q v h y o).sites = s.sites := rfl
@[simp] theorem State.post_hmap (c : Nat) (r : PostSource) (q : Party) (v : View) (h : Word64) (y : BitVec 20) (o : CellOp) : (s.post c r q v h y o).hmap = s.hmap := rfl
@[simp] theorem State.post_vbnd (c : Nat) (r : PostSource) (q : Party) (v : View) (h : Word64) (y : BitVec 20) (o : CellOp) : (s.post c r q v h y o).vbnd = s.vbnd := rfl
@[simp] theorem State.post_ports (c : Nat) (r : PostSource) (q : Party) (v : View) (h : Word64) (y : BitVec 20) (o : CellOp) : (s.post c r q v h y o).ports = s.ports := rfl
@[simp] theorem State.post_peers (c : Nat) (r : PostSource) (q : Party) (v : View) (h : Word64) (y : BitVec 20) (o : CellOp) : (s.post c r q v h y o).peers = s.peers := rfl
@[simp] theorem State.post_bounds (c : Nat) (r : PostSource) (q : Party) (v : View) (h : Word64) (y : BitVec 20) (o : CellOp) : (s.post c r q v h y o).bounds = s.bounds := rfl
@[simp] theorem State.post_bridge (c : Nat) (r : PostSource) (q : Party) (v : View) (h : Word64) (y : BitVec 20) (o : CellOp) : (s.post c r q v h y o).bridge = s.bridge := rfl
@[simp] theorem State.post_mill (c : Nat) (r : PostSource) (q : Party) (v : View) (h : Word64) (y : BitVec 20) (o : CellOp) : (s.post c r q v h y o).mill = s.mill := rfl
@[simp] theorem State.post_out (c : Nat) (r : PostSource) (q : Party) (v : View) (h : Word64) (y : BitVec 20) (o : CellOp) : (s.post c r q v h y o).out = s.out := rfl
@[simp] theorem State.post_mid (c : Nat) (r : PostSource) (q : Party) (v : View) (h : Word64) (y : BitVec 20) (o : CellOp) : (s.post c r q v h y o).mid = s.mid := rfl
@[simp] theorem State.post_inc (c : Nat) (r : PostSource) (q : Party) (v : View) (h : Word64) (y : BitVec 20) (o : CellOp) : (s.post c r q v h y o).inc = s.inc := rfl
@[simp] theorem State.post_lostt (c : Nat) (r : PostSource) (q : Party) (v : View) (h : Word64) (y : BitVec 20) (o : CellOp) : (s.post c r q v h y o).lostt = s.lostt := rfl
@[simp] theorem State.post_firmware (c : Nat) (r : PostSource) (q : Party) (v : View) (h : Word64) (y : BitVec 20) (o : CellOp) : (s.post c r q v h y o).firmware = s.firmware := rfl
@[simp] theorem State.post_clk (c : Nat) (r : PostSource) (q : Party) (v : View) (h : Word64) (y : BitVec 20) (o : CellOp) : (s.post c r q v h y o).clk = s.clk := rfl
@[simp] theorem State.post_agenda (c : Nat) (r : PostSource) (q : Party) (v : View) (h : Word64) (y : BitVec 20) (o : CellOp) : (s.post c r q v h y o).agenda = s.agenda := rfl
@[simp] theorem State.post_opnd (c : Nat) (r : PostSource) (q : Party) (v : View) (h : Word64) (y : BitVec 20) (o : CellOp) : (s.post c r q v h y o).opnd = s.opnd := rfl
@[simp] theorem State.post_last (c : Nat) (r : PostSource) (q : Party) (v : View) (h : Word64) (y : BitVec 20) (o : CellOp) : (s.post c r q v h y o).last = s.last := rfl

@[simp] theorem State.setView_cur (q : Party) (v : View) : (s.setView q v).cur = s.cur := rfl
@[simp] theorem State.setView_others (q : Party) (v : View) : (s.setView q v).others = s.others := rfl
@[simp] theorem State.setView_cores (q : Party) (v : View) : (s.setView q v).cores = s.cores := rfl
@[simp] theorem State.setView_mem (q : Party) (v : View) : (s.setView q v).mem = s.mem := rfl
@[simp] theorem State.setView_keys (q : Party) (v : View) : (s.setView q v).keys = s.keys := rfl
@[simp] theorem State.setView_badLines (q : Party) (v : View) : (s.setView q v).badLines = s.badLines := rfl
@[simp] theorem State.setView_scribbled (q : Party) (v : View) : (s.setView q v).scribbled = s.scribbled := rfl
@[simp] theorem State.setView_net (q : Party) (v : View) : (s.setView q v).net = s.net := rfl
@[simp] theorem State.setView_recent (q : Party) (v : View) : (s.setView q v).recent = s.recent := rfl
@[simp] theorem State.setView_tlb (q : Party) (v : View) : (s.setView q v).tlb = s.tlb := rfl
@[simp] theorem State.setView_ptrs (q : Party) (v : View) : (s.setView q v).ptrs = s.ptrs := rfl
@[simp] theorem State.setView_walks (q : Party) (v : View) : (s.setView q v).walks = s.walks := rfl
@[simp] theorem State.setView_frames (q : Party) (v : View) : (s.setView q v).frames = s.frames := rfl
@[simp] theorem State.setView_sentRels (q : Party) (v : View) : (s.setView q v).sentRels = s.sentRels := rfl
@[simp] theorem State.setView_givenUp (q : Party) (v : View) : (s.setView q v).givenUp = s.givenUp := rfl
@[simp] theorem State.setView_sealedAt (q : Party) (v : View) : (s.setView q v).sealedAt = s.sealedAt := rfl
@[simp] theorem State.setView_invs (q : Party) (v : View) : (s.setView q v).invs = s.invs := rfl
@[simp] theorem State.setView_cells (q : Party) (v : View) : (s.setView q v).cells = s.cells := rfl
@[simp] theorem State.setView_waits (q : Party) (v : View) : (s.setView q v).waits = s.waits := rfl
@[simp] theorem State.setView_wakes (q : Party) (v : View) : (s.setView q v).wakes = s.wakes := rfl
@[simp] theorem State.setView_posts (q : Party) (v : View) : (s.setView q v).posts = s.posts := rfl
@[simp] theorem State.setView_jobs (q : Party) (v : View) : (s.setView q v).jobs = s.jobs := rfl
@[simp] theorem State.setView_versions (q : Party) (v : View) : (s.setView q v).versions = s.versions := rfl
@[simp] theorem State.setView_parts (q : Party) (v : View) : (s.setView q v).parts = s.parts := rfl
@[simp] theorem State.setView_groups (q : Party) (v : View) : (s.setView q v).groups = s.groups := rfl
@[simp] theorem State.setView_records (q : Party) (v : View) : (s.setView q v).records = s.records := rfl
@[simp] theorem State.setView_slices (q : Party) (v : View) : (s.setView q v).slices = s.slices := rfl
@[simp] theorem State.setView_turns (q : Party) (v : View) : (s.setView q v).turns = s.turns := rfl
@[simp] theorem State.setView_sites (q : Party) (v : View) : (s.setView q v).sites = s.sites := rfl
@[simp] theorem State.setView_hmap (q : Party) (v : View) : (s.setView q v).hmap = s.hmap := rfl
@[simp] theorem State.setView_vbnd (q : Party) (v : View) : (s.setView q v).vbnd = s.vbnd := rfl
@[simp] theorem State.setView_ports (q : Party) (v : View) : (s.setView q v).ports = s.ports := rfl
@[simp] theorem State.setView_peers (q : Party) (v : View) : (s.setView q v).peers = s.peers := rfl
@[simp] theorem State.setView_bounds (q : Party) (v : View) : (s.setView q v).bounds = s.bounds := rfl
@[simp] theorem State.setView_bridge (q : Party) (v : View) : (s.setView q v).bridge = s.bridge := rfl
@[simp] theorem State.setView_mill (q : Party) (v : View) : (s.setView q v).mill = s.mill := rfl
@[simp] theorem State.setView_out (q : Party) (v : View) : (s.setView q v).out = s.out := rfl
@[simp] theorem State.setView_mid (q : Party) (v : View) : (s.setView q v).mid = s.mid := rfl
@[simp] theorem State.setView_inc (q : Party) (v : View) : (s.setView q v).inc = s.inc := rfl
@[simp] theorem State.setView_lostt (q : Party) (v : View) : (s.setView q v).lostt = s.lostt := rfl
@[simp] theorem State.setView_firmware (q : Party) (v : View) : (s.setView q v).firmware = s.firmware := rfl
@[simp] theorem State.setView_clk (q : Party) (v : View) : (s.setView q v).clk = s.clk := rfl
@[simp] theorem State.setView_agenda (q : Party) (v : View) : (s.setView q v).agenda = s.agenda := rfl
@[simp] theorem State.setView_opnd (q : Party) (v : View) : (s.setView q v).opnd = s.opnd := rfl
@[simp] theorem State.setView_last (q : Party) (v : View) : (s.setView q v).last = s.last := rfl
@[simp] theorem State.setView_fresh (q : Party) (v : View) : (s.setView q v).fresh = s.fresh := rfl

@[simp] theorem State.updWindow_cur (c l : Nat) (f : HostWindow → HostWindow) : (s.updWindow c l f).cur = s.cur := rfl
@[simp] theorem State.updWindow_others (c l : Nat) (f : HostWindow → HostWindow) : (s.updWindow c l f).others = s.others := rfl
@[simp] theorem State.updWindow_cores (c l : Nat) (f : HostWindow → HostWindow) : (s.updWindow c l f).cores = s.cores := rfl
@[simp] theorem State.updWindow_mem (c l : Nat) (f : HostWindow → HostWindow) : (s.updWindow c l f).mem = s.mem := rfl
@[simp] theorem State.updWindow_keys (c l : Nat) (f : HostWindow → HostWindow) : (s.updWindow c l f).keys = s.keys := rfl
@[simp] theorem State.updWindow_badLines (c l : Nat) (f : HostWindow → HostWindow) : (s.updWindow c l f).badLines = s.badLines := rfl
@[simp] theorem State.updWindow_scribbled (c l : Nat) (f : HostWindow → HostWindow) : (s.updWindow c l f).scribbled = s.scribbled := rfl
@[simp] theorem State.updWindow_net (c l : Nat) (f : HostWindow → HostWindow) : (s.updWindow c l f).net = s.net := rfl
@[simp] theorem State.updWindow_recent (c l : Nat) (f : HostWindow → HostWindow) : (s.updWindow c l f).recent = s.recent := rfl
@[simp] theorem State.updWindow_views (c l : Nat) (f : HostWindow → HostWindow) : (s.updWindow c l f).views = s.views := rfl
@[simp] theorem State.updWindow_tlb (c l : Nat) (f : HostWindow → HostWindow) : (s.updWindow c l f).tlb = s.tlb := rfl
@[simp] theorem State.updWindow_ptrs (c l : Nat) (f : HostWindow → HostWindow) : (s.updWindow c l f).ptrs = s.ptrs := rfl
@[simp] theorem State.updWindow_walks (c l : Nat) (f : HostWindow → HostWindow) : (s.updWindow c l f).walks = s.walks := rfl
@[simp] theorem State.updWindow_frames (c l : Nat) (f : HostWindow → HostWindow) : (s.updWindow c l f).frames = s.frames := rfl
@[simp] theorem State.updWindow_sentRels (c l : Nat) (f : HostWindow → HostWindow) : (s.updWindow c l f).sentRels = s.sentRels := rfl
@[simp] theorem State.updWindow_givenUp (c l : Nat) (f : HostWindow → HostWindow) : (s.updWindow c l f).givenUp = s.givenUp := rfl
@[simp] theorem State.updWindow_sealedAt (c l : Nat) (f : HostWindow → HostWindow) : (s.updWindow c l f).sealedAt = s.sealedAt := rfl
@[simp] theorem State.updWindow_invs (c l : Nat) (f : HostWindow → HostWindow) : (s.updWindow c l f).invs = s.invs := rfl
@[simp] theorem State.updWindow_cells (c l : Nat) (f : HostWindow → HostWindow) : (s.updWindow c l f).cells = s.cells := rfl
@[simp] theorem State.updWindow_waits (c l : Nat) (f : HostWindow → HostWindow) : (s.updWindow c l f).waits = s.waits := rfl
@[simp] theorem State.updWindow_wakes (c l : Nat) (f : HostWindow → HostWindow) : (s.updWindow c l f).wakes = s.wakes := rfl
@[simp] theorem State.updWindow_posts (c l : Nat) (f : HostWindow → HostWindow) : (s.updWindow c l f).posts = s.posts := rfl
@[simp] theorem State.updWindow_jobs (c l : Nat) (f : HostWindow → HostWindow) : (s.updWindow c l f).jobs = s.jobs := rfl
@[simp] theorem State.updWindow_versions (c l : Nat) (f : HostWindow → HostWindow) : (s.updWindow c l f).versions = s.versions := rfl
@[simp] theorem State.updWindow_groups (c l : Nat) (f : HostWindow → HostWindow) : (s.updWindow c l f).groups = s.groups := rfl
@[simp] theorem State.updWindow_records (c l : Nat) (f : HostWindow → HostWindow) : (s.updWindow c l f).records = s.records := rfl
@[simp] theorem State.updWindow_slices (c l : Nat) (f : HostWindow → HostWindow) : (s.updWindow c l f).slices = s.slices := rfl
@[simp] theorem State.updWindow_turns (c l : Nat) (f : HostWindow → HostWindow) : (s.updWindow c l f).turns = s.turns := rfl
@[simp] theorem State.updWindow_sites (c l : Nat) (f : HostWindow → HostWindow) : (s.updWindow c l f).sites = s.sites := rfl
@[simp] theorem State.updWindow_hmap (c l : Nat) (f : HostWindow → HostWindow) : (s.updWindow c l f).hmap = s.hmap := rfl
@[simp] theorem State.updWindow_vbnd (c l : Nat) (f : HostWindow → HostWindow) : (s.updWindow c l f).vbnd = s.vbnd := rfl
@[simp] theorem State.updWindow_ports (c l : Nat) (f : HostWindow → HostWindow) : (s.updWindow c l f).ports = s.ports := rfl
@[simp] theorem State.updWindow_peers (c l : Nat) (f : HostWindow → HostWindow) : (s.updWindow c l f).peers = s.peers := rfl
@[simp] theorem State.updWindow_bounds (c l : Nat) (f : HostWindow → HostWindow) : (s.updWindow c l f).bounds = s.bounds := rfl
@[simp] theorem State.updWindow_bridge (c l : Nat) (f : HostWindow → HostWindow) : (s.updWindow c l f).bridge = s.bridge := rfl
@[simp] theorem State.updWindow_mill (c l : Nat) (f : HostWindow → HostWindow) : (s.updWindow c l f).mill = s.mill := rfl
@[simp] theorem State.updWindow_out (c l : Nat) (f : HostWindow → HostWindow) : (s.updWindow c l f).out = s.out := rfl
@[simp] theorem State.updWindow_mid (c l : Nat) (f : HostWindow → HostWindow) : (s.updWindow c l f).mid = s.mid := rfl
@[simp] theorem State.updWindow_inc (c l : Nat) (f : HostWindow → HostWindow) : (s.updWindow c l f).inc = s.inc := rfl
@[simp] theorem State.updWindow_lostt (c l : Nat) (f : HostWindow → HostWindow) : (s.updWindow c l f).lostt = s.lostt := rfl
@[simp] theorem State.updWindow_firmware (c l : Nat) (f : HostWindow → HostWindow) : (s.updWindow c l f).firmware = s.firmware := rfl
@[simp] theorem State.updWindow_clk (c l : Nat) (f : HostWindow → HostWindow) : (s.updWindow c l f).clk = s.clk := rfl
@[simp] theorem State.updWindow_agenda (c l : Nat) (f : HostWindow → HostWindow) : (s.updWindow c l f).agenda = s.agenda := rfl
@[simp] theorem State.updWindow_opnd (c l : Nat) (f : HostWindow → HostWindow) : (s.updWindow c l f).opnd = s.opnd := rfl
@[simp] theorem State.updWindow_last (c l : Nat) (f : HostWindow → HostWindow) : (s.updWindow c l f).last = s.last := rfl
@[simp] theorem State.updWindow_fresh (c l : Nat) (f : HostWindow → HostWindow) : (s.updWindow c l f).fresh = s.fresh := rfl

@[simp] theorem State.updKernel_cur (c k : Nat) (f : Kernel → Kernel) : (s.updKernel c k f).cur = s.cur := rfl
@[simp] theorem State.updKernel_others (c k : Nat) (f : Kernel → Kernel) : (s.updKernel c k f).others = s.others := rfl
@[simp] theorem State.updKernel_cores (c k : Nat) (f : Kernel → Kernel) : (s.updKernel c k f).cores = s.cores := rfl
@[simp] theorem State.updKernel_mem (c k : Nat) (f : Kernel → Kernel) : (s.updKernel c k f).mem = s.mem := rfl
@[simp] theorem State.updKernel_keys (c k : Nat) (f : Kernel → Kernel) : (s.updKernel c k f).keys = s.keys := rfl
@[simp] theorem State.updKernel_badLines (c k : Nat) (f : Kernel → Kernel) : (s.updKernel c k f).badLines = s.badLines := rfl
@[simp] theorem State.updKernel_scribbled (c k : Nat) (f : Kernel → Kernel) : (s.updKernel c k f).scribbled = s.scribbled := rfl
@[simp] theorem State.updKernel_net (c k : Nat) (f : Kernel → Kernel) : (s.updKernel c k f).net = s.net := rfl
@[simp] theorem State.updKernel_recent (c k : Nat) (f : Kernel → Kernel) : (s.updKernel c k f).recent = s.recent := rfl
@[simp] theorem State.updKernel_views (c k : Nat) (f : Kernel → Kernel) : (s.updKernel c k f).views = s.views := rfl
@[simp] theorem State.updKernel_tlb (c k : Nat) (f : Kernel → Kernel) : (s.updKernel c k f).tlb = s.tlb := rfl
@[simp] theorem State.updKernel_ptrs (c k : Nat) (f : Kernel → Kernel) : (s.updKernel c k f).ptrs = s.ptrs := rfl
@[simp] theorem State.updKernel_walks (c k : Nat) (f : Kernel → Kernel) : (s.updKernel c k f).walks = s.walks := rfl
@[simp] theorem State.updKernel_frames (c k : Nat) (f : Kernel → Kernel) : (s.updKernel c k f).frames = s.frames := rfl
@[simp] theorem State.updKernel_sentRels (c k : Nat) (f : Kernel → Kernel) : (s.updKernel c k f).sentRels = s.sentRels := rfl
@[simp] theorem State.updKernel_givenUp (c k : Nat) (f : Kernel → Kernel) : (s.updKernel c k f).givenUp = s.givenUp := rfl
@[simp] theorem State.updKernel_sealedAt (c k : Nat) (f : Kernel → Kernel) : (s.updKernel c k f).sealedAt = s.sealedAt := rfl
@[simp] theorem State.updKernel_invs (c k : Nat) (f : Kernel → Kernel) : (s.updKernel c k f).invs = s.invs := rfl
@[simp] theorem State.updKernel_cells (c k : Nat) (f : Kernel → Kernel) : (s.updKernel c k f).cells = s.cells := rfl
@[simp] theorem State.updKernel_waits (c k : Nat) (f : Kernel → Kernel) : (s.updKernel c k f).waits = s.waits := rfl
@[simp] theorem State.updKernel_wakes (c k : Nat) (f : Kernel → Kernel) : (s.updKernel c k f).wakes = s.wakes := rfl
@[simp] theorem State.updKernel_posts (c k : Nat) (f : Kernel → Kernel) : (s.updKernel c k f).posts = s.posts := rfl
@[simp] theorem State.updKernel_jobs (c k : Nat) (f : Kernel → Kernel) : (s.updKernel c k f).jobs = s.jobs := rfl
@[simp] theorem State.updKernel_versions (c k : Nat) (f : Kernel → Kernel) : (s.updKernel c k f).versions = s.versions := rfl
@[simp] theorem State.updKernel_groups (c k : Nat) (f : Kernel → Kernel) : (s.updKernel c k f).groups = s.groups := rfl
@[simp] theorem State.updKernel_records (c k : Nat) (f : Kernel → Kernel) : (s.updKernel c k f).records = s.records := rfl
@[simp] theorem State.updKernel_slices (c k : Nat) (f : Kernel → Kernel) : (s.updKernel c k f).slices = s.slices := rfl
@[simp] theorem State.updKernel_turns (c k : Nat) (f : Kernel → Kernel) : (s.updKernel c k f).turns = s.turns := rfl
@[simp] theorem State.updKernel_sites (c k : Nat) (f : Kernel → Kernel) : (s.updKernel c k f).sites = s.sites := rfl
@[simp] theorem State.updKernel_hmap (c k : Nat) (f : Kernel → Kernel) : (s.updKernel c k f).hmap = s.hmap := rfl
@[simp] theorem State.updKernel_vbnd (c k : Nat) (f : Kernel → Kernel) : (s.updKernel c k f).vbnd = s.vbnd := rfl
@[simp] theorem State.updKernel_ports (c k : Nat) (f : Kernel → Kernel) : (s.updKernel c k f).ports = s.ports := rfl
@[simp] theorem State.updKernel_peers (c k : Nat) (f : Kernel → Kernel) : (s.updKernel c k f).peers = s.peers := rfl
@[simp] theorem State.updKernel_bounds (c k : Nat) (f : Kernel → Kernel) : (s.updKernel c k f).bounds = s.bounds := rfl
@[simp] theorem State.updKernel_bridge (c k : Nat) (f : Kernel → Kernel) : (s.updKernel c k f).bridge = s.bridge := rfl
@[simp] theorem State.updKernel_mill (c k : Nat) (f : Kernel → Kernel) : (s.updKernel c k f).mill = s.mill := rfl
@[simp] theorem State.updKernel_out (c k : Nat) (f : Kernel → Kernel) : (s.updKernel c k f).out = s.out := rfl
@[simp] theorem State.updKernel_mid (c k : Nat) (f : Kernel → Kernel) : (s.updKernel c k f).mid = s.mid := rfl
@[simp] theorem State.updKernel_inc (c k : Nat) (f : Kernel → Kernel) : (s.updKernel c k f).inc = s.inc := rfl
@[simp] theorem State.updKernel_lostt (c k : Nat) (f : Kernel → Kernel) : (s.updKernel c k f).lostt = s.lostt := rfl
@[simp] theorem State.updKernel_firmware (c k : Nat) (f : Kernel → Kernel) : (s.updKernel c k f).firmware = s.firmware := rfl
@[simp] theorem State.updKernel_clk (c k : Nat) (f : Kernel → Kernel) : (s.updKernel c k f).clk = s.clk := rfl
@[simp] theorem State.updKernel_agenda (c k : Nat) (f : Kernel → Kernel) : (s.updKernel c k f).agenda = s.agenda := rfl
@[simp] theorem State.updKernel_opnd (c k : Nat) (f : Kernel → Kernel) : (s.updKernel c k f).opnd = s.opnd := rfl
@[simp] theorem State.updKernel_last (c k : Nat) (f : Kernel → Kernel) : (s.updKernel c k f).last = s.last := rfl
@[simp] theorem State.updKernel_fresh (c k : Nat) (f : Kernel → Kernel) : (s.updKernel c k f).fresh = s.fresh := rfl

@[simp] theorem State.settleLaunches_cur (c : Nat) : (s.settleLaunches c).cur = s.cur := rfl
@[simp] theorem State.settleLaunches_others (c : Nat) : (s.settleLaunches c).others = s.others := rfl
@[simp] theorem State.settleLaunches_cores (c : Nat) : (s.settleLaunches c).cores = s.cores := rfl
@[simp] theorem State.settleLaunches_mem (c : Nat) : (s.settleLaunches c).mem = s.mem := rfl
@[simp] theorem State.settleLaunches_keys (c : Nat) : (s.settleLaunches c).keys = s.keys := rfl
@[simp] theorem State.settleLaunches_badLines (c : Nat) : (s.settleLaunches c).badLines = s.badLines := rfl
@[simp] theorem State.settleLaunches_scribbled (c : Nat) : (s.settleLaunches c).scribbled = s.scribbled := rfl
@[simp] theorem State.settleLaunches_net (c : Nat) : (s.settleLaunches c).net = s.net := rfl
@[simp] theorem State.settleLaunches_recent (c : Nat) : (s.settleLaunches c).recent = s.recent := rfl
@[simp] theorem State.settleLaunches_views (c : Nat) : (s.settleLaunches c).views = s.views := rfl
@[simp] theorem State.settleLaunches_tlb (c : Nat) : (s.settleLaunches c).tlb = s.tlb := rfl
@[simp] theorem State.settleLaunches_ptrs (c : Nat) : (s.settleLaunches c).ptrs = s.ptrs := rfl
@[simp] theorem State.settleLaunches_walks (c : Nat) : (s.settleLaunches c).walks = s.walks := rfl
@[simp] theorem State.settleLaunches_frames (c : Nat) : (s.settleLaunches c).frames = s.frames := rfl
@[simp] theorem State.settleLaunches_sentRels (c : Nat) : (s.settleLaunches c).sentRels = s.sentRels := rfl
@[simp] theorem State.settleLaunches_givenUp (c : Nat) : (s.settleLaunches c).givenUp = s.givenUp := rfl
@[simp] theorem State.settleLaunches_sealedAt (c : Nat) : (s.settleLaunches c).sealedAt = s.sealedAt := rfl
@[simp] theorem State.settleLaunches_invs (c : Nat) : (s.settleLaunches c).invs = s.invs := rfl
@[simp] theorem State.settleLaunches_cells (c : Nat) : (s.settleLaunches c).cells = s.cells := rfl
@[simp] theorem State.settleLaunches_waits (c : Nat) : (s.settleLaunches c).waits = s.waits := rfl
@[simp] theorem State.settleLaunches_wakes (c : Nat) : (s.settleLaunches c).wakes = s.wakes := rfl
@[simp] theorem State.settleLaunches_posts (c : Nat) : (s.settleLaunches c).posts = s.posts := rfl
@[simp] theorem State.settleLaunches_jobs (c : Nat) : (s.settleLaunches c).jobs = s.jobs := rfl
@[simp] theorem State.settleLaunches_versions (c : Nat) : (s.settleLaunches c).versions = s.versions := rfl
@[simp] theorem State.settleLaunches_groups (c : Nat) : (s.settleLaunches c).groups = s.groups := rfl
@[simp] theorem State.settleLaunches_records (c : Nat) : (s.settleLaunches c).records = s.records := rfl
@[simp] theorem State.settleLaunches_slices (c : Nat) : (s.settleLaunches c).slices = s.slices := rfl
@[simp] theorem State.settleLaunches_turns (c : Nat) : (s.settleLaunches c).turns = s.turns := rfl
@[simp] theorem State.settleLaunches_sites (c : Nat) : (s.settleLaunches c).sites = s.sites := rfl
@[simp] theorem State.settleLaunches_hmap (c : Nat) : (s.settleLaunches c).hmap = s.hmap := rfl
@[simp] theorem State.settleLaunches_vbnd (c : Nat) : (s.settleLaunches c).vbnd = s.vbnd := rfl
@[simp] theorem State.settleLaunches_ports (c : Nat) : (s.settleLaunches c).ports = s.ports := rfl
@[simp] theorem State.settleLaunches_peers (c : Nat) : (s.settleLaunches c).peers = s.peers := rfl
@[simp] theorem State.settleLaunches_bounds (c : Nat) : (s.settleLaunches c).bounds = s.bounds := rfl
@[simp] theorem State.settleLaunches_bridge (c : Nat) : (s.settleLaunches c).bridge = s.bridge := rfl
@[simp] theorem State.settleLaunches_mill (c : Nat) : (s.settleLaunches c).mill = s.mill := rfl
@[simp] theorem State.settleLaunches_out (c : Nat) : (s.settleLaunches c).out = s.out := rfl
@[simp] theorem State.settleLaunches_mid (c : Nat) : (s.settleLaunches c).mid = s.mid := rfl
@[simp] theorem State.settleLaunches_inc (c : Nat) : (s.settleLaunches c).inc = s.inc := rfl
@[simp] theorem State.settleLaunches_lostt (c : Nat) : (s.settleLaunches c).lostt = s.lostt := rfl
@[simp] theorem State.settleLaunches_firmware (c : Nat) : (s.settleLaunches c).firmware = s.firmware := rfl
@[simp] theorem State.settleLaunches_clk (c : Nat) : (s.settleLaunches c).clk = s.clk := rfl
@[simp] theorem State.settleLaunches_agenda (c : Nat) : (s.settleLaunches c).agenda = s.agenda := rfl
@[simp] theorem State.settleLaunches_opnd (c : Nat) : (s.settleLaunches c).opnd = s.opnd := rfl
@[simp] theorem State.settleLaunches_last (c : Nat) : (s.settleLaunches c).last = s.last := rfl
@[simp] theorem State.settleLaunches_fresh (c : Nat) : (s.settleLaunches c).fresh = s.fresh := rfl

@[simp] theorem State.tellPeer_cur (c : Nat) (q : RemoteParty) (m a : Nat) (r : RemoteAccess) : (s.tellPeer c q m a r).cur = s.cur := rfl
@[simp] theorem State.tellPeer_others (c : Nat) (q : RemoteParty) (m a : Nat) (r : RemoteAccess) : (s.tellPeer c q m a r).others = s.others := rfl
@[simp] theorem State.tellPeer_cores (c : Nat) (q : RemoteParty) (m a : Nat) (r : RemoteAccess) : (s.tellPeer c q m a r).cores = s.cores := rfl
@[simp] theorem State.tellPeer_mem (c : Nat) (q : RemoteParty) (m a : Nat) (r : RemoteAccess) : (s.tellPeer c q m a r).mem = s.mem := rfl
@[simp] theorem State.tellPeer_keys (c : Nat) (q : RemoteParty) (m a : Nat) (r : RemoteAccess) : (s.tellPeer c q m a r).keys = s.keys := rfl
@[simp] theorem State.tellPeer_badLines (c : Nat) (q : RemoteParty) (m a : Nat) (r : RemoteAccess) : (s.tellPeer c q m a r).badLines = s.badLines := rfl
@[simp] theorem State.tellPeer_scribbled (c : Nat) (q : RemoteParty) (m a : Nat) (r : RemoteAccess) : (s.tellPeer c q m a r).scribbled = s.scribbled := rfl
@[simp] theorem State.tellPeer_net (c : Nat) (q : RemoteParty) (m a : Nat) (r : RemoteAccess) : (s.tellPeer c q m a r).net = s.net := rfl
@[simp] theorem State.tellPeer_recent (c : Nat) (q : RemoteParty) (m a : Nat) (r : RemoteAccess) : (s.tellPeer c q m a r).recent = s.recent := rfl
@[simp] theorem State.tellPeer_views (c : Nat) (q : RemoteParty) (m a : Nat) (r : RemoteAccess) : (s.tellPeer c q m a r).views = s.views := rfl
@[simp] theorem State.tellPeer_tlb (c : Nat) (q : RemoteParty) (m a : Nat) (r : RemoteAccess) : (s.tellPeer c q m a r).tlb = s.tlb := rfl
@[simp] theorem State.tellPeer_ptrs (c : Nat) (q : RemoteParty) (m a : Nat) (r : RemoteAccess) : (s.tellPeer c q m a r).ptrs = s.ptrs := rfl
@[simp] theorem State.tellPeer_walks (c : Nat) (q : RemoteParty) (m a : Nat) (r : RemoteAccess) : (s.tellPeer c q m a r).walks = s.walks := rfl
@[simp] theorem State.tellPeer_frames (c : Nat) (q : RemoteParty) (m a : Nat) (r : RemoteAccess) : (s.tellPeer c q m a r).frames = s.frames := rfl
@[simp] theorem State.tellPeer_sentRels (c : Nat) (q : RemoteParty) (m a : Nat) (r : RemoteAccess) : (s.tellPeer c q m a r).sentRels = s.sentRels := rfl
@[simp] theorem State.tellPeer_givenUp (c : Nat) (q : RemoteParty) (m a : Nat) (r : RemoteAccess) : (s.tellPeer c q m a r).givenUp = s.givenUp := rfl
@[simp] theorem State.tellPeer_sealedAt (c : Nat) (q : RemoteParty) (m a : Nat) (r : RemoteAccess) : (s.tellPeer c q m a r).sealedAt = s.sealedAt := rfl
@[simp] theorem State.tellPeer_invs (c : Nat) (q : RemoteParty) (m a : Nat) (r : RemoteAccess) : (s.tellPeer c q m a r).invs = s.invs := rfl
@[simp] theorem State.tellPeer_cells (c : Nat) (q : RemoteParty) (m a : Nat) (r : RemoteAccess) : (s.tellPeer c q m a r).cells = s.cells := rfl
@[simp] theorem State.tellPeer_waits (c : Nat) (q : RemoteParty) (m a : Nat) (r : RemoteAccess) : (s.tellPeer c q m a r).waits = s.waits := rfl
@[simp] theorem State.tellPeer_wakes (c : Nat) (q : RemoteParty) (m a : Nat) (r : RemoteAccess) : (s.tellPeer c q m a r).wakes = s.wakes := rfl
@[simp] theorem State.tellPeer_posts (c : Nat) (q : RemoteParty) (m a : Nat) (r : RemoteAccess) : (s.tellPeer c q m a r).posts = s.posts := rfl
@[simp] theorem State.tellPeer_jobs (c : Nat) (q : RemoteParty) (m a : Nat) (r : RemoteAccess) : (s.tellPeer c q m a r).jobs = s.jobs := rfl
@[simp] theorem State.tellPeer_versions (c : Nat) (q : RemoteParty) (m a : Nat) (r : RemoteAccess) : (s.tellPeer c q m a r).versions = s.versions := rfl
@[simp] theorem State.tellPeer_parts (c : Nat) (q : RemoteParty) (m a : Nat) (r : RemoteAccess) : (s.tellPeer c q m a r).parts = s.parts := rfl
@[simp] theorem State.tellPeer_groups (c : Nat) (q : RemoteParty) (m a : Nat) (r : RemoteAccess) : (s.tellPeer c q m a r).groups = s.groups := rfl
@[simp] theorem State.tellPeer_records (c : Nat) (q : RemoteParty) (m a : Nat) (r : RemoteAccess) : (s.tellPeer c q m a r).records = s.records := rfl
@[simp] theorem State.tellPeer_slices (c : Nat) (q : RemoteParty) (m a : Nat) (r : RemoteAccess) : (s.tellPeer c q m a r).slices = s.slices := rfl
@[simp] theorem State.tellPeer_turns (c : Nat) (q : RemoteParty) (m a : Nat) (r : RemoteAccess) : (s.tellPeer c q m a r).turns = s.turns := rfl
@[simp] theorem State.tellPeer_sites (c : Nat) (q : RemoteParty) (m a : Nat) (r : RemoteAccess) : (s.tellPeer c q m a r).sites = s.sites := rfl
@[simp] theorem State.tellPeer_hmap (c : Nat) (q : RemoteParty) (m a : Nat) (r : RemoteAccess) : (s.tellPeer c q m a r).hmap = s.hmap := rfl
@[simp] theorem State.tellPeer_vbnd (c : Nat) (q : RemoteParty) (m a : Nat) (r : RemoteAccess) : (s.tellPeer c q m a r).vbnd = s.vbnd := rfl
@[simp] theorem State.tellPeer_ports (c : Nat) (q : RemoteParty) (m a : Nat) (r : RemoteAccess) : (s.tellPeer c q m a r).ports = s.ports := rfl
@[simp] theorem State.tellPeer_peers (c : Nat) (q : RemoteParty) (m a : Nat) (r : RemoteAccess) : (s.tellPeer c q m a r).peers = s.peers := rfl
@[simp] theorem State.tellPeer_bounds (c : Nat) (q : RemoteParty) (m a : Nat) (r : RemoteAccess) : (s.tellPeer c q m a r).bounds = s.bounds := rfl
@[simp] theorem State.tellPeer_bridge (c : Nat) (q : RemoteParty) (m a : Nat) (r : RemoteAccess) : (s.tellPeer c q m a r).bridge = s.bridge := rfl
@[simp] theorem State.tellPeer_mill (c : Nat) (q : RemoteParty) (m a : Nat) (r : RemoteAccess) : (s.tellPeer c q m a r).mill = s.mill := rfl
@[simp] theorem State.tellPeer_mid (c : Nat) (q : RemoteParty) (m a : Nat) (r : RemoteAccess) : (s.tellPeer c q m a r).mid = s.mid := rfl
@[simp] theorem State.tellPeer_inc (c : Nat) (q : RemoteParty) (m a : Nat) (r : RemoteAccess) : (s.tellPeer c q m a r).inc = s.inc := rfl
@[simp] theorem State.tellPeer_lostt (c : Nat) (q : RemoteParty) (m a : Nat) (r : RemoteAccess) : (s.tellPeer c q m a r).lostt = s.lostt := rfl
@[simp] theorem State.tellPeer_firmware (c : Nat) (q : RemoteParty) (m a : Nat) (r : RemoteAccess) : (s.tellPeer c q m a r).firmware = s.firmware := rfl
@[simp] theorem State.tellPeer_clk (c : Nat) (q : RemoteParty) (m a : Nat) (r : RemoteAccess) : (s.tellPeer c q m a r).clk = s.clk := rfl
@[simp] theorem State.tellPeer_agenda (c : Nat) (q : RemoteParty) (m a : Nat) (r : RemoteAccess) : (s.tellPeer c q m a r).agenda = s.agenda := rfl
@[simp] theorem State.tellPeer_opnd (c : Nat) (q : RemoteParty) (m a : Nat) (r : RemoteAccess) : (s.tellPeer c q m a r).opnd = s.opnd := rfl
@[simp] theorem State.tellPeer_last (c : Nat) (q : RemoteParty) (m a : Nat) (r : RemoteAccess) : (s.tellPeer c q m a r).last = s.last := rfl

@[simp] theorem State.retire_cur : s.retire.cur = s.cur := rfl
@[simp] theorem State.retire_others : s.retire.others = s.others := rfl
@[simp] theorem State.retire_cores : s.retire.cores = s.cores := rfl
@[simp] theorem State.retire_mem : s.retire.mem = s.mem := rfl
@[simp] theorem State.retire_keys : s.retire.keys = s.keys := rfl
@[simp] theorem State.retire_badLines : s.retire.badLines = s.badLines := rfl
@[simp] theorem State.retire_scribbled : s.retire.scribbled = s.scribbled := rfl
@[simp] theorem State.retire_net : s.retire.net = s.net := rfl
@[simp] theorem State.retire_recent : s.retire.recent = s.recent := rfl
@[simp] theorem State.retire_views : s.retire.views = s.views := rfl
@[simp] theorem State.retire_tlb : s.retire.tlb = s.tlb := rfl
@[simp] theorem State.retire_ptrs : s.retire.ptrs = s.ptrs := rfl
@[simp] theorem State.retire_walks : s.retire.walks = s.walks := rfl
@[simp] theorem State.retire_frames : s.retire.frames = s.frames := rfl
@[simp] theorem State.retire_sentRels : s.retire.sentRels = s.sentRels := rfl
@[simp] theorem State.retire_givenUp : s.retire.givenUp = s.givenUp := rfl
@[simp] theorem State.retire_sealedAt : s.retire.sealedAt = s.sealedAt := rfl
@[simp] theorem State.retire_invs : s.retire.invs = s.invs := rfl
@[simp] theorem State.retire_cells : s.retire.cells = s.cells := rfl
@[simp] theorem State.retire_waits : s.retire.waits = s.waits := rfl
@[simp] theorem State.retire_wakes : s.retire.wakes = s.wakes := rfl
@[simp] theorem State.retire_posts : s.retire.posts = s.posts := rfl
@[simp] theorem State.retire_jobs : s.retire.jobs = s.jobs := rfl
@[simp] theorem State.retire_versions : s.retire.versions = s.versions := rfl
@[simp] theorem State.retire_parts : s.retire.parts = s.parts := rfl
@[simp] theorem State.retire_records : s.retire.records = s.records := rfl
@[simp] theorem State.retire_slices : s.retire.slices = s.slices := rfl
@[simp] theorem State.retire_turns : s.retire.turns = s.turns := rfl
@[simp] theorem State.retire_sites : s.retire.sites = s.sites := rfl
@[simp] theorem State.retire_hmap : s.retire.hmap = s.hmap := rfl
@[simp] theorem State.retire_vbnd : s.retire.vbnd = s.vbnd := rfl
@[simp] theorem State.retire_ports : s.retire.ports = s.ports := rfl
@[simp] theorem State.retire_peers : s.retire.peers = s.peers := rfl
@[simp] theorem State.retire_bounds : s.retire.bounds = s.bounds := rfl
@[simp] theorem State.retire_bridge : s.retire.bridge = s.bridge := rfl
@[simp] theorem State.retire_mill : s.retire.mill = s.mill := rfl
@[simp] theorem State.retire_out : s.retire.out = s.out := rfl
@[simp] theorem State.retire_mid : s.retire.mid = s.mid := rfl
@[simp] theorem State.retire_inc : s.retire.inc = s.inc := rfl
@[simp] theorem State.retire_lostt : s.retire.lostt = s.lostt := rfl
@[simp] theorem State.retire_firmware : s.retire.firmware = s.firmware := rfl
@[simp] theorem State.retire_clk : s.retire.clk = s.clk := rfl
@[simp] theorem State.retire_agenda : s.retire.agenda = s.agenda := rfl
@[simp] theorem State.retire_opnd : s.retire.opnd = s.opnd := rfl
@[simp] theorem State.retire_last : s.retire.last = s.last := rfl
@[simp] theorem State.retire_fresh : s.retire.fresh = s.fresh := rfl

@[simp] theorem State.updJob_cur (n : Nat) (f : Job → Job) : (s.updJob n f).cur = s.cur := rfl
@[simp] theorem State.updJob_others (n : Nat) (f : Job → Job) : (s.updJob n f).others = s.others := rfl
@[simp] theorem State.updJob_cores (n : Nat) (f : Job → Job) : (s.updJob n f).cores = s.cores := rfl
@[simp] theorem State.updJob_mem (n : Nat) (f : Job → Job) : (s.updJob n f).mem = s.mem := rfl
@[simp] theorem State.updJob_keys (n : Nat) (f : Job → Job) : (s.updJob n f).keys = s.keys := rfl
@[simp] theorem State.updJob_badLines (n : Nat) (f : Job → Job) : (s.updJob n f).badLines = s.badLines := rfl
@[simp] theorem State.updJob_scribbled (n : Nat) (f : Job → Job) : (s.updJob n f).scribbled = s.scribbled := rfl
@[simp] theorem State.updJob_net (n : Nat) (f : Job → Job) : (s.updJob n f).net = s.net := rfl
@[simp] theorem State.updJob_recent (n : Nat) (f : Job → Job) : (s.updJob n f).recent = s.recent := rfl
@[simp] theorem State.updJob_views (n : Nat) (f : Job → Job) : (s.updJob n f).views = s.views := rfl
@[simp] theorem State.updJob_tlb (n : Nat) (f : Job → Job) : (s.updJob n f).tlb = s.tlb := rfl
@[simp] theorem State.updJob_ptrs (n : Nat) (f : Job → Job) : (s.updJob n f).ptrs = s.ptrs := rfl
@[simp] theorem State.updJob_walks (n : Nat) (f : Job → Job) : (s.updJob n f).walks = s.walks := rfl
@[simp] theorem State.updJob_frames (n : Nat) (f : Job → Job) : (s.updJob n f).frames = s.frames := rfl
@[simp] theorem State.updJob_sentRels (n : Nat) (f : Job → Job) : (s.updJob n f).sentRels = s.sentRels := rfl
@[simp] theorem State.updJob_givenUp (n : Nat) (f : Job → Job) : (s.updJob n f).givenUp = s.givenUp := rfl
@[simp] theorem State.updJob_sealedAt (n : Nat) (f : Job → Job) : (s.updJob n f).sealedAt = s.sealedAt := rfl
@[simp] theorem State.updJob_invs (n : Nat) (f : Job → Job) : (s.updJob n f).invs = s.invs := rfl
@[simp] theorem State.updJob_cells (n : Nat) (f : Job → Job) : (s.updJob n f).cells = s.cells := rfl
@[simp] theorem State.updJob_waits (n : Nat) (f : Job → Job) : (s.updJob n f).waits = s.waits := rfl
@[simp] theorem State.updJob_wakes (n : Nat) (f : Job → Job) : (s.updJob n f).wakes = s.wakes := rfl
@[simp] theorem State.updJob_posts (n : Nat) (f : Job → Job) : (s.updJob n f).posts = s.posts := rfl
@[simp] theorem State.updJob_versions (n : Nat) (f : Job → Job) : (s.updJob n f).versions = s.versions := rfl
@[simp] theorem State.updJob_parts (n : Nat) (f : Job → Job) : (s.updJob n f).parts = s.parts := rfl
@[simp] theorem State.updJob_groups (n : Nat) (f : Job → Job) : (s.updJob n f).groups = s.groups := rfl
@[simp] theorem State.updJob_records (n : Nat) (f : Job → Job) : (s.updJob n f).records = s.records := rfl
@[simp] theorem State.updJob_slices (n : Nat) (f : Job → Job) : (s.updJob n f).slices = s.slices := rfl
@[simp] theorem State.updJob_turns (n : Nat) (f : Job → Job) : (s.updJob n f).turns = s.turns := rfl
@[simp] theorem State.updJob_sites (n : Nat) (f : Job → Job) : (s.updJob n f).sites = s.sites := rfl
@[simp] theorem State.updJob_hmap (n : Nat) (f : Job → Job) : (s.updJob n f).hmap = s.hmap := rfl
@[simp] theorem State.updJob_vbnd (n : Nat) (f : Job → Job) : (s.updJob n f).vbnd = s.vbnd := rfl
@[simp] theorem State.updJob_ports (n : Nat) (f : Job → Job) : (s.updJob n f).ports = s.ports := rfl
@[simp] theorem State.updJob_peers (n : Nat) (f : Job → Job) : (s.updJob n f).peers = s.peers := rfl
@[simp] theorem State.updJob_bounds (n : Nat) (f : Job → Job) : (s.updJob n f).bounds = s.bounds := rfl
@[simp] theorem State.updJob_bridge (n : Nat) (f : Job → Job) : (s.updJob n f).bridge = s.bridge := rfl
@[simp] theorem State.updJob_mill (n : Nat) (f : Job → Job) : (s.updJob n f).mill = s.mill := rfl
@[simp] theorem State.updJob_out (n : Nat) (f : Job → Job) : (s.updJob n f).out = s.out := rfl
@[simp] theorem State.updJob_mid (n : Nat) (f : Job → Job) : (s.updJob n f).mid = s.mid := rfl
@[simp] theorem State.updJob_inc (n : Nat) (f : Job → Job) : (s.updJob n f).inc = s.inc := rfl
@[simp] theorem State.updJob_lostt (n : Nat) (f : Job → Job) : (s.updJob n f).lostt = s.lostt := rfl
@[simp] theorem State.updJob_firmware (n : Nat) (f : Job → Job) : (s.updJob n f).firmware = s.firmware := rfl
@[simp] theorem State.updJob_clk (n : Nat) (f : Job → Job) : (s.updJob n f).clk = s.clk := rfl
@[simp] theorem State.updJob_agenda (n : Nat) (f : Job → Job) : (s.updJob n f).agenda = s.agenda := rfl
@[simp] theorem State.updJob_opnd (n : Nat) (f : Job → Job) : (s.updJob n f).opnd = s.opnd := rfl
@[simp] theorem State.updJob_last (n : Nat) (f : Job → Job) : (s.updJob n f).last = s.last := rfl
@[simp] theorem State.updJob_fresh (n : Nat) (f : Job → Job) : (s.updJob n f).fresh = s.fresh := rfl

@[simp] theorem State.updQueue_cur (c l : Nat) (f : LaunchQueue → LaunchQueue) : (s.updQueue c l f).cur = s.cur := rfl
@[simp] theorem State.updQueue_others (c l : Nat) (f : LaunchQueue → LaunchQueue) : (s.updQueue c l f).others = s.others := rfl
@[simp] theorem State.updQueue_cores (c l : Nat) (f : LaunchQueue → LaunchQueue) : (s.updQueue c l f).cores = s.cores := rfl
@[simp] theorem State.updQueue_mem (c l : Nat) (f : LaunchQueue → LaunchQueue) : (s.updQueue c l f).mem = s.mem := rfl
@[simp] theorem State.updQueue_keys (c l : Nat) (f : LaunchQueue → LaunchQueue) : (s.updQueue c l f).keys = s.keys := rfl
@[simp] theorem State.updQueue_badLines (c l : Nat) (f : LaunchQueue → LaunchQueue) : (s.updQueue c l f).badLines = s.badLines := rfl
@[simp] theorem State.updQueue_scribbled (c l : Nat) (f : LaunchQueue → LaunchQueue) : (s.updQueue c l f).scribbled = s.scribbled := rfl
@[simp] theorem State.updQueue_net (c l : Nat) (f : LaunchQueue → LaunchQueue) : (s.updQueue c l f).net = s.net := rfl
@[simp] theorem State.updQueue_recent (c l : Nat) (f : LaunchQueue → LaunchQueue) : (s.updQueue c l f).recent = s.recent := rfl
@[simp] theorem State.updQueue_views (c l : Nat) (f : LaunchQueue → LaunchQueue) : (s.updQueue c l f).views = s.views := rfl
@[simp] theorem State.updQueue_tlb (c l : Nat) (f : LaunchQueue → LaunchQueue) : (s.updQueue c l f).tlb = s.tlb := rfl
@[simp] theorem State.updQueue_ptrs (c l : Nat) (f : LaunchQueue → LaunchQueue) : (s.updQueue c l f).ptrs = s.ptrs := rfl
@[simp] theorem State.updQueue_walks (c l : Nat) (f : LaunchQueue → LaunchQueue) : (s.updQueue c l f).walks = s.walks := rfl
@[simp] theorem State.updQueue_frames (c l : Nat) (f : LaunchQueue → LaunchQueue) : (s.updQueue c l f).frames = s.frames := rfl
@[simp] theorem State.updQueue_sentRels (c l : Nat) (f : LaunchQueue → LaunchQueue) : (s.updQueue c l f).sentRels = s.sentRels := rfl
@[simp] theorem State.updQueue_givenUp (c l : Nat) (f : LaunchQueue → LaunchQueue) : (s.updQueue c l f).givenUp = s.givenUp := rfl
@[simp] theorem State.updQueue_sealedAt (c l : Nat) (f : LaunchQueue → LaunchQueue) : (s.updQueue c l f).sealedAt = s.sealedAt := rfl
@[simp] theorem State.updQueue_invs (c l : Nat) (f : LaunchQueue → LaunchQueue) : (s.updQueue c l f).invs = s.invs := rfl
@[simp] theorem State.updQueue_cells (c l : Nat) (f : LaunchQueue → LaunchQueue) : (s.updQueue c l f).cells = s.cells := rfl
@[simp] theorem State.updQueue_waits (c l : Nat) (f : LaunchQueue → LaunchQueue) : (s.updQueue c l f).waits = s.waits := rfl
@[simp] theorem State.updQueue_wakes (c l : Nat) (f : LaunchQueue → LaunchQueue) : (s.updQueue c l f).wakes = s.wakes := rfl
@[simp] theorem State.updQueue_posts (c l : Nat) (f : LaunchQueue → LaunchQueue) : (s.updQueue c l f).posts = s.posts := rfl
@[simp] theorem State.updQueue_jobs (c l : Nat) (f : LaunchQueue → LaunchQueue) : (s.updQueue c l f).jobs = s.jobs := rfl
@[simp] theorem State.updQueue_versions (c l : Nat) (f : LaunchQueue → LaunchQueue) : (s.updQueue c l f).versions = s.versions := rfl
@[simp] theorem State.updQueue_groups (c l : Nat) (f : LaunchQueue → LaunchQueue) : (s.updQueue c l f).groups = s.groups := rfl
@[simp] theorem State.updQueue_records (c l : Nat) (f : LaunchQueue → LaunchQueue) : (s.updQueue c l f).records = s.records := rfl
@[simp] theorem State.updQueue_slices (c l : Nat) (f : LaunchQueue → LaunchQueue) : (s.updQueue c l f).slices = s.slices := rfl
@[simp] theorem State.updQueue_turns (c l : Nat) (f : LaunchQueue → LaunchQueue) : (s.updQueue c l f).turns = s.turns := rfl
@[simp] theorem State.updQueue_sites (c l : Nat) (f : LaunchQueue → LaunchQueue) : (s.updQueue c l f).sites = s.sites := rfl
@[simp] theorem State.updQueue_hmap (c l : Nat) (f : LaunchQueue → LaunchQueue) : (s.updQueue c l f).hmap = s.hmap := rfl
@[simp] theorem State.updQueue_vbnd (c l : Nat) (f : LaunchQueue → LaunchQueue) : (s.updQueue c l f).vbnd = s.vbnd := rfl
@[simp] theorem State.updQueue_ports (c l : Nat) (f : LaunchQueue → LaunchQueue) : (s.updQueue c l f).ports = s.ports := rfl
@[simp] theorem State.updQueue_peers (c l : Nat) (f : LaunchQueue → LaunchQueue) : (s.updQueue c l f).peers = s.peers := rfl
@[simp] theorem State.updQueue_bounds (c l : Nat) (f : LaunchQueue → LaunchQueue) : (s.updQueue c l f).bounds = s.bounds := rfl
@[simp] theorem State.updQueue_bridge (c l : Nat) (f : LaunchQueue → LaunchQueue) : (s.updQueue c l f).bridge = s.bridge := rfl
@[simp] theorem State.updQueue_mill (c l : Nat) (f : LaunchQueue → LaunchQueue) : (s.updQueue c l f).mill = s.mill := rfl
@[simp] theorem State.updQueue_out (c l : Nat) (f : LaunchQueue → LaunchQueue) : (s.updQueue c l f).out = s.out := rfl
@[simp] theorem State.updQueue_mid (c l : Nat) (f : LaunchQueue → LaunchQueue) : (s.updQueue c l f).mid = s.mid := rfl
@[simp] theorem State.updQueue_inc (c l : Nat) (f : LaunchQueue → LaunchQueue) : (s.updQueue c l f).inc = s.inc := rfl
@[simp] theorem State.updQueue_lostt (c l : Nat) (f : LaunchQueue → LaunchQueue) : (s.updQueue c l f).lostt = s.lostt := rfl
@[simp] theorem State.updQueue_firmware (c l : Nat) (f : LaunchQueue → LaunchQueue) : (s.updQueue c l f).firmware = s.firmware := rfl
@[simp] theorem State.updQueue_clk (c l : Nat) (f : LaunchQueue → LaunchQueue) : (s.updQueue c l f).clk = s.clk := rfl
@[simp] theorem State.updQueue_agenda (c l : Nat) (f : LaunchQueue → LaunchQueue) : (s.updQueue c l f).agenda = s.agenda := rfl
@[simp] theorem State.updQueue_opnd (c l : Nat) (f : LaunchQueue → LaunchQueue) : (s.updQueue c l f).opnd = s.opnd := rfl
@[simp] theorem State.updQueue_last (c l : Nat) (f : LaunchQueue → LaunchQueue) : (s.updQueue c l f).last = s.last := rfl
@[simp] theorem State.updQueue_fresh (c l : Nat) (f : LaunchQueue → LaunchQueue) : (s.updQueue c l f).fresh = s.fresh := rfl

@[simp] theorem State.updRequest_cur (n : Nat) (f : Request → Request) : (s.updRequest n f).cur = s.cur := rfl
@[simp] theorem State.updRequest_others (n : Nat) (f : Request → Request) : (s.updRequest n f).others = s.others := rfl
@[simp] theorem State.updRequest_cores (n : Nat) (f : Request → Request) : (s.updRequest n f).cores = s.cores := rfl
@[simp] theorem State.updRequest_mem (n : Nat) (f : Request → Request) : (s.updRequest n f).mem = s.mem := rfl
@[simp] theorem State.updRequest_keys (n : Nat) (f : Request → Request) : (s.updRequest n f).keys = s.keys := rfl
@[simp] theorem State.updRequest_badLines (n : Nat) (f : Request → Request) : (s.updRequest n f).badLines = s.badLines := rfl
@[simp] theorem State.updRequest_scribbled (n : Nat) (f : Request → Request) : (s.updRequest n f).scribbled = s.scribbled := rfl
@[simp] theorem State.updRequest_recent (n : Nat) (f : Request → Request) : (s.updRequest n f).recent = s.recent := rfl
@[simp] theorem State.updRequest_views (n : Nat) (f : Request → Request) : (s.updRequest n f).views = s.views := rfl
@[simp] theorem State.updRequest_tlb (n : Nat) (f : Request → Request) : (s.updRequest n f).tlb = s.tlb := rfl
@[simp] theorem State.updRequest_ptrs (n : Nat) (f : Request → Request) : (s.updRequest n f).ptrs = s.ptrs := rfl
@[simp] theorem State.updRequest_walks (n : Nat) (f : Request → Request) : (s.updRequest n f).walks = s.walks := rfl
@[simp] theorem State.updRequest_frames (n : Nat) (f : Request → Request) : (s.updRequest n f).frames = s.frames := rfl
@[simp] theorem State.updRequest_sentRels (n : Nat) (f : Request → Request) : (s.updRequest n f).sentRels = s.sentRels := rfl
@[simp] theorem State.updRequest_givenUp (n : Nat) (f : Request → Request) : (s.updRequest n f).givenUp = s.givenUp := rfl
@[simp] theorem State.updRequest_sealedAt (n : Nat) (f : Request → Request) : (s.updRequest n f).sealedAt = s.sealedAt := rfl
@[simp] theorem State.updRequest_invs (n : Nat) (f : Request → Request) : (s.updRequest n f).invs = s.invs := rfl
@[simp] theorem State.updRequest_cells (n : Nat) (f : Request → Request) : (s.updRequest n f).cells = s.cells := rfl
@[simp] theorem State.updRequest_waits (n : Nat) (f : Request → Request) : (s.updRequest n f).waits = s.waits := rfl
@[simp] theorem State.updRequest_wakes (n : Nat) (f : Request → Request) : (s.updRequest n f).wakes = s.wakes := rfl
@[simp] theorem State.updRequest_posts (n : Nat) (f : Request → Request) : (s.updRequest n f).posts = s.posts := rfl
@[simp] theorem State.updRequest_jobs (n : Nat) (f : Request → Request) : (s.updRequest n f).jobs = s.jobs := rfl
@[simp] theorem State.updRequest_versions (n : Nat) (f : Request → Request) : (s.updRequest n f).versions = s.versions := rfl
@[simp] theorem State.updRequest_parts (n : Nat) (f : Request → Request) : (s.updRequest n f).parts = s.parts := rfl
@[simp] theorem State.updRequest_groups (n : Nat) (f : Request → Request) : (s.updRequest n f).groups = s.groups := rfl
@[simp] theorem State.updRequest_records (n : Nat) (f : Request → Request) : (s.updRequest n f).records = s.records := rfl
@[simp] theorem State.updRequest_slices (n : Nat) (f : Request → Request) : (s.updRequest n f).slices = s.slices := rfl
@[simp] theorem State.updRequest_turns (n : Nat) (f : Request → Request) : (s.updRequest n f).turns = s.turns := rfl
@[simp] theorem State.updRequest_sites (n : Nat) (f : Request → Request) : (s.updRequest n f).sites = s.sites := rfl
@[simp] theorem State.updRequest_hmap (n : Nat) (f : Request → Request) : (s.updRequest n f).hmap = s.hmap := rfl
@[simp] theorem State.updRequest_vbnd (n : Nat) (f : Request → Request) : (s.updRequest n f).vbnd = s.vbnd := rfl
@[simp] theorem State.updRequest_ports (n : Nat) (f : Request → Request) : (s.updRequest n f).ports = s.ports := rfl
@[simp] theorem State.updRequest_peers (n : Nat) (f : Request → Request) : (s.updRequest n f).peers = s.peers := rfl
@[simp] theorem State.updRequest_bounds (n : Nat) (f : Request → Request) : (s.updRequest n f).bounds = s.bounds := rfl
@[simp] theorem State.updRequest_bridge (n : Nat) (f : Request → Request) : (s.updRequest n f).bridge = s.bridge := rfl
@[simp] theorem State.updRequest_mill (n : Nat) (f : Request → Request) : (s.updRequest n f).mill = s.mill := rfl
@[simp] theorem State.updRequest_out (n : Nat) (f : Request → Request) : (s.updRequest n f).out = s.out := rfl
@[simp] theorem State.updRequest_mid (n : Nat) (f : Request → Request) : (s.updRequest n f).mid = s.mid := rfl
@[simp] theorem State.updRequest_inc (n : Nat) (f : Request → Request) : (s.updRequest n f).inc = s.inc := rfl
@[simp] theorem State.updRequest_lostt (n : Nat) (f : Request → Request) : (s.updRequest n f).lostt = s.lostt := rfl
@[simp] theorem State.updRequest_firmware (n : Nat) (f : Request → Request) : (s.updRequest n f).firmware = s.firmware := rfl
@[simp] theorem State.updRequest_clk (n : Nat) (f : Request → Request) : (s.updRequest n f).clk = s.clk := rfl
@[simp] theorem State.updRequest_agenda (n : Nat) (f : Request → Request) : (s.updRequest n f).agenda = s.agenda := rfl
@[simp] theorem State.updRequest_opnd (n : Nat) (f : Request → Request) : (s.updRequest n f).opnd = s.opnd := rfl
@[simp] theorem State.updRequest_last (n : Nat) (f : Request → Request) : (s.updRequest n f).last = s.last := rfl
@[simp] theorem State.updRequest_fresh (n : Nat) (f : Request → Request) : (s.updRequest n f).fresh = s.fresh := rfl

@[simp] theorem State.respond_cur (k : Packet) (a : Answer) : (s.respond k a).cur = s.cur := rfl
@[simp] theorem State.respond_others (k : Packet) (a : Answer) : (s.respond k a).others = s.others := rfl
@[simp] theorem State.respond_cores (k : Packet) (a : Answer) : (s.respond k a).cores = s.cores := rfl
@[simp] theorem State.respond_mem (k : Packet) (a : Answer) : (s.respond k a).mem = s.mem := rfl
@[simp] theorem State.respond_keys (k : Packet) (a : Answer) : (s.respond k a).keys = s.keys := rfl
@[simp] theorem State.respond_badLines (k : Packet) (a : Answer) : (s.respond k a).badLines = s.badLines := rfl
@[simp] theorem State.respond_scribbled (k : Packet) (a : Answer) : (s.respond k a).scribbled = s.scribbled := rfl
@[simp] theorem State.respond_net (k : Packet) (a : Answer) : (s.respond k a).net = s.net := rfl
@[simp] theorem State.respond_recent (k : Packet) (a : Answer) : (s.respond k a).recent = s.recent := rfl
@[simp] theorem State.respond_views (k : Packet) (a : Answer) : (s.respond k a).views = s.views := rfl
@[simp] theorem State.respond_tlb (k : Packet) (a : Answer) : (s.respond k a).tlb = s.tlb := rfl
@[simp] theorem State.respond_ptrs (k : Packet) (a : Answer) : (s.respond k a).ptrs = s.ptrs := rfl
@[simp] theorem State.respond_walks (k : Packet) (a : Answer) : (s.respond k a).walks = s.walks := rfl
@[simp] theorem State.respond_frames (k : Packet) (a : Answer) : (s.respond k a).frames = s.frames := rfl
@[simp] theorem State.respond_sentRels (k : Packet) (a : Answer) : (s.respond k a).sentRels = s.sentRels := rfl
@[simp] theorem State.respond_givenUp (k : Packet) (a : Answer) : (s.respond k a).givenUp = s.givenUp := rfl
@[simp] theorem State.respond_sealedAt (k : Packet) (a : Answer) : (s.respond k a).sealedAt = s.sealedAt := rfl
@[simp] theorem State.respond_invs (k : Packet) (a : Answer) : (s.respond k a).invs = s.invs := rfl
@[simp] theorem State.respond_cells (k : Packet) (a : Answer) : (s.respond k a).cells = s.cells := rfl
@[simp] theorem State.respond_waits (k : Packet) (a : Answer) : (s.respond k a).waits = s.waits := rfl
@[simp] theorem State.respond_wakes (k : Packet) (a : Answer) : (s.respond k a).wakes = s.wakes := rfl
@[simp] theorem State.respond_posts (k : Packet) (a : Answer) : (s.respond k a).posts = s.posts := rfl
@[simp] theorem State.respond_jobs (k : Packet) (a : Answer) : (s.respond k a).jobs = s.jobs := rfl
@[simp] theorem State.respond_versions (k : Packet) (a : Answer) : (s.respond k a).versions = s.versions := rfl
@[simp] theorem State.respond_parts (k : Packet) (a : Answer) : (s.respond k a).parts = s.parts := rfl
@[simp] theorem State.respond_groups (k : Packet) (a : Answer) : (s.respond k a).groups = s.groups := rfl
@[simp] theorem State.respond_records (k : Packet) (a : Answer) : (s.respond k a).records = s.records := rfl
@[simp] theorem State.respond_slices (k : Packet) (a : Answer) : (s.respond k a).slices = s.slices := rfl
@[simp] theorem State.respond_turns (k : Packet) (a : Answer) : (s.respond k a).turns = s.turns := rfl
@[simp] theorem State.respond_sites (k : Packet) (a : Answer) : (s.respond k a).sites = s.sites := rfl
@[simp] theorem State.respond_hmap (k : Packet) (a : Answer) : (s.respond k a).hmap = s.hmap := rfl
@[simp] theorem State.respond_vbnd (k : Packet) (a : Answer) : (s.respond k a).vbnd = s.vbnd := rfl
@[simp] theorem State.respond_ports (k : Packet) (a : Answer) : (s.respond k a).ports = s.ports := rfl
@[simp] theorem State.respond_peers (k : Packet) (a : Answer) : (s.respond k a).peers = s.peers := rfl
@[simp] theorem State.respond_bounds (k : Packet) (a : Answer) : (s.respond k a).bounds = s.bounds := rfl
@[simp] theorem State.respond_bridge (k : Packet) (a : Answer) : (s.respond k a).bridge = s.bridge := rfl
@[simp] theorem State.respond_mill (k : Packet) (a : Answer) : (s.respond k a).mill = s.mill := rfl
@[simp] theorem State.respond_mid (k : Packet) (a : Answer) : (s.respond k a).mid = s.mid := rfl
@[simp] theorem State.respond_inc (k : Packet) (a : Answer) : (s.respond k a).inc = s.inc := rfl
@[simp] theorem State.respond_lostt (k : Packet) (a : Answer) : (s.respond k a).lostt = s.lostt := rfl
@[simp] theorem State.respond_firmware (k : Packet) (a : Answer) : (s.respond k a).firmware = s.firmware := rfl
@[simp] theorem State.respond_clk (k : Packet) (a : Answer) : (s.respond k a).clk = s.clk := rfl
@[simp] theorem State.respond_agenda (k : Packet) (a : Answer) : (s.respond k a).agenda = s.agenda := rfl
@[simp] theorem State.respond_opnd (k : Packet) (a : Answer) : (s.respond k a).opnd = s.opnd := rfl
@[simp] theorem State.respond_last (k : Packet) (a : Answer) : (s.respond k a).last = s.last := rfl
@[simp] theorem State.respond_fresh (k : Packet) (a : Answer) : (s.respond k a).fresh = s.fresh := rfl

@[simp] theorem State.notePaths_cur : s.notePaths.cur = s.cur := rfl
@[simp] theorem State.notePaths_others : s.notePaths.others = s.others := rfl
@[simp] theorem State.notePaths_cores : s.notePaths.cores = s.cores := rfl
@[simp] theorem State.notePaths_mem : s.notePaths.mem = s.mem := rfl
@[simp] theorem State.notePaths_keys : s.notePaths.keys = s.keys := rfl
@[simp] theorem State.notePaths_badLines : s.notePaths.badLines = s.badLines := rfl
@[simp] theorem State.notePaths_scribbled : s.notePaths.scribbled = s.scribbled := rfl
@[simp] theorem State.notePaths_net : s.notePaths.net = s.net := rfl
@[simp] theorem State.notePaths_recent : s.notePaths.recent = s.recent := rfl
@[simp] theorem State.notePaths_views : s.notePaths.views = s.views := rfl
@[simp] theorem State.notePaths_tlb : s.notePaths.tlb = s.tlb := rfl
@[simp] theorem State.notePaths_ptrs : s.notePaths.ptrs = s.ptrs := rfl
@[simp] theorem State.notePaths_walks : s.notePaths.walks = s.walks := rfl
@[simp] theorem State.notePaths_frames : s.notePaths.frames = s.frames := rfl
@[simp] theorem State.notePaths_sentRels : s.notePaths.sentRels = s.sentRels := rfl
@[simp] theorem State.notePaths_givenUp : s.notePaths.givenUp = s.givenUp := rfl
@[simp] theorem State.notePaths_sealedAt : s.notePaths.sealedAt = s.sealedAt := rfl
@[simp] theorem State.notePaths_invs : s.notePaths.invs = s.invs := rfl
@[simp] theorem State.notePaths_cells : s.notePaths.cells = s.cells := rfl
@[simp] theorem State.notePaths_waits : s.notePaths.waits = s.waits := rfl
@[simp] theorem State.notePaths_wakes : s.notePaths.wakes = s.wakes := rfl
@[simp] theorem State.notePaths_posts : s.notePaths.posts = s.posts := rfl
@[simp] theorem State.notePaths_jobs : s.notePaths.jobs = s.jobs := rfl
@[simp] theorem State.notePaths_versions : s.notePaths.versions = s.versions := rfl
@[simp] theorem State.notePaths_parts : s.notePaths.parts = s.parts := rfl
@[simp] theorem State.notePaths_groups : s.notePaths.groups = s.groups := rfl
@[simp] theorem State.notePaths_records : s.notePaths.records = s.records := rfl
@[simp] theorem State.notePaths_slices : s.notePaths.slices = s.slices := rfl
@[simp] theorem State.notePaths_turns : s.notePaths.turns = s.turns := rfl
@[simp] theorem State.notePaths_sites : s.notePaths.sites = s.sites := rfl
@[simp] theorem State.notePaths_hmap : s.notePaths.hmap = s.hmap := rfl
@[simp] theorem State.notePaths_vbnd : s.notePaths.vbnd = s.vbnd := rfl
@[simp] theorem State.notePaths_ports : s.notePaths.ports = s.ports := rfl
@[simp] theorem State.notePaths_bounds : s.notePaths.bounds = s.bounds := rfl
@[simp] theorem State.notePaths_bridge : s.notePaths.bridge = s.bridge := rfl
@[simp] theorem State.notePaths_mill : s.notePaths.mill = s.mill := rfl
@[simp] theorem State.notePaths_out : s.notePaths.out = s.out := rfl
@[simp] theorem State.notePaths_mid : s.notePaths.mid = s.mid := rfl
@[simp] theorem State.notePaths_inc : s.notePaths.inc = s.inc := rfl
@[simp] theorem State.notePaths_lostt : s.notePaths.lostt = s.lostt := rfl
@[simp] theorem State.notePaths_firmware : s.notePaths.firmware = s.firmware := rfl
@[simp] theorem State.notePaths_clk : s.notePaths.clk = s.clk := rfl
@[simp] theorem State.notePaths_agenda : s.notePaths.agenda = s.agenda := rfl
@[simp] theorem State.notePaths_opnd : s.notePaths.opnd = s.opnd := rfl
@[simp] theorem State.notePaths_last : s.notePaths.last = s.last := rfl
@[simp] theorem State.notePaths_fresh : s.notePaths.fresh = s.fresh := rfl

@[simp] theorem State.advance_cur (n : Nat) : (s.advance n).cur = s.cur := rfl
@[simp] theorem State.advance_others (n : Nat) : (s.advance n).others = s.others := rfl
@[simp] theorem State.advance_cores (n : Nat) : (s.advance n).cores = s.cores := rfl
@[simp] theorem State.advance_mem (n : Nat) : (s.advance n).mem = s.mem := rfl
@[simp] theorem State.advance_keys (n : Nat) : (s.advance n).keys = s.keys := rfl
@[simp] theorem State.advance_badLines (n : Nat) : (s.advance n).badLines = s.badLines := rfl
@[simp] theorem State.advance_scribbled (n : Nat) : (s.advance n).scribbled = s.scribbled := rfl
@[simp] theorem State.advance_net (n : Nat) : (s.advance n).net = s.net := rfl
@[simp] theorem State.advance_recent (n : Nat) : (s.advance n).recent = s.recent := rfl
@[simp] theorem State.advance_views (n : Nat) : (s.advance n).views = s.views := rfl
@[simp] theorem State.advance_tlb (n : Nat) : (s.advance n).tlb = s.tlb := rfl
@[simp] theorem State.advance_ptrs (n : Nat) : (s.advance n).ptrs = s.ptrs := rfl
@[simp] theorem State.advance_walks (n : Nat) : (s.advance n).walks = s.walks := rfl
@[simp] theorem State.advance_frames (n : Nat) : (s.advance n).frames = s.frames := rfl
@[simp] theorem State.advance_sentRels (n : Nat) : (s.advance n).sentRels = s.sentRels := rfl
@[simp] theorem State.advance_givenUp (n : Nat) : (s.advance n).givenUp = s.givenUp := rfl
@[simp] theorem State.advance_sealedAt (n : Nat) : (s.advance n).sealedAt = s.sealedAt := rfl
@[simp] theorem State.advance_invs (n : Nat) : (s.advance n).invs = s.invs := rfl
@[simp] theorem State.advance_cells (n : Nat) : (s.advance n).cells = s.cells := rfl
@[simp] theorem State.advance_waits (n : Nat) : (s.advance n).waits = s.waits := rfl
@[simp] theorem State.advance_wakes (n : Nat) : (s.advance n).wakes = s.wakes := rfl
@[simp] theorem State.advance_posts (n : Nat) : (s.advance n).posts = s.posts := rfl
@[simp] theorem State.advance_jobs (n : Nat) : (s.advance n).jobs = s.jobs := rfl
@[simp] theorem State.advance_versions (n : Nat) : (s.advance n).versions = s.versions := rfl
@[simp] theorem State.advance_groups (n : Nat) : (s.advance n).groups = s.groups := rfl
@[simp] theorem State.advance_records (n : Nat) : (s.advance n).records = s.records := rfl
@[simp] theorem State.advance_slices (n : Nat) : (s.advance n).slices = s.slices := rfl
@[simp] theorem State.advance_turns (n : Nat) : (s.advance n).turns = s.turns := rfl
@[simp] theorem State.advance_sites (n : Nat) : (s.advance n).sites = s.sites := rfl
@[simp] theorem State.advance_hmap (n : Nat) : (s.advance n).hmap = s.hmap := rfl
@[simp] theorem State.advance_vbnd (n : Nat) : (s.advance n).vbnd = s.vbnd := rfl
@[simp] theorem State.advance_ports (n : Nat) : (s.advance n).ports = s.ports := rfl
@[simp] theorem State.advance_peers (n : Nat) : (s.advance n).peers = s.peers := rfl
@[simp] theorem State.advance_bounds (n : Nat) : (s.advance n).bounds = s.bounds := rfl
@[simp] theorem State.advance_bridge (n : Nat) : (s.advance n).bridge = s.bridge := rfl
@[simp] theorem State.advance_mill (n : Nat) : (s.advance n).mill = s.mill := rfl
@[simp] theorem State.advance_out (n : Nat) : (s.advance n).out = s.out := rfl
@[simp] theorem State.advance_mid (n : Nat) : (s.advance n).mid = s.mid := rfl
@[simp] theorem State.advance_inc (n : Nat) : (s.advance n).inc = s.inc := rfl
@[simp] theorem State.advance_lostt (n : Nat) : (s.advance n).lostt = s.lostt := rfl
@[simp] theorem State.advance_firmware (n : Nat) : (s.advance n).firmware = s.firmware := rfl
@[simp] theorem State.advance_agenda (n : Nat) : (s.advance n).agenda = s.agenda := rfl
@[simp] theorem State.advance_opnd (n : Nat) : (s.advance n).opnd = s.opnd := rfl
@[simp] theorem State.advance_last (n : Nat) : (s.advance n).last = s.last := rfl
@[simp] theorem State.advance_fresh (n : Nat) : (s.advance n).fresh = s.fresh := rfl

@[simp] theorem State.noteRecord_cur (c : Nat) (r : Record) : (s.noteRecord c r).cur = s.cur := by unfold State.noteRecord; split <;> rfl
@[simp] theorem State.noteRecord_others (c : Nat) (r : Record) : (s.noteRecord c r).others = s.others := by unfold State.noteRecord; split <;> rfl
@[simp] theorem State.noteRecord_cores (c : Nat) (r : Record) : (s.noteRecord c r).cores = s.cores := by unfold State.noteRecord; split <;> rfl
@[simp] theorem State.noteRecord_mem (c : Nat) (r : Record) : (s.noteRecord c r).mem = s.mem := by unfold State.noteRecord; split <;> rfl
@[simp] theorem State.noteRecord_keys (c : Nat) (r : Record) : (s.noteRecord c r).keys = s.keys := by unfold State.noteRecord; split <;> rfl
@[simp] theorem State.noteRecord_badLines (c : Nat) (r : Record) : (s.noteRecord c r).badLines = s.badLines := by unfold State.noteRecord; split <;> rfl
@[simp] theorem State.noteRecord_scribbled (c : Nat) (r : Record) : (s.noteRecord c r).scribbled = s.scribbled := by unfold State.noteRecord; split <;> rfl
@[simp] theorem State.noteRecord_net (c : Nat) (r : Record) : (s.noteRecord c r).net = s.net := by unfold State.noteRecord; split <;> rfl
@[simp] theorem State.noteRecord_recent (c : Nat) (r : Record) : (s.noteRecord c r).recent = s.recent := by unfold State.noteRecord; split <;> rfl
@[simp] theorem State.noteRecord_views (c : Nat) (r : Record) : (s.noteRecord c r).views = s.views := by unfold State.noteRecord; split <;> rfl
@[simp] theorem State.noteRecord_tlb (c : Nat) (r : Record) : (s.noteRecord c r).tlb = s.tlb := by unfold State.noteRecord; split <;> rfl
@[simp] theorem State.noteRecord_ptrs (c : Nat) (r : Record) : (s.noteRecord c r).ptrs = s.ptrs := by unfold State.noteRecord; split <;> rfl
@[simp] theorem State.noteRecord_walks (c : Nat) (r : Record) : (s.noteRecord c r).walks = s.walks := by unfold State.noteRecord; split <;> rfl
@[simp] theorem State.noteRecord_frames (c : Nat) (r : Record) : (s.noteRecord c r).frames = s.frames := by unfold State.noteRecord; split <;> rfl
@[simp] theorem State.noteRecord_sentRels (c : Nat) (r : Record) : (s.noteRecord c r).sentRels = s.sentRels := by unfold State.noteRecord; split <;> rfl
@[simp] theorem State.noteRecord_givenUp (c : Nat) (r : Record) : (s.noteRecord c r).givenUp = s.givenUp := by unfold State.noteRecord; split <;> rfl
@[simp] theorem State.noteRecord_sealedAt (c : Nat) (r : Record) : (s.noteRecord c r).sealedAt = s.sealedAt := by unfold State.noteRecord; split <;> rfl
@[simp] theorem State.noteRecord_invs (c : Nat) (r : Record) : (s.noteRecord c r).invs = s.invs := by unfold State.noteRecord; split <;> rfl
@[simp] theorem State.noteRecord_cells (c : Nat) (r : Record) : (s.noteRecord c r).cells = s.cells := by unfold State.noteRecord; split <;> rfl
@[simp] theorem State.noteRecord_waits (c : Nat) (r : Record) : (s.noteRecord c r).waits = s.waits := by unfold State.noteRecord; split <;> rfl
@[simp] theorem State.noteRecord_wakes (c : Nat) (r : Record) : (s.noteRecord c r).wakes = s.wakes := by unfold State.noteRecord; split <;> rfl
@[simp] theorem State.noteRecord_posts (c : Nat) (r : Record) : (s.noteRecord c r).posts = s.posts := by unfold State.noteRecord; split <;> rfl
@[simp] theorem State.noteRecord_jobs (c : Nat) (r : Record) : (s.noteRecord c r).jobs = s.jobs := by unfold State.noteRecord; split <;> rfl
@[simp] theorem State.noteRecord_versions (c : Nat) (r : Record) : (s.noteRecord c r).versions = s.versions := by unfold State.noteRecord; split <;> rfl
@[simp] theorem State.noteRecord_parts (c : Nat) (r : Record) : (s.noteRecord c r).parts = s.parts := by unfold State.noteRecord; split <;> rfl
@[simp] theorem State.noteRecord_groups (c : Nat) (r : Record) : (s.noteRecord c r).groups = s.groups := by unfold State.noteRecord; split <;> rfl
@[simp] theorem State.noteRecord_records (c : Nat) (r : Record) : (s.noteRecord c r).records = s.records := by unfold State.noteRecord; split <;> rfl
@[simp] theorem State.noteRecord_slices (c : Nat) (r : Record) : (s.noteRecord c r).slices = s.slices := by unfold State.noteRecord; split <;> rfl
@[simp] theorem State.noteRecord_turns (c : Nat) (r : Record) : (s.noteRecord c r).turns = s.turns := by unfold State.noteRecord; split <;> rfl
@[simp] theorem State.noteRecord_hmap (c : Nat) (r : Record) : (s.noteRecord c r).hmap = s.hmap := by unfold State.noteRecord; split <;> rfl
@[simp] theorem State.noteRecord_vbnd (c : Nat) (r : Record) : (s.noteRecord c r).vbnd = s.vbnd := by unfold State.noteRecord; split <;> rfl
@[simp] theorem State.noteRecord_ports (c : Nat) (r : Record) : (s.noteRecord c r).ports = s.ports := by unfold State.noteRecord; split <;> rfl
@[simp] theorem State.noteRecord_peers (c : Nat) (r : Record) : (s.noteRecord c r).peers = s.peers := by unfold State.noteRecord; split <;> rfl
@[simp] theorem State.noteRecord_bounds (c : Nat) (r : Record) : (s.noteRecord c r).bounds = s.bounds := by unfold State.noteRecord; split <;> rfl
@[simp] theorem State.noteRecord_bridge (c : Nat) (r : Record) : (s.noteRecord c r).bridge = s.bridge := by unfold State.noteRecord; split <;> rfl
@[simp] theorem State.noteRecord_mill (c : Nat) (r : Record) : (s.noteRecord c r).mill = s.mill := by unfold State.noteRecord; split <;> rfl
@[simp] theorem State.noteRecord_out (c : Nat) (r : Record) : (s.noteRecord c r).out = s.out := by unfold State.noteRecord; split <;> rfl
@[simp] theorem State.noteRecord_mid (c : Nat) (r : Record) : (s.noteRecord c r).mid = s.mid := by unfold State.noteRecord; split <;> rfl
@[simp] theorem State.noteRecord_inc (c : Nat) (r : Record) : (s.noteRecord c r).inc = s.inc := by unfold State.noteRecord; split <;> rfl
@[simp] theorem State.noteRecord_lostt (c : Nat) (r : Record) : (s.noteRecord c r).lostt = s.lostt := by unfold State.noteRecord; split <;> rfl
@[simp] theorem State.noteRecord_firmware (c : Nat) (r : Record) : (s.noteRecord c r).firmware = s.firmware := by unfold State.noteRecord; split <;> rfl
@[simp] theorem State.noteRecord_clk (c : Nat) (r : Record) : (s.noteRecord c r).clk = s.clk := by unfold State.noteRecord; split <;> rfl
@[simp] theorem State.noteRecord_agenda (c : Nat) (r : Record) : (s.noteRecord c r).agenda = s.agenda := by unfold State.noteRecord; split <;> rfl
@[simp] theorem State.noteRecord_opnd (c : Nat) (r : Record) : (s.noteRecord c r).opnd = s.opnd := by unfold State.noteRecord; split <;> rfl
@[simp] theorem State.noteRecord_last (c : Nat) (r : Record) : (s.noteRecord c r).last = s.last := by unfold State.noteRecord; split <;> rfl
@[simp] theorem State.noteRecord_fresh (c : Nat) (r : Record) : (s.noteRecord c r).fresh = s.fresh := by unfold State.noteRecord; split <;> rfl

@[simp] theorem State.raise_cores (f : FaultInfo) : (s.raise f).cores = s.cores := by
  unfold State.raise takeFault; dsimp only; split
  · rfl
  · unfold sendRecord State.noteRecord; dsimp only; split <;> rfl
@[simp] theorem State.raise_mem (f : FaultInfo) : (s.raise f).mem = s.mem := by
  unfold State.raise takeFault; dsimp only; split
  · rfl
  · unfold sendRecord State.noteRecord; dsimp only; split <;> rfl
@[simp] theorem State.raise_keys (f : FaultInfo) : (s.raise f).keys = s.keys := by
  unfold State.raise takeFault; dsimp only; split
  · rfl
  · unfold sendRecord State.noteRecord; dsimp only; split <;> rfl
@[simp] theorem State.raise_badLines (f : FaultInfo) : (s.raise f).badLines = s.badLines := by
  unfold State.raise takeFault; dsimp only; split
  · rfl
  · unfold sendRecord State.noteRecord; dsimp only; split <;> rfl
@[simp] theorem State.raise_scribbled (f : FaultInfo) : (s.raise f).scribbled = s.scribbled := by
  unfold State.raise takeFault; dsimp only; split
  · rfl
  · unfold sendRecord State.noteRecord; dsimp only; split <;> rfl
@[simp] theorem State.raise_net (f : FaultInfo) : (s.raise f).net = s.net := by
  unfold State.raise takeFault; dsimp only; split
  · rfl
  · unfold sendRecord State.noteRecord; dsimp only; split <;> rfl
@[simp] theorem State.raise_recent (f : FaultInfo) : (s.raise f).recent = s.recent := by
  unfold State.raise takeFault; dsimp only; split
  · rfl
  · unfold sendRecord State.noteRecord; dsimp only; split <;> rfl
@[simp] theorem State.raise_views (f : FaultInfo) : (s.raise f).views = s.views := by
  unfold State.raise takeFault; dsimp only; split
  · rfl
  · unfold sendRecord State.noteRecord; dsimp only; split <;> rfl
@[simp] theorem State.raise_tlb (f : FaultInfo) : (s.raise f).tlb = s.tlb := by
  unfold State.raise takeFault; dsimp only; split
  · rfl
  · unfold sendRecord State.noteRecord; dsimp only; split <;> rfl
@[simp] theorem State.raise_ptrs (f : FaultInfo) : (s.raise f).ptrs = s.ptrs := by
  unfold State.raise takeFault; dsimp only; split
  · rfl
  · unfold sendRecord State.noteRecord; dsimp only; split <;> rfl
@[simp] theorem State.raise_walks (f : FaultInfo) : (s.raise f).walks = s.walks := by
  unfold State.raise takeFault; dsimp only; split
  · rfl
  · unfold sendRecord State.noteRecord; dsimp only; split <;> rfl
@[simp] theorem State.raise_frames (f : FaultInfo) : (s.raise f).frames = s.frames := by
  unfold State.raise takeFault; dsimp only; split
  · rfl
  · unfold sendRecord State.noteRecord; dsimp only; split <;> rfl
@[simp] theorem State.raise_sentRels (f : FaultInfo) : (s.raise f).sentRels = s.sentRels := by
  unfold State.raise takeFault; dsimp only; split
  · rfl
  · unfold sendRecord State.noteRecord; dsimp only; split <;> rfl
@[simp] theorem State.raise_givenUp (f : FaultInfo) : (s.raise f).givenUp = s.givenUp := by
  unfold State.raise takeFault; dsimp only; split
  · rfl
  · unfold sendRecord State.noteRecord; dsimp only; split <;> rfl
@[simp] theorem State.raise_sealedAt (f : FaultInfo) : (s.raise f).sealedAt = s.sealedAt := by
  unfold State.raise takeFault; dsimp only; split
  · rfl
  · unfold sendRecord State.noteRecord; dsimp only; split <;> rfl
@[simp] theorem State.raise_invs (f : FaultInfo) : (s.raise f).invs = s.invs := by
  unfold State.raise takeFault; dsimp only; split
  · rfl
  · unfold sendRecord State.noteRecord; dsimp only; split <;> rfl
@[simp] theorem State.raise_cells (f : FaultInfo) : (s.raise f).cells = s.cells := by
  unfold State.raise takeFault; dsimp only; split
  · rfl
  · unfold sendRecord State.noteRecord; dsimp only; split <;> rfl
@[simp] theorem State.raise_waits (f : FaultInfo) : (s.raise f).waits = s.waits := by
  unfold State.raise takeFault; dsimp only; split
  · rfl
  · unfold sendRecord State.noteRecord; dsimp only; split <;> rfl
@[simp] theorem State.raise_wakes (f : FaultInfo) : (s.raise f).wakes = s.wakes := by
  unfold State.raise takeFault; dsimp only; split
  · rfl
  · unfold sendRecord State.noteRecord; dsimp only; split <;> rfl
@[simp] theorem State.raise_posts (f : FaultInfo) : (s.raise f).posts = s.posts := by
  unfold State.raise takeFault; dsimp only; split
  · rfl
  · unfold sendRecord State.noteRecord; dsimp only; split <;> rfl
@[simp] theorem State.raise_jobs (f : FaultInfo) : (s.raise f).jobs = s.jobs := by
  unfold State.raise takeFault; dsimp only; split
  · rfl
  · unfold sendRecord State.noteRecord; dsimp only; split <;> rfl
@[simp] theorem State.raise_versions (f : FaultInfo) : (s.raise f).versions = s.versions := by
  unfold State.raise takeFault; dsimp only; split
  · rfl
  · unfold sendRecord State.noteRecord; dsimp only; split <;> rfl
@[simp] theorem State.raise_slices (f : FaultInfo) : (s.raise f).slices = s.slices := by
  unfold State.raise takeFault; dsimp only; split
  · rfl
  · unfold sendRecord State.noteRecord; dsimp only; split <;> rfl
@[simp] theorem State.raise_turns (f : FaultInfo) : (s.raise f).turns = s.turns := by
  unfold State.raise takeFault; dsimp only; split
  · rfl
  · unfold sendRecord State.noteRecord; dsimp only; split <;> rfl
@[simp] theorem State.raise_hmap (f : FaultInfo) : (s.raise f).hmap = s.hmap := by
  unfold State.raise takeFault; dsimp only; split
  · rfl
  · unfold sendRecord State.noteRecord; dsimp only; split <;> rfl
@[simp] theorem State.raise_vbnd (f : FaultInfo) : (s.raise f).vbnd = s.vbnd := by
  unfold State.raise takeFault; dsimp only; split
  · rfl
  · unfold sendRecord State.noteRecord; dsimp only; split <;> rfl
@[simp] theorem State.raise_ports (f : FaultInfo) : (s.raise f).ports = s.ports := by
  unfold State.raise takeFault; dsimp only; split
  · rfl
  · unfold sendRecord State.noteRecord; dsimp only; split <;> rfl
@[simp] theorem State.raise_peers (f : FaultInfo) : (s.raise f).peers = s.peers := by
  unfold State.raise takeFault; dsimp only; split
  · rfl
  · unfold sendRecord State.noteRecord; dsimp only; split <;> rfl
@[simp] theorem State.raise_bounds (f : FaultInfo) : (s.raise f).bounds = s.bounds := by
  unfold State.raise takeFault; dsimp only; split
  · rfl
  · unfold sendRecord State.noteRecord; dsimp only; split <;> rfl
@[simp] theorem State.raise_bridge (f : FaultInfo) : (s.raise f).bridge = s.bridge := by
  unfold State.raise takeFault; dsimp only; split
  · rfl
  · unfold sendRecord State.noteRecord; dsimp only; split <;> rfl
@[simp] theorem State.raise_mill (f : FaultInfo) : (s.raise f).mill = s.mill := by
  unfold State.raise takeFault; dsimp only; split
  · rfl
  · unfold sendRecord State.noteRecord; dsimp only; split <;> rfl
@[simp] theorem State.raise_out (f : FaultInfo) : (s.raise f).out = s.out := by
  unfold State.raise takeFault; dsimp only; split
  · rfl
  · unfold sendRecord State.noteRecord; dsimp only; split <;> rfl
@[simp] theorem State.raise_mid (f : FaultInfo) : (s.raise f).mid = s.mid := by
  unfold State.raise takeFault; dsimp only; split
  · rfl
  · unfold sendRecord State.noteRecord; dsimp only; split <;> rfl
@[simp] theorem State.raise_inc (f : FaultInfo) : (s.raise f).inc = s.inc := by
  unfold State.raise takeFault; dsimp only; split
  · rfl
  · unfold sendRecord State.noteRecord; dsimp only; split <;> rfl
@[simp] theorem State.raise_lostt (f : FaultInfo) : (s.raise f).lostt = s.lostt := by
  unfold State.raise takeFault; dsimp only; split
  · rfl
  · unfold sendRecord State.noteRecord; dsimp only; split <;> rfl
@[simp] theorem State.raise_firmware (f : FaultInfo) : (s.raise f).firmware = s.firmware := by
  unfold State.raise takeFault; dsimp only; split
  · rfl
  · unfold sendRecord State.noteRecord; dsimp only; split <;> rfl
@[simp] theorem State.raise_clk (f : FaultInfo) : (s.raise f).clk = s.clk := by
  unfold State.raise takeFault; dsimp only; split
  · rfl
  · unfold sendRecord State.noteRecord; dsimp only; split <;> rfl
@[simp] theorem State.raise_agenda (f : FaultInfo) : (s.raise f).agenda = s.agenda := by
  unfold State.raise takeFault; dsimp only; split
  · rfl
  · unfold sendRecord State.noteRecord; dsimp only; split <;> rfl
@[simp] theorem State.raise_opnd (f : FaultInfo) : (s.raise f).opnd = s.opnd := by
  unfold State.raise takeFault; dsimp only; split
  · rfl
  · unfold sendRecord State.noteRecord; dsimp only; split <;> rfl

end Sys2Proof.Machine
end

