-- ==== Sys2Proof/Laws/Ops.lean ====
section
/-! SUPPORT. What each shared operation can do, said once: the frames that instructions stand in, registers read after they are written, named
parts of the state found after they are put back, and taking a fault. -/

namespace Sys2Proof.Machine

/-! ### The frames of an instruction -/

theorem issue_run {g : Guard} {s : State} (b : State → State) (hr : s.cur.status = .run) (hg : guardHolds g s = true) : issue g s b = .next (b s) := by
  rw [issue, if_pos hr, if_pos hg]
theorem issue_false {g : Guard} {s : State} (b : State → State) (hr : s.cur.status = .run) (hg : guardHolds g s = false) :
    issue g s b = .next s.done := by
  rw [issue, if_pos hr, hg]; rfl
theorem issue_stopped {g : Guard} {s : State} (b : State → State) (hr : s.cur.status ≠ .run) : issue g s b = .fault .noStrand := if_neg hr
theorem issue_cases {g : Guard} {s : State} {b : State → State} {t : State} (h : issue g s b = .next t) :
    s.cur.status = .run ∧ (guardHolds g s = true ∧ t = b s ∨ guardHolds g s = false ∧ t = s.done) := by
  unfold issue at h
  split at h
  · refine ⟨‹_›, ?_⟩
    cases hg : guardHolds g s <;> rw [hg] at h <;> cases h
    · exact .inr ⟨rfl, rfl⟩
    · exact .inl ⟨rfl, rfl⟩
  · cases h
theorem issueWait_run {g : Guard} {ls : BitVec 8} {s : State} (b : State → State) (hr : s.cur.status = .run) (hl : ls.toNat < s.liveCount)
    (hg : guardHolds g s = true) : issueWait g ls s b = .next (b s) := by
  rw [issueWait, if_pos hr, if_neg (by omega), if_pos hg]
theorem issueWait_false {g : Guard} {ls : BitVec 8} {s : State} (b : State → State) (hr : s.cur.status = .run) (hl : ls.toNat < s.liveCount)
    (hg : guardHolds g s = false) : issueWait g ls s b = .next s.done := by
  rw [issueWait, if_pos hr, if_neg (by omega), hg]; rfl
theorem issueWait_index {g : Guard} {ls : BitVec 8} {s : State} (b : State → State) (hr : s.cur.status = .run) (hl : s.liveCount ≤ ls.toNat) :
    issueWait g ls s b = .next (s.raiseCode .illegalOp) := by
  rw [issueWait, if_pos hr, if_pos hl]
theorem issueForeman_run {g : Guard} {s : State} (b : State → State) (hr : s.cur.status = .run) (hf : s.cur.fmn = true)
    (hg : guardHolds g s = true) : issueForeman g s b = .next (b s) := by
  rw [issueForeman, if_pos hr, hf, if_neg Bool.noConfusion, if_pos hg]
theorem issueForeman_other {g : Guard} {s : State} (b : State → State) (hr : s.cur.status = .run) (hf : s.cur.fmn = false) :
    issueForeman g s b = .next (s.raiseCode .illegalOp) := by
  rw [issueForeman, if_pos hr, if_pos hf]

/-! ### Registers -/

theorem State.wrG_get (s : State) (n m : BitVec 6) (x : Word64) :
    (s.wrG n x).cur.g.get m.toFin = if n ≠ 0 ∧ m = n then x else s.cur.g.get m.toFin := by
  unfold State.wrG
  by_cases h0 : n = 0
  · simp [h0]
  · rw [if_neg h0]
    show (s.cur.g.set n.toNat x n.isLt)[m.toNat]'m.isLt = _
    rw [Vector.getElem_set]
    by_cases hm : m = n
    · rw [if_pos (by rw [hm]), if_pos ⟨h0, hm⟩]
    · rw [if_neg fun e => hm (BitVec.eq_of_toNat_eq e.symm), if_neg fun e => hm e.2]; rfl
/-- Outside a pair an instruction reads its own strand. -/
theorem State.src_alone (s : State) (h : s.opnd = none) : s.src = s.cur := by unfold State.src; rw [h]; rfl
/-- A register read after a write, outside a pair. -/
theorem State.rdG_wrG (s : State) (n m : BitVec 6) (x : Word64) (h : s.opnd = none) :
    (s.wrG n x).rdG m = if m ≠ 0 ∧ m = n then x else s.rdG m := by
  unfold State.rdG
  rw [State.src_alone _ h, State.src_alone _ (by rw [State.wrG_opnd, h])]
  by_cases h0 : m = 0
  · simp [h0]
  · simp only [h0, if_false, ne_eq, not_false_eq_true, true_and]
    rw [State.wrG_get]
    by_cases hm : m = n
    · rw [if_pos ⟨fun e => h0 (hm.trans e), hm⟩, if_pos hm]
    · rw [if_neg fun e => hm e.2, if_neg hm]
@[simp] theorem State.rdG_zero (s : State) : s.rdG 0 = 0 := rfl
@[simp] theorem State.rdK_zero (s : State) : s.rdK 0 = true := rfl
@[simp] theorem State.done_last (s : State) : s.done.last = .seq := rfl
@[simp] theorem State.stall_last (s : State) : s.stall.last = .stall := rfl
@[simp] theorem State.bump_fresh (s : State) : s.bump.fresh = s.fresh + 1 := rfl

/-! ### Parts of the state found again under their names -/

theorem find?_replaceFirst {α : Type} (p : α → Bool) (x : α) (hx : p x = true) : ∀ {l : List α}, l.any p = true → (replaceFirst p x l).find? p = some x
  | [], h => by cases h
  | a :: rest, h => by
    unfold replaceFirst
    cases ha : p a
    · have : rest.any p = true := by simpa [ha] using h
      simp [ha, find?_replaceFirst p x hx this]
    · simp [hx]
theorem find?_replaceFirst_ne {α : Type} (p q : α → Bool) (x : α) (hx : q x = false) (hpq : ∀ a, p a = true → q a = false) :
    ∀ l : List α, (replaceFirst p x l).find? q = l.find? q
  | [] => rfl
  | a :: rest => by
    unfold replaceFirst
    cases ha : p a
    · cases hq : q a
      · simp [hq, find?_replaceFirst_ne p q x hx hpq rest]
      · simp [hq]
    · simp [hx, hpq a ha]
theorem State.core_setCore (s : State) (c : Core) : (s.setCore c).core c.loc = c := by
  unfold State.core State.setCore
  dsimp only
  cases h : s.cores.any fun d => decide (d.loc = c.loc)
  · simp
  · rw [if_pos rfl, find?_replaceFirst _ c (by simp) h]; rfl
theorem State.core_setCore_ne (s : State) (c : Core) (l : CoreLoc) (h : l ≠ c.loc) : (s.setCore c).core l = s.core l := by
  have hq : (decide (c.loc = l)) = false := decide_eq_false fun e => h e.symm
  unfold State.core State.setCore
  dsimp only
  cases s.cores.any fun d => decide (d.loc = c.loc)
  · simp [hq]
  · rw [if_pos rfl, find?_replaceFirst_ne _ _ c hq]
    intro a ha
    have : a.loc = c.loc := by simpa using ha
    simpa [this] using fun e : c.loc = l => h e.symm
theorem State.slice_setSlice (s : State) (x : Slice) : (s.setSlice x).slice x.loc = x := by
  unfold State.slice State.setSlice
  dsimp only
  cases h : s.slices.any fun d => decide (d.loc = x.loc)
  · simp
  · rw [if_pos rfl, find?_replaceFirst _ x (by simp) h]; rfl
theorem State.site_setSite (s : State) (x : Site) : (s.setSite x).site x.n = x := by
  unfold State.site State.setSite
  dsimp only
  cases h : s.sites.any fun y => y.n == x.n
  · simp
  · rw [if_pos rfl, find?_replaceFirst _ x (by simp) h]; rfl
theorem State.site_setSite_ne (s : State) (x : Site) (n : Nat) (h : n ≠ x.n) : (s.setSite x).site n = s.site n := by
  have hq : (x.n == n) = false := by simpa using fun e : x.n = n => h e.symm
  unfold State.site State.setSite
  dsimp only
  cases s.sites.any fun y => y.n == x.n
  · simp [hq]
  · rw [if_pos rfl, find?_replaceFirst_ne _ _ x hq]
    intro a ha
    have : a.n = x.n := by simpa using ha
    simpa [this] using fun e : x.n = n => h e.symm
theorem State.port_setPort (s : State) (p : Port) : (s.setPort p).port p.n = p := by
  simp [State.port, State.setPort]
theorem State.port_setPort_ne (s : State) (p : Port) (n : Nat) (h : n ≠ p.n) : (s.setPort p).port n = s.port n := by
  have hq : (p.n == n) = false := by simpa using fun e : p.n = n => h e.symm
  unfold State.port State.setPort
  dsimp only
  rw [List.find?_cons_of_neg (by simpa using hq)]
  congr 1
  induction s.ports with
  | nil => rfl
  | cons a rest ih =>
    rw [List.filter_cons]
    cases ha : a.n == n
    · cases hb : a.n != p.n <;> simp [ha, ih]
    · have : (a.n != p.n) = true := by
        have e : a.n = n := by simpa using ha
        simpa [e] using h
      simp [this, ha]
/-- A part changed in place under its index. -/
theorem State.part?_updPart (s : State) (c : Nat) (f : Part → Part) (hf : ∀ p, (f p).cix = p.cix) : (s.updPart c f).part? c = (s.part? c).map f := by
  unfold State.part? State.updPart
  dsimp only
  induction s.parts with
  | nil => rfl
  | cons a rest ih =>
    by_cases h : a.cix = c
    · simp [h, hf]
    · simp [h, ih]
theorem State.part?_updPart_ne (s : State) (c d : Nat) (f : Part → Part) (hf : ∀ p, (f p).cix = p.cix) (h : d ≠ c) :
    (s.updPart c f).part? d = s.part? d := by
  unfold State.part? State.updPart
  dsimp only
  induction s.parts with
  | nil => rfl
  | cons a rest ih =>
    by_cases ha : a.cix = c
    · have : (a.cix == d) = false := by simpa [ha] using fun e : c = d => h e.symm
      have hf' : ((f a).cix == d) = false := by rw [hf]; exact this
      rw [List.map_cons, if_pos ha, List.find?_cons_of_neg (by simpa using hf'), List.find?_cons_of_neg (by simpa using this)]
      exact ih
    · by_cases hd : a.cix = d
      · simp [hd, h]
      · simp [ha, hd, ih]
theorem State.granule_setGranule (s : State) (g : Granule) (h : granuleOf g.pa = g.pa) : (s.setGranule g).granule g.pa = g := by
  unfold State.granule State.setGranule
  dsimp only
  rw [h]
  cases e : s.cells.any fun x => x.pa == g.pa
  · simp
  · rw [if_pos rfl, find?_replaceFirst _ g (by simp) e]; rfl

/-! ### Taking a fault (R354, R355) -/

/-- A record sent keeps all but the records, the scrivener that notes it and the names given so far. -/
theorem sendRecord_frame (s : State) (cix : Nat) (after : Option (StrandId × List (BitVec 16))) (r : Record) :
    (sendRecord s cix after r).mem = s.mem ∧ (sendRecord s cix after r).cores = s.cores ∧ (sendRecord s cix after r).cells = s.cells
      ∧ (sendRecord s cix after r).net = s.net ∧ (sendRecord s cix after r).jobs = s.jobs ∧ (sendRecord s cix after r).clk = s.clk := by
  simp [sendRecord]
@[simp] theorem sendRecord_cur (s : State) (cix : Nat) (after : Option (StrandId × List (BitVec 16))) (r : Record) :
    (sendRecord s cix after r).cur = s.cur := by
  simp [sendRecord]
/-- A freezing fault keeps memory, stores and cells, and what is in flight. -/
theorem takeFault_frame (s : State) (pair : Bool) (at_ resume : BitVec 56) (f : FaultInfo) :
    (takeFault s pair at_ resume f).mem = s.mem ∧ (takeFault s pair at_ resume f).cores = s.cores ∧ (takeFault s pair at_ resume f).cells = s.cells
      ∧ (takeFault s pair at_ resume f).net = s.net ∧ (takeFault s pair at_ resume f).jobs = s.jobs ∧ (takeFault s pair at_ resume f).clk = s.clk := by
  unfold takeFault
  dsimp only
  split
  · exact ⟨rfl, rfl, rfl, rfl, rfl, rfl⟩
  · exact sendRecord_frame _ _ _ _
/-- The faulting strand is frozen at its resume PC. -/
theorem takeFault_cur (s : State) (pair : Bool) (at_ resume : BitVec 56) (f : FaultInfo) :
    (takeFault s pair at_ resume f).cur.status = .frozen ∧ (takeFault s pair at_ resume f).cur.pc = resume := by
  unfold takeFault
  dsimp only
  split
  · exact ⟨rfl, rfl⟩
  · simp [freezeGroup, State.mapStrands, State.updGroup, freezeStrand]
@[simp] theorem State.raise_last (s : State) (f : FaultInfo) : (s.raise f).last = .faulted f := rfl

end Sys2Proof.Machine
end

