-- ==== Sys2Proof/Tests/Slice0.lean ====
section
/-! SUPPORT. Tests of single operations and steps, with the spec's table or worked value named at each; and, for each obligation with hypotheses, a
witness that a state and operands meet them. -/

namespace Sys2Proof.Tests

set_option maxRecDepth 100000
set_option Elab.async false
set_option exponentiation.threshold 600

open Sys2Proof Sys2Proof.Machine Sys2Proof.Says

def zeroI : FormI := { grd := always, gd := 0, imm := 0 }

/-! ### Words written out from the encoding tables of spec/02_encoding.md (R44-R55) -/

theorem test_decode_words_A :
    decodeSlot (slotOf 0x10003D89 0x50000000 0x0) = .ok (.add { zeroA with gd := 61, ga := 34, gb := 21, w := .w64 })
    ∧ decodeSlot (slotOf 0x10043D89 0x50020000 0x0) = .ok (.sub { zeroA with gd := 61, ga := 34, gb := 21, w := .w32 })
    ∧ decodeSlot (slotOf 0x10083D89 0x50040000 0x0) = .ok (.mul { zeroA with gd := 61, ga := 34, gb := 21, w := .w16 })
    ∧ decodeSlot (slotOf 0x100C3D89 0x50060000 0x0) = .ok (.mulh { zeroA with gd := 61, ga := 34, gb := 21, w := .w8 })
    ∧ decodeSlot (slotOf 0x10103D89 0x50000000 0x0) = .ok (.mulhs { zeroA with gd := 61, ga := 34, gb := 21, w := .w64 })
    ∧ decodeSlot (slotOf 0x10143D89 0x50020000 0x0) = .ok (.div { zeroA with gd := 61, ga := 34, gb := 21, w := .w32 })
    ∧ decodeSlot (slotOf 0x10183D89 0x50040000 0x0) = .ok (.divs { zeroA with gd := 61, ga := 34, gb := 21, w := .w16 })
    ∧ decodeSlot (slotOf 0x101C3D89 0x50060000 0x0) = .ok (.rem { zeroA with gd := 61, ga := 34, gb := 21, w := .w8 })
    ∧ decodeSlot (slotOf 0x10203D89 0x50000000 0x0) = .ok (.rems { zeroA with gd := 61, ga := 34, gb := 21, w := .w64 })
    ∧ decodeSlot (slotOf 0x10243D89 0x50020000 0x0) = .ok (.madd { zeroA with gd := 61, ga := 34, gb := 21, w := .w32 })
    ∧ decodeSlot (slotOf 0x10283D89 0x50040000 0x0) = .ok (.and { zeroA with gd := 61, ga := 34, gb := 21, w := .w16 })
    ∧ decodeSlot (slotOf 0x102C3D89 0x50060000 0x0) = .ok (.or { zeroA with gd := 61, ga := 34, gb := 21, w := .w8 })
    ∧ decodeSlot (slotOf 0x10303D89 0x50000000 0x0) = .ok (.xor { zeroA with gd := 61, ga := 34, gb := 21, w := .w64 })
    ∧ decodeSlot (slotOf 0x10343D89 0x50020000 0x0) = .ok (.andn { zeroA with gd := 61, ga := 34, gb := 21, w := .w32 })
    ∧ decodeSlot (slotOf 0x10383D89 0x50040000 0x0) = .ok (.orn { zeroA with gd := 61, ga := 34, gb := 21, w := .w16 })
    ∧ decodeSlot (slotOf 0x103C3D89 0x50060000 0x0) = .ok (.shl { zeroA with gd := 61, ga := 34, gb := 21, w := .w8 })
    ∧ decodeSlot (slotOf 0x10403D89 0x50000000 0x0) = .ok (.shr { zeroA with gd := 61, ga := 34, gb := 21, w := .w64 })
    ∧ decodeSlot (slotOf 0x10443D89 0x50020000 0x0) = .ok (.shra { zeroA with gd := 61, ga := 34, gb := 21, w := .w32 })
    ∧ decodeSlot (slotOf 0x10483D89 0x50040000 0x0) = .ok (.ror { zeroA with gd := 61, ga := 34, gb := 21, w := .w16 })
    ∧ decodeSlot (slotOf 0x104C3D89 0x50060000 0x0) = .ok (.min { zeroA with gd := 61, ga := 34, gb := 21, w := .w8 })
    ∧ decodeSlot (slotOf 0x10503D89 0x50000000 0x0) = .ok (.max { zeroA with gd := 61, ga := 34, gb := 21, w := .w64 })
    ∧ decodeSlot (slotOf 0x10543D89 0x50020000 0x0) = .ok (.mins { zeroA with gd := 61, ga := 34, gb := 21, w := .w32 })
    ∧ decodeSlot (slotOf 0x10583D89 0x50040000 0x0) = .ok (.maxs { zeroA with gd := 61, ga := 34, gb := 21, w := .w16 })
    ∧ decodeSlot (slotOf 0x105C01F8 0x60000 0x0) = .ok (.clz { zeroA with gd := 1, ga := 62, w := .w8 })
    ∧ decodeSlot (slotOf 0x106001F8 0x0 0x0) = .ok (.ctz { zeroA with gd := 1, ga := 62, w := .w64 })
    ∧ decodeSlot (slotOf 0x106401F8 0x20000 0x0) = .ok (.popc { zeroA with gd := 1, ga := 62, w := .w32 })
    ∧ decodeSlot (slotOf 0x106801F8 0x40000 0x0) = .ok (.brev { zeroA with gd := 1, ga := 62, w := .w16 })
    ∧ decodeSlot (slotOf 0x106C01F8 0x60000 0x0) = .ok (.bswap { zeroA with gd := 1, ga := 62, w := .w8 })
    ∧ decodeSlot (slotOf 0x10703D89 0x50000000 0x0) = .ok (.bfx { zeroA with gd := 61, ga := 34, gb := 21 })
    ∧ decodeSlot (slotOf 0x10743D89 0x50000000 0x0) = .ok (.bfi { zeroA with gd := 61, ga := 34, gb := 21 })
    ∧ decodeSlot (slotOf 0x10780085 0x2A042400 0x0) = .ok (.cmp { zeroA with kd := 5, ga := 33, gb := 18, w := .w16, cc := 9 })
    ∧ decodeSlot (slotOf 0x107C0000 0xCE01400 0x0) = .ok (.kop { zeroA with kd := 6, ka := 3, kb := 4, cc := 5 })
    ∧ decodeSlot (slotOf 0x108009A3 0xF1400000 0x0) = .ok (.sel { zeroA with gd := 9, ka := 5, ga := 40, gb := 63 })
    ∧ decodeSlot (slotOf 0x1084081C 0x60000000 0x7) = .ok (.lea { zeroA with gd := 8, ga := 7, gb := 6, imm := 7 }) :=
  ⟨rfl, rfl, rfl, rfl, rfl, rfl, rfl, rfl, rfl, rfl, rfl, rfl, rfl, rfl, rfl, rfl, rfl, rfl, rfl, rfl, rfl, rfl, rfl, rfl, rfl, rfl, rfl, rfl, rfl, rfl, rfl, rfl, rfl, rfl⟩

theorem test_decode_words_A2 :
    decodeSlot (slotOf 0x110005A8 0x40000 0xFFFFFFDC) = .ok (.addi { zeroA with gd := 5, ga := 42, w := .w16, imm := 4294967260 })
    ∧ decodeSlot (slotOf 0x110405A8 0x60000 0xFFFFFFDB) = .ok (.subImm { zeroA with gd := 5, ga := 42, w := .w8, imm := 4294967259 })
    ∧ decodeSlot (slotOf 0x110805A8 0x0 0xFFFFFFDA) = .ok (.mulImm { zeroA with gd := 5, ga := 42, w := .w64, imm := 4294967258 })
    ∧ decodeSlot (slotOf 0x110C05A8 0x20000 0xFFFFFFD9) = .ok (.mulhImm { zeroA with gd := 5, ga := 42, w := .w32, imm := 4294967257 })
    ∧ decodeSlot (slotOf 0x111005A8 0x40000 0xFFFFFFD8) = .ok (.mulhsImm { zeroA with gd := 5, ga := 42, w := .w16, imm := 4294967256 })
    ∧ decodeSlot (slotOf 0x111405A8 0x60000 0xFFFFFFD7) = .ok (.divImm { zeroA with gd := 5, ga := 42, w := .w8, imm := 4294967255 })
    ∧ decodeSlot (slotOf 0x111805A8 0x0 0xFFFFFFD6) = .ok (.divsImm { zeroA with gd := 5, ga := 42, w := .w64, imm := 4294967254 })
    ∧ decodeSlot (slotOf 0x111C05A8 0x20000 0xFFFFFFD5) = .ok (.remImm { zeroA with gd := 5, ga := 42, w := .w32, imm := 4294967253 })
    ∧ decodeSlot (slotOf 0x112005A8 0x40000 0xFFFFFFD4) = .ok (.remsImm { zeroA with gd := 5, ga := 42, w := .w16, imm := 4294967252 })
    ∧ decodeSlot (slotOf 0x112405A8 0x60000 0xFFFFFFD3) = .ok (.maddImm { zeroA with gd := 5, ga := 42, w := .w8, imm := 4294967251 })
    ∧ decodeSlot (slotOf 0x112805A8 0x0 0xFFFFFFD2) = .ok (.andImm { zeroA with gd := 5, ga := 42, w := .w64, imm := 4294967250 })
    ∧ decodeSlot (slotOf 0x112C05A8 0x20000 0xFFFFFFD1) = .ok (.orImm { zeroA with gd := 5, ga := 42, w := .w32, imm := 4294967249 })
    ∧ decodeSlot (slotOf 0x113005A8 0x40000 0xFFFFFFD0) = .ok (.xorImm { zeroA with gd := 5, ga := 42, w := .w16, imm := 4294967248 })
    ∧ decodeSlot (slotOf 0x113405A8 0x60000 0xFFFFFFCF) = .ok (.andnImm { zeroA with gd := 5, ga := 42, w := .w8, imm := 4294967247 })
    ∧ decodeSlot (slotOf 0x113805A8 0x0 0xFFFFFFCE) = .ok (.ornImm { zeroA with gd := 5, ga := 42, w := .w64, imm := 4294967246 })
    ∧ decodeSlot (slotOf 0x113C05A8 0x20000 0xFFFFFFCD) = .ok (.shlImm { zeroA with gd := 5, ga := 42, w := .w32, imm := 4294967245 })
    ∧ decodeSlot (slotOf 0x114005A8 0x40000 0xFFFFFFCC) = .ok (.shrImm { zeroA with gd := 5, ga := 42, w := .w16, imm := 4294967244 })
    ∧ decodeSlot (slotOf 0x114405A8 0x60000 0xFFFFFFCB) = .ok (.shraImm { zeroA with gd := 5, ga := 42, w := .w8, imm := 4294967243 })
    ∧ decodeSlot (slotOf 0x114805A8 0x0 0xFFFFFFCA) = .ok (.rorImm { zeroA with gd := 5, ga := 42, w := .w64, imm := 4294967242 })
    ∧ decodeSlot (slotOf 0x114C05A8 0x20000 0xFFFFFFC9) = .ok (.minImm { zeroA with gd := 5, ga := 42, w := .w32, imm := 4294967241 })
    ∧ decodeSlot (slotOf 0x115005A8 0x40000 0xFFFFFFC8) = .ok (.maxImm { zeroA with gd := 5, ga := 42, w := .w16, imm := 4294967240 })
    ∧ decodeSlot (slotOf 0x115405A8 0x60000 0xFFFFFFC7) = .ok (.minsImm { zeroA with gd := 5, ga := 42, w := .w8, imm := 4294967239 })
    ∧ decodeSlot (slotOf 0x115805A8 0x0 0xFFFFFFC6) = .ok (.maxsImm { zeroA with gd := 5, ga := 42, w := .w64, imm := 4294967238 })
    ∧ decodeSlot (slotOf 0x117005A8 0x0 0x4000) = .ok (.bfxImm { zeroA with gd := 5, ga := 42, imm := 16384 })
    ∧ decodeSlot (slotOf 0x117405A8 0x0 0x13F) = .ok (.bfiImm { zeroA with gd := 5, ga := 42, imm := 319 })
    ∧ decodeSlot (slotOf 0x117800A8 0xE062000 0xFFFFFFFF) = .ok (.cmpi { zeroA with kd := 7, ga := 42, w := .w8, cc := 8, imm := 4294967295 })
    ∧ decodeSlot (slotOf 0x118405A8 0x0 0xFFFFFFC0) = .ok (.leaPc { zeroA with gd := 5, ga := 42, imm := 4294967232 })
    ∧ decodeSlot (slotOf 0x30003D89 0x5000C000 0x0) = .ok (.fadd { zeroA with gd := 61, ga := 34, gb := 21, rm := .rup })
    ∧ decodeSlot (slotOf 0x30043D89 0x50000000 0x0) = .ok (.fsub { zeroA with gd := 61, ga := 34, gb := 21, rm := .rne })
    ∧ decodeSlot (slotOf 0x30083D89 0x50004000 0x0) = .ok (.fmul { zeroA with gd := 61, ga := 34, gb := 21, rm := .rtz })
    ∧ decodeSlot (slotOf 0x300C3D89 0x50008000 0x0) = .ok (.ffma { zeroA with gd := 61, ga := 34, gb := 21, rm := .rdn })
    ∧ decodeSlot (slotOf 0x30103D89 0x5000C000 0x0) = .ok (.fdiv { zeroA with gd := 61, ga := 34, gb := 21, rm := .rup })
    ∧ decodeSlot (slotOf 0x30140310 0xC000 0x0) = .ok (.fsqrt { zeroA with gd := 3, ga := 4, rm := .rup })
    ∧ decodeSlot (slotOf 0x30183D89 0x50000000 0x0) = .ok (.fmin { zeroA with gd := 61, ga := 34, gb := 21 })
    ∧ decodeSlot (slotOf 0x301C3D89 0x50000000 0x0) = .ok (.fmax { zeroA with gd := 61, ga := 34, gb := 21 })
    ∧ decodeSlot (slotOf 0x30200008 0x32002C00 0x0) = .ok (.fcmp { zeroA with kd := 1, ga := 2, gb := 3, cc := 11 })
    ∧ decodeSlot (slotOf 0x30240310 0x4000 0x7) = .ok (.fcvt { zeroA with gd := 3, ga := 4, rm := .rtz, imm := 7 })
    ∧ decodeSlot (slotOf 0x30280310 0x4000000 0x1FF) = .ok (.fclass { zeroA with kd := 2, gd := 3, ga := 4, imm := 511 })
    ∧ decodeSlot (slotOf 0x302C3D89 0x50000000 0x2) = .ok (.fsgn { zeroA with gd := 61, ga := 34, gb := 21, imm := 2 })
    ∧ decodeSlot (slotOf 0x38001E00 0x0 0x3) = .ok (.fget { zeroA with gd := 30, imm := 3 })
    ∧ decodeSlot (slotOf 0x38041E00 0x8000000 0x2) = .ok (.fpeek { zeroA with gd := 30, kd := 4, imm := 2 }) :=
  ⟨rfl, rfl, rfl, rfl, rfl, rfl, rfl, rfl, rfl, rfl, rfl, rfl, rfl, rfl, rfl, rfl, rfl, rfl, rfl, rfl, rfl, rfl, rfl, rfl, rfl, rfl, rfl, rfl, rfl, rfl, rfl, rfl, rfl, rfl, rfl, rfl, rfl, rfl, rfl, rfl, rfl⟩

theorem test_decode_words_I :
    decodeSlot (slotOf 0x12003F00 0xFFFF 0xFFFFFFFB) = .ok (.movi { zeroI with gd := 63, imm := 281474976710651 })
    ∧ decodeSlot (slotOf 0x12040200 0x0 0xBEEF) = .ok (.movh { zeroI with gd := 2, imm := 48879 }) :=
  ⟨rfl, rfl⟩

theorem test_decode_words_B :
    decodeSlot (slotOf 0x01000000 0xFF 0xFFFFFFFD) = .ok (.br { zeroB with off := 1099511627773 })
    ∧ decodeSlot (slotOf 0x01040500 0x0 0x0) = .ok (.bri { zeroB with ga := 5 })
    ∧ decodeSlot (slotOf 0x010800FC 0x0 0x64) = .ok (.call { zeroB with glk := 63, off := 100 })
    ∧ decodeSlot (slotOf 0x010C05F8 0x0 0x0) = .ok (.calli { zeroB with ga := 5, glk := 62 })
    ∧ decodeSlot (slotOf 0x01103F00 0x0 0x0) = .ok (.ret { zeroB with ga := 63 })
    ∧ decodeSlot (slotOf 0x01140003 0xFFFD0000 0x4) = .ok (.loop { zeroB with cnt := 65535, cs := true, off := 4 })
    ∧ decodeSlot (slotOf 0x01180000 0x0 0x7) = .ok (.lexit { zeroB with off := 7 })
    ∧ decodeSlot (slotOf 0x011C0000 0x0 0x0) = .ok (.exit zeroB)
    ∧ decodeSlot (slotOf 0x01200000 0x48D00000 0x0) = .ok (.trap { zeroB with cnt := 4660 })
    ∧ decodeSlot (slotOf 0x01240003 0xFFF80000 0x0) = .ok (.brk { zeroB with cnt := 65534 })
    ∧ decodeSlot (slotOf 0x01280000 0xC800 0x0) = .ok (.prePoint { zeroB with ls := 200 })
    ∧ decodeSlot (slotOf 0x012C0000 0x100 0x0) = .ok (.yield { zeroB with ls := 1 }) :=
  ⟨rfl, rfl, rfl, rfl, rfl, rfl, rfl, rfl, rfl, rfl, rfl, rfl⟩

theorem test_decode_words_M :
    decodeSlot (slotOf 0x40003E84 0x8C000FF 0xFFFFFFF0) = .ok (.ld { zeroM with gt := 62, gb := 33, sz := .q, ord := .acq, scp := .pod, off := 1099511627760 })
    ∧ decodeSlot (slotOf 0x40043D84 0x4A00040 0x0) = .ok (.lds { zeroM with gt := 61, gb := 33, sz := .w, ord := .acq, scp := .die, off := 274877906944 })
    ∧ decodeSlot (slotOf 0x40083C04 0x93000FF 0xFFFFFFFF) = .ok (.st { zeroM with gt := 60, gb := 1, sz := .q, ord := .rel, scp := .mod, off := 1099511627775 })
    ∧ decodeSlot (slotOf 0x400C0720 0x95990000 0x10) = .ok (.atom { zeroM with gt := 7, gb := 8, gx := 9, sz := .w, ord := .ar, scp := .clu, aop := .fadd, off := 16 })
    ∧ decodeSlot (slotOf 0x40100620 0xA9C00000 0x20) = .ok (.cas { zeroM with gt := 6, gb := 8, gx := 10, sz := .q, ord := .ar, scp := .pod, off := 32 })
    ∧ decodeSlot (slotOf 0x40140014 0x0 0x80) = .ok (.pref { zeroM with gb := 5, off := 128 })
    ∧ decodeSlot (slotOf 0x40182F16 0xE000F000 0x3) = .ok (.vldg { zeroM with gt := 47, gb := 5, gx := 46, msk := 7, me := true, off := 3 })
    ∧ decodeSlot (slotOf 0x401C2D16 0xC000D000 0x4) = .ok (.vstg { zeroM with gt := 45, gb := 5, gx := 44, msk := 6, me := true, off := 4 })
    ∧ decodeSlot (slotOf 0x40200108 0x0 0x10000) = .ok (.seal { zeroM with gt := 1, gb := 2, off := 65536 })
    ∧ decodeSlot (slotOf 0x40240108 0xFF 0xFFFF0000) = .ok (.unseal { zeroM with gt := 1, gb := 2, off := 1099511562240 })
    ∧ decodeSlot (slotOf 0x4028000C 0x0 0x40) = .ok (.l1inv { zeroM with gb := 3, off := 64 })
    ∧ decodeSlot (slotOf 0x40280000 0x1000 0x0) = .ok (.l1invAll { zeroM with me := true })
    ∧ decodeSlot (slotOf 0x4100020C 0x8000000 0x8) = .ok (.ldl { zeroM with gt := 2, gb := 3, sz := .q, off := 8 })
    ∧ decodeSlot (slotOf 0x4104030C 0x6000000 0x8) = .ok (.stl { zeroM with gt := 3, gb := 3, sz := .d, off := 8 })
    ∧ decodeSlot (slotOf 0x4108020C 0x42000000 0x8) = .ok (.ldn { zeroM with gt := 2, gb := 3, gx := 4, sz := .h, off := 8 })
    ∧ decodeSlot (slotOf 0x410C020C 0x40000000 0x8) = .ok (.stn { zeroM with gt := 2, gb := 3, gx := 4, sz := .b, off := 8 })
    ∧ decodeSlot (slotOf 0x41100108 0x7000 0x200) = .ok (.vld { zeroM with gt := 1, gb := 2, msk := 3, me := true, off := 512 })
    ∧ decodeSlot (slotOf 0x41140108 0x70FF 0xFFFFFE00) = .ok (.vst { zeroM with gt := 1, gb := 2, msk := 3, me := true, off := 1099511627264 })
    ∧ decodeSlot (slotOf 0x4C000000 0x1C00000 0x0) = .ok (.fence { zeroM with ord := .ar, scp := .pod })
    ∧ decodeSlot (slotOf 0x4C040000 0x0 0x0) = .ok (.fenceXp zeroM)
    ∧ decodeSlot (slotOf 0x4C080900 0x0 0x0) = .ok (.wack { zeroM with gt := 9 })
    ∧ decodeSlot (slotOf 0x4C0C3F00 0x0 0x0) = .ok (.seq { zeroM with gt := 63 }) :=
  ⟨rfl, rfl, rfl, rfl, rfl, rfl, rfl, rfl, rfl, rfl, rfl, rfl, rfl, rfl, rfl, rfl, rfl, rfl, rfl, rfl, rfl, rfl⟩

theorem test_decode_words_Y :
    decodeSlot (slotOf 0x50000108 0xC00000 0x1FF84) = .ok (.cellInit { zeroY with gh := 1, gv1 := 2, gst := 3, imm := 130948 })
    ∧ decodeSlot (slotOf 0x50040100 0xC02000 0x0) = .ok (.cellKill { zeroY with gh := 1, gst := 3, f := true })
    ∧ decodeSlot (slotOf 0x50080108 0xC02000 0x0) = .ok (.cellQry { zeroY with gh := 1, gv1 := 2, gst := 3, f := true })
    ∧ decodeSlot (slotOf 0x51000108 0x40C02000 0xFFFFFFFF) = .ok (.ctrAdd { zeroY with gh := 1, gv1 := 2, gv2 := 4, gst := 3, f := true, imm := 4294967295 })
    ∧ decodeSlot (slotOf 0x51040108 0xC02000 0x0) = .ok (.ctrRd { zeroY with gh := 1, gv1 := 2, gst := 3, f := true })
    ∧ decodeSlot (slotOf 0x51080108 0xFFE000 0x9) = .ok (.ctrWge { zeroY with gh := 1, gv1 := 2, gst := 3, ls := 255, f := true, imm := 9 })
    ∧ decodeSlot (slotOf 0x52003F08 0xC02000 0x0) = .ok (.barArr { zeroY with gh := 63, gv1 := 2, gst := 3, f := true })
    ∧ decodeSlot (slotOf 0x52040108 0xC1C000 0x0) = .ok (.barWt { zeroY with gh := 1, gv1 := 2, gst := 3, ls := 7 })
    ∧ decodeSlot (slotOf 0x52080108 0xC20000 0x0) = .ok (.barArw { zeroY with gh := 1, gv1 := 2, gst := 3, ls := 8 })
    ∧ decodeSlot (slotOf 0x520C0108 0xC00000 0x0) = .ok (.barDrop { zeroY with gh := 1, gv1 := 2, gst := 3 })
    ∧ decodeSlot (slotOf 0x52100108 0xC00000 0xFFFFFFFD) = .ok (.barAdj { zeroY with gh := 1, gv1 := 2, gst := 3, imm := 4294967293 })
    ∧ decodeSlot (slotOf 0x53000100 0xC06000 0x0) = .ok (.lckTake { zeroY with gh := 1, gst := 3, ls := 1, f := true })
    ∧ decodeSlot (slotOf 0x53040100 0xC00000 0x0) = .ok (.lckTry { zeroY with gh := 1, gst := 3 })
    ∧ decodeSlot (slotOf 0x53080100 0xC02000 0x0) = .ok (.lckGive { zeroY with gh := 1, gst := 3, f := true })
    ∧ decodeSlot (slotOf 0x54000100 0xC08000 0x0) = .ok (.cndWait { zeroY with gh := 1, gst := 3, ls := 2 })
    ∧ decodeSlot (slotOf 0x54040114 0xC00000 0x0) = .ok (.cndSig { zeroY with gh := 1, gv1 := 5, gst := 3 })
    ∧ decodeSlot (slotOf 0x54080114 0xC00000 0x0) = .ok (.cndAll { zeroY with gh := 1, gv1 := 5, gst := 3 })
    ∧ decodeSlot (slotOf 0x55000114 0x60C08020 0x0) = .ok (.qPut { zeroY with gh := 1, gv1 := 5, gv2 := 6, gst := 3, ls := 2, src := .two })
    ∧ decodeSlot (slotOf 0x55040100 0xC090C0 0x3) = .ok (.qTake { zeroY with gh := 1, gst := 3, ls := 2, gl := 33, src := .ls, imm := 3 })
    ∧ decodeSlot (slotOf 0x55080114 0xC02000 0x0) = .ok (.qTryput { zeroY with gh := 1, gv1 := 5, gst := 3, f := true })
    ∧ decodeSlot (slotOf 0x550C0114 0x70C00020 0x0) = .ok (.qTrytake { zeroY with gh := 1, gv1 := 5, gv2 := 7, gst := 3, src := .two })
    ∧ decodeSlot (slotOf 0x55100100 0xC02000 0x0) = .ok (.qJoin { zeroY with gh := 1, gst := 3, f := true })
    ∧ decodeSlot (slotOf 0x55100108 0x40C002C0 0x7) = .ok (.qJoinGovernor { zeroY with gh := 1, gv1 := 2, gv2 := 4, gst := 3, gl := 5, src := .ls, imm := 7 })
    ∧ decodeSlot (slotOf 0x55140100 0xC00000 0x0) = .ok (.qClose { zeroY with gh := 1, gst := 3 })
    ∧ decodeSlot (slotOf 0xB0000024 0x2000000 0x0) = .ok (.hypOpen { zeroY with gv1 := 9, gst := 8 })
    ∧ decodeSlot (slotOf 0xB0040024 0x2002000 0x0) = .ok (.hypEnter { zeroY with gv1 := 9, gst := 8, f := true })
    ∧ decodeSlot (slotOf 0xB0080000 0x2000000 0x0) = .ok (.hypLeave { zeroY with gst := 8 })
    ∧ decodeSlot (slotOf 0xB00C0124 0x2002000 0x1) = .ok (.hypRsv { zeroY with gh := 1, gv1 := 9, gst := 8, f := true, imm := 1 })
    ∧ decodeSlot (slotOf 0xB0100024 0xA2002000 0x0) = .ok (.hypQry { zeroY with gv1 := 9, gv2 := 10, gst := 8, f := true }) :=
  ⟨rfl, rfl, rfl, rfl, rfl, rfl, rfl, rfl, rfl, rfl, rfl, rfl, rfl, rfl, rfl, rfl, rfl, rfl, rfl, rfl, rfl, rfl, rfl, rfl, rfl, rfl, rfl, rfl, rfl⟩

theorem test_decode_words_V :
    decodeSlot (slotOf 0x60002FBA 0xDF803000 0x0) = .ok (.vadd { zeroV with vd := 47, va := 46, vb := 45, msk := 7, mz := true, me := true, et := .fp32, rm := .rup })
    ∧ decodeSlot (slotOf 0x60042FBA 0xDF884000 0x0) = .ok (.vsub { zeroV with vd := 47, va := 46, vb := 45, msk := 7, mz := true, me := true, et := .bf16, rm := .sr })
    ∧ decodeSlot (slotOf 0x60082FBA 0xDF900000 0x0) = .ok (.vmul { zeroV with vd := 47, va := 46, vb := 45, msk := 7, mz := true, me := true, et := .fp16, rm := .rne })
    ∧ decodeSlot (slotOf 0x600C2FBA 0xDF801000 0x0) = .ok (.vfma { zeroV with vd := 47, va := 46, vb := 45, msk := 7, mz := true, me := true, et := .fp32, rm := .rtz })
    ∧ decodeSlot (slotOf 0x60102FBA 0xDF882000 0x0) = .ok (.vfms { zeroV with vd := 47, va := 46, vb := 45, msk := 7, mz := true, me := true, et := .bf16, rm := .rdn })
    ∧ decodeSlot (slotOf 0x60142FBA 0xDF900000 0x0) = .ok (.vmin { zeroV with vd := 47, va := 46, vb := 45, msk := 7, mz := true, me := true, et := .fp16 })
    ∧ decodeSlot (slotOf 0x60182FBA 0xDF900000 0x0) = .ok (.vmax { zeroV with vd := 47, va := 46, vb := 45, msk := 7, mz := true, me := true, et := .fp16 })
    ∧ decodeSlot (slotOf 0x601C01B8 0xC880000 0x0) = .ok (.vabs { zeroV with vd := 1, va := 46, msk := 6, me := true, et := .bf16 })
    ∧ decodeSlot (slotOf 0x602001B8 0xC880000 0x0) = .ok (.vneg { zeroV with vd := 1, va := 46, msk := 6, me := true, et := .bf16 })
    ∧ decodeSlot (slotOf 0x610001B8 0xC880000 0x0) = .ok (.vrcp { zeroV with vd := 1, va := 46, msk := 6, me := true, et := .bf16 })
    ∧ decodeSlot (slotOf 0x610401B8 0xC880000 0x0) = .ok (.vrsq { zeroV with vd := 1, va := 46, msk := 6, me := true, et := .bf16 })
    ∧ decodeSlot (slotOf 0x610801B8 0xC903000 0x0) = .ok (.vsqrt { zeroV with vd := 1, va := 46, msk := 6, me := true, et := .fp16, rm := .rup })
    ∧ decodeSlot (slotOf 0x610C01B8 0xC800000 0x0) = .ok (.vexp2 { zeroV with vd := 1, va := 46, msk := 6, me := true, et := .fp32 })
    ∧ decodeSlot (slotOf 0x611001B8 0xC800000 0x0) = .ok (.vlog2 { zeroV with vd := 1, va := 46, msk := 6, me := true, et := .fp32 })
    ∧ decodeSlot (slotOf 0x611401B8 0xC800000 0x0) = .ok (.vtanh { zeroV with vd := 1, va := 46, msk := 6, me := true, et := .fp32 })
    ∧ decodeSlot (slotOf 0x62002FBA 0xDFB80800 0x1) = .ok (.viadd { zeroV with vd := 47, va := 46, vb := 45, msk := 7, mz := true, me := true, et := .int32, sat := true, imm := 1 })
    ∧ decodeSlot (slotOf 0x62042FBA 0xDFB80800 0x1) = .ok (.visub { zeroV with vd := 47, va := 46, vb := 45, msk := 7, mz := true, me := true, et := .int32, sat := true, imm := 1 })
    ∧ decodeSlot (slotOf 0x62082FBA 0xDFB80800 0x1) = .ok (.vimul { zeroV with vd := 47, va := 46, vb := 45, msk := 7, mz := true, me := true, et := .int32, sat := true, imm := 1 })
    ∧ decodeSlot (slotOf 0x620C2FBA 0xDF980000 0x0) = .ok (.vand { zeroV with vd := 47, va := 46, vb := 45, msk := 7, mz := true, me := true, et := .e4m3 })
    ∧ decodeSlot (slotOf 0x62102FBA 0xDF980000 0x0) = .ok (.vor { zeroV with vd := 47, va := 46, vb := 45, msk := 7, mz := true, me := true, et := .e4m3 })
    ∧ decodeSlot (slotOf 0x62142FBA 0xDF980000 0x0) = .ok (.vxor { zeroV with vd := 47, va := 46, vb := 45, msk := 7, mz := true, me := true, et := .e4m3 })
    ∧ decodeSlot (slotOf 0x62182FBA 0xDFB80000 0x20) = .ok (.vshl { zeroV with vd := 47, va := 46, vb := 45, msk := 7, mz := true, me := true, et := .int32, imm := 32 })
    ∧ decodeSlot (slotOf 0x621C0108 0x300000 0x1F) = .ok (.vshr { zeroV with vd := 1, va := 2, et := .int8, imm := 31 })
    ∧ decodeSlot (slotOf 0x62200108 0x380000 0x5) = .ok (.vshra { zeroV with vd := 1, va := 2, et := .int32, imm := 5 }) :=
  ⟨rfl, rfl, rfl, rfl, rfl, rfl, rfl, rfl, rfl, rfl, rfl, rfl, rfl, rfl, rfl, rfl, rfl, rfl, rfl, rfl, rfl, rfl, rfl, rfl⟩

theorem test_decode_words_V2 :
    decodeSlot (slotOf 0x630007BA 0xD2B80000 0x9) = .ok (.vcmp { zeroV with vd := 7, va := 46, vb := 45, msk := 1, me := true, et := .int32, imm := 9 })
    ∧ decodeSlot (slotOf 0x63040108 0x38B00000 0x0) = .ok (.vsel { zeroV with vd := 1, va := 2, vb := 3, msk := 4, me := true, et := .int8 })
    ∧ decodeSlot (slotOf 0x63080718 0x50000000 0x5) = .ok (.mop { zeroV with vd := 7, va := 6, vb := 5, imm := 5 })
    ∧ decodeSlot (slotOf 0x630C001C 0x80300 0x1) = .ok (.mpop { zeroV with va := 7, et := .bf16, fd := 3, imm := 1 })
    ∧ decodeSlot (slotOf 0x640001B8 0xCA00000 0x0) = .ok (.vmov { zeroV with vd := 1, va := 46, msk := 6, me := true, et := .e5m2 })
    ∧ decodeSlot (slotOf 0x64040108 0x800FC 0x1) = .ok (.vbcast { zeroV with vd := 1, va := 2, gs := 63, et := .bf16, imm := 1 })
    ∧ decodeSlot (slotOf 0x640800BC 0x300284 0x0) = .ok (.vext { zeroV with va := 47, et := .int8, fd := 2, gs := 33 })
    ∧ decodeSlot (slotOf 0x640C2FBA 0xDFB80000 0x0) = .ok (.vperm { zeroV with vd := 47, va := 46, vb := 45, msk := 7, mz := true, me := true, et := .int32 })
    ∧ decodeSlot (slotOf 0x641001B8 0xCB00000 0x1FF) = .ok (.vshuf { zeroV with vd := 1, va := 46, msk := 6, me := true, et := .int8, imm := 511 })
    ∧ decodeSlot (slotOf 0x64142FBA 0xDF800000 0x80) = .ok (.vslide { zeroV with vd := 47, va := 46, vb := 45, msk := 7, mz := true, me := true, et := .fp32, imm := 128 })
    ∧ decodeSlot (slotOf 0x64182FBA 0xDF880000 0x3) = .ok (.vzip { zeroV with vd := 47, va := 46, vb := 45, msk := 7, mz := true, me := true, et := .bf16, imm := 3 })
    ∧ decodeSlot (slotOf 0x65000004 0x2B80100 0x6) = .ok (.vred { zeroV with va := 1, msk := 1, me := true, et := .int32, fd := 1, imm := 6 })
    ∧ decodeSlot (slotOf 0x65040304 0x0 0x2) = .ok (.vscan { zeroV with vd := 3, va := 1, et := .fp32, imm := 2 })
    ∧ decodeSlot (slotOf 0x65080004 0x20300300 0x0) = .ok (.vdot { zeroV with va := 1, vb := 2, et := .int8, fd := 3 })
    ∧ decodeSlot (slotOf 0x66000108 0x1C800 0x3) = .ok (.vcvt { zeroV with vd := 1, va := 2, et := .fp32, et2 := .e4m3, rm := .sr, sat := true, imm := 3 })
    ∧ decodeSlot (slotOf 0x66040108 0x30029800 0x1F) = .ok (.vqnt { zeroV with vd := 1, va := 2, vb := 3, et := .fp32, et2 := .e2m1x, rm := .rtz, sat := true, imm := 31 })
    ∧ decodeSlot (slotOf 0x66080108 0x30282000 0x1E) = .ok (.vdq { zeroV with vd := 1, va := 2, vb := 3, et := .e2m1x, rm := .rdn, imm := 30 })
    ∧ decodeSlot (slotOf 0x660C0108 0x430000 0x1) = .ok (.vlut { zeroV with vd := 1, va := 2, et := .lut4, et2 := .int8, imm := 1 })
    ∧ decodeSlot (slotOf 0x67000108 0x30338800 0x3) = .ok (.vmac { zeroV with vd := 1, va := 2, vb := 3, et := .int8, et2 := .int32, sat := true, imm := 3 })
    ∧ decodeSlot (slotOf 0x67040108 0x3800C8 0x0) = .ok (.vclamp { zeroV with vd := 1, va := 2, et := .int32, gs := 50 })
    ∧ decodeSlot (slotOf 0xB8002800 0xF0 0x4F) = .ok (.rcpBind { zeroV with vd := 40, gs := 60, imm := 79 })
    ∧ decodeSlot (slotOf 0xB8042900 0x0 0x0) = .ok (.rcpFree { zeroV with vd := 41 })
    ∧ decodeSlot (slotOf 0xB8082A00 0x0 0x0) = .ok (.rcpDrop { zeroV with vd := 42 })
    ∧ decodeSlot (slotOf 0xB80C2B00 0x0 0x0) = .ok (.rcpAnch { zeroV with vd := 43 })
    ∧ decodeSlot (slotOf 0xB81000B0 0x300 0x0) = .ok (.rcpQry { zeroV with va := 44, fd := 3 }) :=
  ⟨rfl, rfl, rfl, rfl, rfl, rfl, rfl, rfl, rfl, rfl, rfl, rfl, rfl, rfl, rfl, rfl, rfl, rfl, rfl, rfl, rfl, rfl, rfl, rfl, rfl⟩

theorem test_decode_words_X :
    decodeSlot (slotOf 0x90003FEF 0xE1FFFFFF 0x0) = .ok (.mma { zeroX with ca := 3, da := 15, db := 14, gl := 63, gw := 33, loff := 2047, woff := 8191 })
    ∧ decodeSlot (slotOf 0x90042120 0xC400A006 0x0) = .ok (.mmaz { zeroX with ca := 2, da := 1, db := 2, gl := 3, gw := 4, loff := 5, woff := 6 })
    ∧ decodeSlot (slotOf 0x90083000 0x0 0x0) = .ok (.mzero { zeroX with ca := 3 })
    ∧ decodeSlot (slotOf 0x900C1000 0x80006000 0x2963000) = .ok (.movc { zeroX with ca := 1, gl := 2, loff := 3, fd := 2, dc := 9, et := .int8, rm := .rtz, sat := true })
    ∧ decodeSlot (slotOf 0x90101000 0x2000003 0x1916000) = .ok (.movcv { zeroX with ca := 1, gw := 2, woff := 3, fd := 1, dc := 9, et := .bf16, rm := .rup })
    ∧ decodeSlot (slotOf 0x90140700 0x0 0xA0000000) = .ok (.mdesc { zeroX with da := 7, gc := 40 })
    ∧ decodeSlot (slotOf 0x90180705 0x0 0xA0000000) = .ok (.mgeo { zeroX with da := 7, gl := 20, gc := 40 })
    ∧ decodeSlot (slotOf 0x901C0000 0x0 0xA4000000) = .ok (.lutld { zeroX with gc := 41 })
    ∧ decodeSlot (slotOf 0x90200000 0x0 0x0) = .ok (.mwait zeroX)
    ∧ decodeSlot (slotOf 0x90240000 0x0 0xA8000000) = .ok (.mwt { zeroX with gc := 42 }) :=
  ⟨rfl, rfl, rfl, rfl, rfl, rfl, rfl, rfl, rfl, rfl⟩

theorem test_decode_words_C :
    decodeSlot (slotOf 0xA0000108 0x31140240 0x0) = .ok (.cpy { zeroC with gs := 1, gd := 2, gn := 3, gk := 4, ds := 5, ss := .vault, dsp := .ls })
    ∧ decodeSlot (slotOf 0xA0040108 0x1140046 0x0) = .ok (.cpyc { zeroC with gs := 1, gd := 2, gk := 4, ds := 5, dsp := .ls, gp := 6 })
    ∧ decodeSlot (slotOf 0xA0080108 0x1169440 0xFFFF) = .ok (.cpym { zeroC with gs := 1, gd := 2, gk := 4, ds := 5, mc := 165, dsp := .ls, len := 65535 })
    ∧ decodeSlot (slotOf 0xA00C0108 0x1140286 0x0) = .ok (.cpyg { zeroC with gs := 1, gd := 2, gk := 4, ds := 5, ss := .vault, dsp := .vault, gp := 6 })
    ∧ decodeSlot (slotOf 0xA0100108 0x1140186 0x0) = .ok (.cpys { zeroC with gs := 1, gd := 2, gk := 4, ds := 5, ss := .ls, dsp := .vault, gp := 6 })
    ∧ decodeSlot (slotOf 0xA0140108 0x31140100 0x27000000) = .ok (.cpyr { zeroC with gs := 1, gd := 2, gn := 3, gk := 4, ds := 5, ss := .ls, rop := .min, et := .int32 })
    ∧ decodeSlot (slotOf 0xA0180024 0x3F 0x0) = .ok (.cpyq { zeroC with gd := 9, gp := 63 })
    ∧ decodeSlot (slotOf 0xA01C0000 0x3E 0x1) = .ok (.cpyk { zeroC with gp := 62, len := 1 }) :=
  ⟨rfl, rfl, rfl, rfl, rfl, rfl, rfl, rfl⟩

theorem test_decode_words_S :
    decodeSlot (slotOf 0xC0000114 0xF0000000 0x0) = .ok (.srd { zeroS with gd := 1, sel := 335 })
    ∧ decodeSlot (slotOf 0xC0040100 0xB0000000 0x3F) = .ok (.swr { zeroS with gd := 1, sel := 11, imm := 63 })
    ∧ decodeSlot (slotOf 0xC0080100 0x0 0xA) = .ok (.geo { zeroS with gd := 1, imm := 10 })
    ∧ decodeSlot (slotOf 0xC00C0200 0x0 0x0) = .ok (.clk { zeroS with gd := 2 })
    ∧ decodeSlot (slotOf 0xC0100300 0x0 0x4) = .ok (.id { zeroS with gd := 3, imm := 4 })
    ∧ decodeSlot (slotOf 0xD0000100 0x830000 0x1) = .ok (.winRd { zeroS with gd := 1, ga := 2, gb := 3, imm := 1 })
    ∧ decodeSlot (slotOf 0xD0040100 0x30000 0x2) = .ok (.winWr { zeroS with gd := 1, gb := 3, imm := 2 })
    ∧ decodeSlot (slotOf 0xD0080100 0x800000 0x0) = .ok (.grpFrz { zeroS with gd := 1, ga := 2 })
    ∧ decodeSlot (slotOf 0xD00C0100 0x800000 0x0) = .ok (.grpThaw { zeroS with gd := 1, ga := 2 })
    ∧ decodeSlot (slotOf 0xD0100100 0x800000 0x0) = .ok (.grpKill { zeroS with gd := 1, ga := 2 })
    ∧ decodeSlot (slotOf 0xD0140000 0x830000 0x0) = .ok (.tlbInv { zeroS with ga := 2, gb := 3 }) :=
  ⟨rfl, rfl, rfl, rfl, rfl, rfl, rfl, rfl, rfl, rfl, rfl⟩

/-- The worked encodings of the spec's chapters: 09_line.md (atom), 06_scalar.md (loop), 20_programs_data.md (cpy, fence.xp, st.q), 07_vector.md (vred),
22_hypothesis.md (hyp.open), 23_recipe.md (rcp.qry); NOP with a guard (R41: k5 inverted). -/
theorem test_decode_worked_words :
    decodeSlot (slotOf 0x400C0720 0x96B00000 0x10)
      = .ok (.atom { zeroM with gt := 7, gb := 8, gx := 9, sz := .d, ord := .acq, scp := .mod, off := 16 })
    ∧ decodeSlot (slotOf 0x01140000 0x00290000 2) = .ok (.loop { zeroB with cnt := 10, cs := true, off := 2 })
    ∧ decodeSlot (slotOf 0x40080814 0x08000000 0) = .ok (.st { zeroM with gt := 8, gb := 5, sz := .q })
    ∧ decodeSlot (slotOf 0x4C040000 0 0) = .ok (.fenceXp zeroM)
    ∧ decodeSlot (slotOf 0xA0000108 0x02C00000 0x100) = .ok (.cpy { zeroC with gs := 1, gd := 2, gk := 11, len := 0x100 })
    ∧ decodeSlot (slotOf 0x65000004 0x02800000 0) = .ok (.vred { zeroV with va := 1, msk := 1, me := true })
    ∧ decodeSlot (slotOf 0xB0000018 0x00C00000 0) = .ok (.hypOpen { zeroY with gv1 := 6, gst := 3 })
    ∧ decodeSlot (slotOf 0xB81000A4 0x100 0) = .ok (.rcpQry { zeroV with va := 41, fd := 1 })
    ∧ decodeSlot (slotOf 0 0 0) = .ok (.nop { grd := always })
    ∧ decodeSlot (slotOf 0x00034000 0 0) = .ok (.nop { grd := { inv := true, k := 5 } }) :=
  ⟨rfl, rfl, rfl, rfl, rfl, rfl, rfl, rfl, rfl, rfl⟩


/-! ### Terms that no instruction is: one for each check of WellFormed -/

/-- Guards, unused fields, rounding modes, condition codes and immediates of format A and I (R41-R45, R53, R124-R131). -/
theorem test_ill_formed_scalar :
    [.nop { grd := { inv := true, k := 0 } }, .add { zeroA with imm := 1 }, .addi { zeroA with gb := 1 }, .clz { zeroA with gb := 1 },
     .add { zeroA with kd := 1 }, .add { zeroA with ka := 1 }, .add { zeroA with kb := 1 }, .add { zeroA with cc := 1 },
     .kop { zeroA with gd := 1 }, .kop { zeroA with ga := 1 }, .sel { zeroA with w := .w32 }, .add { zeroA with rm := .rtz },
     .fadd { zeroA with rm := .sr }, .cmp { zeroA with cc := 10 }, .kop { zeroA with cc := 6 }, .fcmp { zeroA with cc := 4 },
     .fcmp { zeroA with cc := 12 }, .lea { zeroA with imm := 8 }, .bfxImm { zeroA with imm := 0x4100 }, .bfiImm { zeroA with imm := 0x40 },
     .bfx { zeroA with w := .w8 }, .fcvt { zeroA with imm := 8 }, .fclass { zeroA with imm := 512 }, .fsgn { zeroA with imm := 3 },
     .fget { zeroA with imm := 4 }, .movh { zeroI with imm := 65536 }].all (fun i : Instr => !i.wf) = true := by decide

/-- Formats B, S and M (R46, R51, R52, R56, R108, R199-R208, R222). -/
theorem test_ill_formed_control_and_memory :
    [.br { zeroB with ga := 1 }, .br { zeroB with glk := 1 }, .br { zeroB with cs := true }, .br { zeroB with cnt := 1 },
     .br { zeroB with ls := 1 }, .ret { zeroB with off := 1 }, .loop zeroB,
     .loop { zeroB with off := 1, cs := true, ga := 1 }, .loop { zeroB with off := 1, cnt := 1 }, .srd zeroS, .srd { zeroS with sel := 0xD00 },
     .srd { zeroS with sel := 2, imm := 2 }, .srd { zeroS with sel := 1, imm := 1 }, .clk { zeroS with sel := 1 }, .clk { zeroS with ga := 1 },
     .clk { zeroS with gb := 1 }, .tlbInv { zeroS with gd := 1 }, .geo { zeroS with imm := 11 }, .id { zeroS with imm := 5 },
     .winRd { zeroS with imm := 3 }, .winRd { zeroS with imm := 2, ga := 1 }, .ld { zeroM with ord := .rel }, .st { zeroM with ord := .acq },
     .ld { zeroM with scp := .clu }, .ld { zeroM with sz := .q, gt := 1 }, .cas { zeroM with sz := .q, gx := 1 }, .ld { zeroM with gx := 1 },
     .ld { zeroM with aop := .xchg }, .ld { zeroM with me := true }, .ld { zeroM with msk := 1 }, .lds { zeroM with sz := .d },
     .atom { zeroM with sz := .h }, .atom { zeroM with sz := .d, aop := .fadd }, .cas { zeroM with sz := .b }, .pref { zeroM with gt := 1 },
     .vld { zeroM with gt := 48 }, .vldg { zeroM with gx := 48 }, .l1invAll zeroM, .l1invAll { zeroM with me := true, gb := 1 },
     .l1invAll { zeroM with me := true, off := 1 }, .fence zeroM].all (fun i : Instr => !i.wf) = true := by decide

/-- Formats V, X, C and Y (R47-R50, R137-R159, R165-R177, R227-R244, R283-R325, R405). -/
theorem test_ill_formed_units_and_cells :
    [.vadd { zeroV with vd := 48 }, .vadd { zeroV with va := 48 }, .vadd { zeroV with vb := 48 }, .vabs { zeroV with vb := 1 },
     .vadd { zeroV with et := .int32 }, .viadd { zeroV with et := .fp32 }, .vadd { zeroV with gs := 1 }, .vadd { zeroV with msk := 1 },
     .vadd { zeroV with mz := true }, .vadd { zeroV with sat := true }, .vadd { zeroV with fd := 1 }, .vmin { zeroV with rm := .rup },
     .vadd { zeroV with et2 := .bf16 }, .mop { zeroV with imm := 6 }, .mop { zeroV with vd := 8 }, .mop { zeroV with vb := 8 },
     .mpop { zeroV with va := 8 }, .mop { zeroV with me := true }, .viadd { zeroV with et := .int8, imm := 1 },
     .vshl { zeroV with et := .int8, imm := 3, vb := 1 }, .vshl { zeroV with et := .int8, imm := 33 }, .vcmp { zeroV with imm := 4 },
     .vcmp { zeroV with et := .int8, imm := 10 }, .vsel zeroV, .vbcast { zeroV with va := 1 }, .vshuf { zeroV with imm := 128 },
     .vslide { zeroV with imm := 129 }, .vzip { zeroV with imm := 4 }, .vred { zeroV with imm := 5 }, .vred { zeroV with imm := 3, et := .int8 },
     .vcvt zeroV, .vcvt { zeroV with et2 := .bf16, imm := 2 }, .vmac zeroV, .vmac { zeroV with et := .bf16, imm := 2 },
     .rcpBind { zeroV with imm := 0x50 }, .rcpBind { zeroV with imm := 0x20, gs := 63 }, .rcpBind { zeroV with gs := 1 },
     .mma { zeroX with dc := 1 }, .mma { zeroX with gc := 1 }, .mma { zeroX with fd := 1 }, .mma { zeroX with et := .int8 },
     .movc { zeroX with rm := .sr }, .movc { zeroX with sat := true }, .movc { zeroX with woff := 1 }, .movcv { zeroX with loff := 1 },
     .mwait { zeroX with ca := 1 }, .mzero { zeroX with da := 1 }, .mdesc { zeroX with db := 1 }, .lutld { zeroX with gl := 1 }, .cpyc zeroC,
     .cpym { zeroC with dsp := .ls }, .cpy { zeroC with mc := 1 }, .cpy { zeroC with gp := 1 }, .cpyr { zeroC with et := .fp16 },
     .cpy { zeroC with rop := .max }, .cpy { zeroC with gn := 1, len := 16 }, .cpyg { zeroC with ss := .ls }, .cpys { zeroC with dsp := .ls }, .cpyg { zeroC with len := 1 },
     .cpyk { zeroC with len := 2 }, .cpyq { zeroC with gk := 1 }, .cpyq { zeroC with ds := 1 }, .cellInit zeroY,
     .cellInit { zeroY with imm := 3, gv2 := 1 }, .cellInit { zeroY with imm := 0x8C }, .cellInit { zeroY with imm := 0x404 },
     .ctrRd { zeroY with gv2 := 1 }, .hypOpen { zeroY with f := true }, .ctrRd { zeroY with ls := 1 }, .ctrRd { zeroY with imm := 1 },
     .ctrRd { zeroY with src := .two }, .barArw zeroY, .qPut { zeroY with gv2 := 1 }, .qPut { zeroY with src := .ls, imm := 4 },
     .qPut { zeroY with src := .two, gl := 1 }, .qJoinGovernor zeroY, .hypRsv { zeroY with imm := 2 }].all (fun i : Instr => !i.wf) = true := by decide


/-! ### One step each, against worked values of the spec -/

/-- The placed strand with g registers 1, 2, 3 ... set to a list, ready to run a slot. -/
def withG (w : SlotBits) (xs : List Word64) : State :=
  let s := State.reset.placeSlot w
  { s with cur := { s.cur with g := Vector.ofFn fun n => if n.val = 0 then 0 else (xs[n.val - 1]?).getD 0 } }
/-- What a step leads to; the state itself when it does not go on. -/
def stepped (s : State) : State := match step s with
  | .next t => t
  | _ => s
/-- The same of one instruction. -/
def after (i : Instr) (s : State) : State := match exec i s with
  | .next t => t
  | _ => s
/-- A state with no slot of its own. -/
def base : State := withG 0 []

/-- `add.w g3, g1, g2` (06_scalar.md after R123): the upper bits are ignored and the sum wraps; the PC moves on by one slot. -/
theorem test_step_add_wraps :
    let u := stepped (withG (slotOf 0x10000304 0x20020000 0) [0x1234FFFFFFFF, 1, 7])
    u.cur.g.get 3 = 0 ∧ u.cur.pc = 1 ∧ u.cur.status = .run := by decide +kernel

/-- `divs.b g3, g1, g2` (06_scalar.md after R123). -/
theorem test_step_divs_corner :
    (stepped (withG (slotOf 0x10180304 0x20060000 0) [0x80, 0xFF])).cur.g.get 3 = 0xFFFFFFFFFFFFFF80 := by decide +kernel

/-- `rems.h g3, g1, #-3` (06_scalar.md after R123). -/
theorem test_rems_sign :
    (after (.remsImm { zeroA with gd := 3, ga := 1, w := .w16, imm := 0xFFFFFFFD }) (withG 0 [0xFFF9])).cur.g.get 3 = 0xFFFFFFFFFFFFFFFF := by
  decide +kernel

/-- Division by zero (R123; the run of 06_scalar.md leaves all ones in g3). -/
theorem test_div_by_zero :
    let u := after (.div { zeroA with gd := 3, ga := 1, gb := 2 }) (withG 0 [55, 0])
    u.cur.g.get 3 = 0xFFFFFFFFFFFFFFFF ∧ u.cur.dz = true := by decide +kernel

/-- The filler word faults, and the strand stays at it (R58, R10). -/
theorem test_step_filler_faults :
    let u := stepped (withG (slotOf 0xFFFFFFFF 0xFFFFFFFF 0xFFFFFFFF) [])
    u.cur.status = .frozen ∧ u.cur.pc = 0 ∧ u.records.map (fun d => d.record.code) = [.illegalOp] := by decide +kernel

/-- `loop #10, end` two slots on, as in the run of 06_scalar.md, pushes one entry. -/
theorem test_step_loop :
    (stepped (withG (slotOf 0x01140000 0x00290000 2) [])).cur.loops = [{ start := 1, final := 2, count := 10 }] := by decide +kernel

/-- CALL links the next slot's PC (R114). -/
theorem test_call_links :
    let u := after (.call { zeroB with glk := 63, off := 6 }) base
    u.cur.g.get 63 = 1 ∧ u.last = .transfer 0x41 := by decide +kernel

/-- FP32 1.0 + 2.0 and 1.0 / 0.0 (R128). -/
theorem test_fadd_fdiv :
    (after (.fadd { zeroA with gd := 3, ga := 1, gb := 2 }) (withG 0 [0x3F800000, 0x40000000])).cur.g.get 3 = 0x40400000
    ∧ (after (.fdiv { zeroA with gd := 3, ga := 1, gb := 2 }) (withG 0 [0x3F800000, 0])).cur.g.get 3 = 0x7F800000 := by decide +kernel

/-- 0x007F8000 lies below the smallest normal number, so that rounding it away from zero to BF16 raises UF with NX under each mode (R80). -/
theorem test_rounded_up_from_below_normal :
    convertFloat fp32Format bf16Format .rup false 0 0x007F8000 = (0x0080, flagUF ||| flagNX)
    ∧ convertFloat fp32Format bf16Format .sr false 0 0x007F8000 = (0x0080, flagUF ||| flagNX) := by decide +kernel

/-- The table after R175: M = 40, N = 600, K = 512, KSLC = 256, T = 8, strand index 5. -/
def tableDesc : LineBits := BitVec.ofNat 512 (1 + 6 * 2 ^ 8 + 16 * 2 ^ 32 + 40 * 2 ^ 64 + 600 * 2 ^ 96 + 512 * 2 ^ 128 + 256 * 2 ^ 160 + 64 * 2 ^ 192)
def tableStrand (x : Word64) : State :=
  let s := withG 0 [x]
  { s with cur := { s.cur with d := s.cur.d.set 2 tableDesc, scnt := 4, nx := 2, ny := 1, nz := 1, gx := 1, id := { s.cur.id with sidx := 1 } } }
theorem test_mgeo_table :
    [0, 1, 2].map (fun x => (after (.mgeo { zeroX with da := 2, gl := 1, gc := 3 }) (tableStrand x)).cur.g.get 3)
      = [0x157F000200000000, 0x1FF7000000000020, 0x8000000000000000] := by decide +kernel

/-- A store is posted with tag 1; its home writes the byte; nothing before that (R189, R190). -/
theorem test_store_is_posted :
    let s := { withG 0 [0xAB, 0x100] with tlb := [{ cluster := { site := 0, cluster := 0 }, cix := 1, leaf := { placedLeaf 0 with st := .mapped, w := true } }] }
    let u := after (.st { zeroM with gt := 1, gb := 2 }) s
    let v := after (.homeWrite s.fresh) u
    u.cur.unacked = [1] ∧ readByte u.mem 0x100 = 0 ∧ readByte v.mem 0x100 = 0xAB := by decide +kernel


/-! ### Witnesses: the hypotheses of each obligation are met -/

/-- A live set of everything. -/
def everything : LiveSet := { g := BitVec.allOnes 64, v := BitVec.allOnes 48, c := 15, f := 15, ls := [] }
/-- A kernel with one entry of 4 KiB of local store and one live set. -/
def smallKernel : Kernel :=
  { kid := 0, kimg := 0, st := .loaded, copied := true, header := blankHeader, entries := [{ index := 0, store := 4096, name := 0 }], lives := [everything], recipes := []
    sgens := [], actv := 1 }
def dataLeaf : Leaf := { placedLeaf 0 with vbase := 0x20000, frame := 0x20000, sealable := false, w := true, st := .mapped, entry := 0x10020 }
def syncLeaf : Leaf := { dataLeaf with vbase := 0x30000, frame := 0x30000, sync := true, entry := 0x10030 }
def pageLeaf : Leaf := { dataLeaf with vbase := 0x40000, frame := 0x40000, sealable := true, entry := 0x10040 }
/-- Pages of the placed part: data at 0x20000, cells at 0x30000, a sealable page at 0x40000; its entry's local store is 4 KiB; g1, g2, ... as
listed. -/
def world (xs : List Word64) : State :=
  let s := withG 0 xs
  { s with tlb := [dataLeaf, syncLeaf, pageLeaf].map (fun l => { cluster := { site := 0, cluster := 0 }, cix := 1, leaf := l })
           parts := s.parts.map fun p => { p with kernels := [smallKernel] } }
/-- The same for the foreman. -/
def foremanWorld (xs : List Word64) : State :=
  let s := world xs
  { s with cur := { s.cur with fmn := true } }
def noTarget : Target := { va := 0, mid := 0, pa := 0, leaf := placedLeaf 0 }
/-- What a translation gives, as data. -/
def got : Except FaultInfo Target → Target
  | .ok t => t
  | .error _ => noTarget
def gives (x : Except FaultInfo Target) (t : Target) : Bool := match x with
  | .ok y => decide (y = t)
  | .error _ => false
theorem gives_eq {x : Except FaultInfo Target} {t : Target} (h : gives x t = true) : x = .ok t := by
  cases x with
  | error e => simp [gives] at h
  | ok y => simpa [gives] using h
theorem error_of {x : Except FaultInfo Target} (h : (match x with
    | .ok _ => false
    | .error _ => true) = true) : ∃ e, x = .error e := by
  cases x with
  | error e => exact ⟨e, rfl⟩
  | ok y => simp at h
/-- Reaches, as a computation. -/
def reaches (s : State) (va : Word64) (n : Nat) (kind : Kind) (t : Target) : Bool :=
  decide (s.cur.blocked = none) && decide (va.extractLsb' 56 8 = 0) && decide (va.toNat % n = 0) && gives (s.translate s.cix (coreCluster s.cur.place) va kind) t
    && decide (t.mid = s.mid) && decide (t.leaf.sync = true → (s.granule t.pa).tag = .free)
    && decide (kind = .write → t.leaf.st = .mapped ∧ (s.cur.hcur.toNat % 4096 = 0 ∨ t.leaf.hyp = true))
theorem reaches_of {s : State} {va : Word64} {n : Nat} {kind : Kind} {t : Target} (h : reaches s va n kind t = true) : Reaches s va n kind t := by
  simp only [reaches, Bool.and_eq_true, decide_eq_true_eq] at h
  exact ⟨h.1.1.1.1.1.1, h.1.1.1.1.1.2, h.1.1.1.1.2, gives_eq h.1.1.1.2, h.1.1.2, h.1.2, h.2⟩

theorem witness_IntegerResults : Executes zeroA.grd base ∧ Executes { inv := true, k := 3 } base := by unfold Executes; decide +kernel
theorem witness_DivisionsAndBitFields : Executes zeroA.grd base ∧ Width.w32 ≠ .w64 ∧ (Instr.bfxImm { zeroA with imm := 0x403F }).wf = true
    ∧ ¬((0x4100 : BitVec 32).extractLsb' 15 17 = 0 ∧ (0x4100 : BitVec 32).extractLsb' 6 2 = 0 ∧ ((0x4100 : BitVec 32).extractLsb' 8 7).toNat ≤ 64) := by
  unfold Executes; decide +kernel
theorem witness_PredicatesConstantsAndAddresses : Executes zeroA.grd base ∧ 10 ≤ (10 : BitVec 4).toNat ∧ 6 ≤ (6 : BitVec 4).toNat
    ∧ (1 : BitVec 6) ≠ 0 ∧ 2 ^ 16 ≤ (0x10000 : BitVec 48).toNat ∧ 8 ≤ (8 : BitVec 32).toNat := by
  unfold Executes; decide +kernel
theorem witness_ScalarFloatResults : Executes zeroA.grd base ∧ (2 : BitVec 32).toNat < 3 ∧ 0x7FFFFFFF < 2 ^ 32
    ∧ decodeFloat fp32Format 0x7F800000 ≠ .nan ∧ decodeFloat fp32Format 0x7F800001 = .nan
    ∧ decodeFloat fp32Format (((withG 0 [0x7F800001]).rdG 1).toNat % 2 ^ 32) = .nan := by unfold Executes; decide +kernel
theorem witness_ConversionsAndClasses : Executes zeroA.grd (withG 0 [0x7FC00000])
    ∧ decodeFloat fp32Format (((withG 0 [0x7FC00000]).rdG 1).toNat % 2 ^ 32) = .nan := by unfold Executes; decide +kernel
/-- f0 EMPTY with and without a producer, and FULL. -/
def withF (r : FullEmpty) : State := { base with cur := { base.cur with f := base.cur.f.set 0 r } }
theorem witness_RegisterWritesAndFullEmptyReads : (63 : BitVec 6) ≠ 0 ∧ (7 : BitVec 3) ≠ 0
    ∧ Executes zeroA.grd (withF { value := 1, arrived := false, producers := [(1, none)] })
    ∧ ((withF { value := 1, arrived := false, producers := [(1, none)] }).cur.f' 0).producers ≠ []
    ∧ Executes zeroA.grd (withF { value := 1, arrived := true, producers := [] })
    ∧ ((withF { value := 1, arrived := true, producers := [] }).cur.f' 0).arrived = true
    ∧ (base.cur.f' 0).producers = [] ∧ (base.cur.f' 0).arrived = false
    ∧ (let full := withF { value := 1, arrived := true, producers := [] }
       let second : State := { withF { value := 1, arrived := false, producers := [] } with opnd := some { before := full.cur, since := 0 } }
       Executes zeroA.grd second ∧ (second.src.f' 0).producers = [] ∧ (second.src.f' 0).arrived = true ∧ second.opnd ≠ none) := by
  unfold Executes; decide +kernel

def oneLoop : LoopEntry := { start := 1, final := 2, count := 1 }
/-- Offsets at both ends of the space and beyond it, a register that is a PC and one that is none, loops and none. -/
theorem witness_TransfersAndTheirFaults :
    let far : BitVec 40 := 0xFFFFFFFFFF
    let s := withG 0 [0xFFFFFFFFFFFFC4, 0x5]
    Executes zeroB.grd s ∧ (0 ≤ (base.cur.pc.toNat / 64 * 5 : Int) + (0 : BitVec 40).toInt) ∧ (base.cur.pc.toNat / 64 * 5 : Int) + far.toInt < 0
    ∧ ((s.rdG 1).extractLsb' 56 8 = 0 ∧ (s.rdG 1).extractLsb' 3 3 = 0 ∧ (s.rdG 1).toNat % 8 ≤ 4)
    ∧ ¬((s.rdG 2).toNat % 8 ≤ 4) ∧ base.cur.loops = [] := by unfold Executes; decide +kernel
theorem witness_LoopsRepeatTheirBodies :
    Executes zeroB.grd base ∧ (0 : BitVec 40).toInt < 1 ∧ 1 ≤ (1 : BitVec 40).toInt
    ∧ 2 ^ 48 ≤ ((withG 0 [0x1000000000000]).rdG 1).toNat ∧ (0 < ((withG 0 [0xFFFFFFFFFFFF]).rdG 1).toNat ∧ ((withG 0 [0xFFFFFFFFFFFF]).rdG 1).toNat < 2 ^ 48)
    ∧ (List.replicate 4 oneLoop).length = 4 ∧ (∀ e ∈ [oneLoop], 0 ≤ e.final ∧ e.final ≤ 2 ∧ e.count ≤ 1)
    ∧ (0 ≤ ({ oneLoop with count := 2 } : LoopEntry).final ∧ ({ oneLoop with count := 2 } : LoopEntry).final ≤ 2
        ∧ 1 < ({ oneLoop with count := 2 } : LoopEntry).count)
    ∧ ¬(0 ≤ ({ oneLoop with final := 3 } : LoopEntry).final ∧ ({ oneLoop with final := 3 } : LoopEntry).final ≤ 2) := by unfold Executes; decide +kernel
theorem witness_NopExitTrapAndBreak :
    Executes zeroB.grd base ∧ base.cur.fmn = false ∧ Executes zeroB.grd (foremanWorld []) ∧ (foremanWorld []).cur.fmn = true := by
  unfold Executes; decide +kernel
/-- A group under pre-emption that holds a reservation. -/
def preempted : State :=
  let s := world []
  { s with groups := [{ id := placedStrand.grp, st := .resident, held := false, preempt := some 0, frozenAt := 0, overrun := false,
                        reserve := some (0, 4096, 0), fullSent := false }]
           cur := { s.cur with unacked := [1] } }
theorem witness_PreemptionPoints :
    (world []).cur.status = .run ∧ (world []).liveCount ≤ (1 : BitVec 8).toNat ∧ ExecutesWait zeroB.grd 0 (world [])
    ∧ (world []).preemptPending (world []).cur.id.grp = false ∧ (world []).yieldGranted = false
    ∧ ExecutesWait zeroB.grd 0 preempted ∧ preempted.preemptPending preempted.cur.id.grp = true
    ∧ ∃ g, preempted.group? preempted.cur.id.grp = some g ∧ g.reserve ≠ none ∧ preempted.cur.unacked ≠ [] := by
  refine ⟨by decide +kernel, by decide +kernel, ?_, by decide +kernel, by decide +kernel, ?_, by decide +kernel,
    ⟨_, rfl, by decide +kernel, by decide +kernel⟩⟩ <;> (unfold ExecutesWait Executes; decide +kernel)

/-- A queued vector command, and the world with it. -/
def someVec : VecCommand :=
  { stamp := 0, action := .compute .vadd zeroV, scalar := 0, luta := 0, lutb := 0, hyp := 0, pc := 0, ranges := [], got := []
    view := [], rels := [], waiting := none }
def withVec (s : State) : State := { s with cur := { s.cur with vq := [someVec] } }
/-- Executes, checked by computation. -/
theorem executes_of {g : Guard} {s : State} (h : (decide (s.cur.status = .run) && guardHolds g s) = true) : Executes g s := by
  simpa [Executes] using h

theorem witness_SystemRegisters :
    (Executes always (world []) ∧ (world []).cur.fmn = false) ∧ (Executes always (foremanWorld []) ∧ (foremanWorld []).cur.fmn = true)
    ∧ (Executes always (withVec (world [])) ∧ (withVec (world [])).cur.vq ≠ []) ∧ ((world []).cur.vq = [] ∧ (world []).cur.tq = [])
    ∧ (world []).cur.loops.length < 8
    ∧ ((0x14F : BitVec 12).toNat = 0x100 + 79) ∧ (world []).cur.bud ≤ (world []).budSum (coreHalf (world []).cur.place)
    ∧ ((48 : BitVec 6).toNat ≤ 48 ∧ (world []).cur.heldCount ≤ 48
        ∧ (world []).budSum (coreHalf (world []).cur.place) - (world []).cur.bud + 48 ≤ 144) ∧ ¬((49 : BitVec 6).toNat ≤ 48)
    ∧ ((foremanWorld []).part? (foremanWorld []).cix).isSome = true := by
  refine ⟨⟨executes_of (by decide +kernel), ?_⟩, ⟨executes_of (by decide +kernel), ?_⟩, ⟨executes_of (by decide +kernel), ?_⟩, ?_⟩ <;> decide +kernel

/-- A request in flight for the issuing strand, and the world with it and an unacknowledged tag. -/
def sentLoad : Request :=
  { id := 0, party := .strand placedStrand, loc := 0, sig := 0, cix := 1, target := { va := 0x20000, mid := 0, pa := 0x20000, leaf := dataLeaf }, kind := .read 8
    reply := .regs 1 8 false, hyp := 0, tag := none, pc := 0, number := 0, view := [], rels := [], fill := false, skip := [], done := false, seen := 0, bad := none
    value := 0, line := 0 }
def loading : State := { world [] with net := [sentLoad] }
def storing : State :=
  let s := world [1]
  { s with cur := { s.cur with unacked := [1], seqTag := 1 } }
theorem witness_FencesAndSequenceWord :
    (Executes always (world []) ∧ (world []).loadsOut = false ∧ (world []).cur.unacked = [] ∧ (world []).cur.lost = [])
    ∧ (Executes always loading ∧ loading.loadsOut = true)
    ∧ (Executes always storing ∧ storing.cur.unacked ≠ [] ∧ storing.loadsOut = false ∧ storing.cur.unacked.length ≤ 256
        ∧ storing.cur.unacked.any (wackCovers storing.cur.seqTag ((storing.rdG 1).setWidth 16)) = true)
    ∧ ((world [1]).cur.unacked.any (wackCovers (world [1]).cur.seqTag (((world [1]).rdG 1).setWidth 16)) = false) := by
  refine ⟨⟨executes_of (by decide +kernel), ?_⟩, ⟨executes_of (by decide +kernel), ?_⟩, ⟨executes_of (by decide +kernel), ?_⟩, ?_⟩ <;> decide +kernel

/-- Where 0x20000 and 0x4FFF0 of the world lie. -/
def dataAt (va : Word64) : Target := { va := va, mid := 0, pa := va.toNat, leaf := dataLeaf }
def cellAt (va : Word64) : Target := { va := va, mid := 0, pa := va.toNat, leaf := syncLeaf }
def pageAt (va : Word64) : Target := { va := va, mid := 0, pa := va.toNat, leaf := pageLeaf }
/-- The L1 holds the line of 0x20000. -/
def cached (xs : List Word64) : State :=
  { world xs with cores := [{ loc := { site := 0, cluster := 0, core := 1 }, store := []
                              l1 := [{ mid := 0, line := 0x20000, hyp := 0, isSealed := false, ofHyp := false, entry := 0x10020, vbase := 0x20000, bits := 16
                                       sgen := 0, seen := 0
                                       data := BitVec.ofNat 1024 (0x1234 + 2 * 2 ^ 64) }] }] }
/-- `ld.b [g1 + #0]` and its like: a misaligned address, an address nothing maps, the last byte of the page in memory, and the line in the L1. -/
theorem witness_GlobalLoads :
    let f : FormM := { zeroM with gt := 4, gb := 1, sz := .d }
    (Executes f.grd (world [0x20004]) ∧ ((world [0x20004]).rdG 1).toNat % 8 ≠ 0)
    ∧ (∃ e, (world [0x90000]).translate (world [0x90000]).cix (coreCluster (world [0x90000]).cur.place) (0x90000 + (0 : BitVec 40).signExtend 64) .read = .error e)
    ∧ (Reaches (world [0x2FFF8]) 0x2FFF8 8 .read (dataAt 0x2FFF8) ∧ (world [0x2FFF8]).lineQueued (dataAt 0x2FFF8) = false
        ∧ (world [0x2FFF8]).l1Find (dataAt 0x2FFF8) = none ∧ (world [0x2FFF8]).replicaFind (dataAt 0x2FFF8) = none)
    ∧ (Reaches (cached [0x20000]) 0x20000 8 .read (dataAt 0x20000) ∧ (cached [0x20000]).lineQueued (dataAt 0x20000) = false
        ∧ ((cached [0x20000]).l1Find (dataAt 0x20000)).isSome = true) := by
  refine ⟨⟨executes_of (by decide +kernel), by decide +kernel⟩, error_of (by decide +kernel),
    ⟨reaches_of (by decide +kernel), ?_⟩, ⟨reaches_of (by decide +kernel), ?_⟩⟩ <;> decide +kernel

/-- A SEALED page refuses a store (placedLeaf made writable); the window of tags is empty, and full. -/
def sealedWorld (xs : List Word64) : State :=
  { world xs with tlb := [{ cluster := { site := 0, cluster := 0 }, cix := 1, leaf := { pageLeaf with st := .sealed } }] }
def manyTags : State :=
  let s := world [7, 0x20000]
  { s with cur := { s.cur with unacked := (List.range 256).map fun n => BitVec.ofNat 16 (n + 1), seqTag := 256 } }
/-- One tag out, 256 steps behind the next. -/
def oldTag : State :=
  let s := world [7, 0x20000]
  { s with cur := { s.cur with unacked := [1], seqTag := 256 } }
theorem witness_PostedStores :
    let s := world [7, 0x2FFF8]
    (Executes always s ∧ Reaches s 0x2FFF8 8 .write (dataAt 0x2FFF8) ∧ s.lineQueued (dataAt 0x2FFF8) = false ∧ TagIsFree s)
    ∧ (Executes always manyTags ∧ Reaches manyTags 0x20000 8 .write (dataAt 0x20000) ∧ ¬TagIsFree manyTags ∧ manyTags.cur.unacked.length = 256
        ∧ ¬TagIsFree oldTag)
    ∧ (Executes always (sealedWorld []) ∧ (sealedWorld []).translate (sealedWorld []).cix (coreCluster (sealedWorld []).cur.place) 0x40000 .write
        = .ok { pageAt 0x40000 with leaf := { pageLeaf with st := .sealed } }) := by
  refine ⟨⟨executes_of (by decide +kernel), reaches_of (by decide +kernel), ?_⟩, ⟨executes_of (by decide +kernel), reaches_of (by decide +kernel), ?_⟩,
    ⟨executes_of (by decide +kernel), gives_eq (by decide +kernel)⟩⟩
  · exact ⟨by decide +kernel, by decide +kernel, by decide +kernel⟩
  · exact ⟨fun h => absurd h.1 (by decide +kernel), by decide +kernel, fun h => absurd (h.2 1 (by decide +kernel)) (by decide +kernel)⟩

/-- Safe, checked by computation. -/
def safe (s : State) : Bool := Memory.wf s.mem && s.cores.all fun c => Memory.wf c.store
theorem safe_of {s : State} (h : safe s = true) : Safe s := by
  simp only [safe, Bool.and_eq_true, List.all_eq_true] at h
  exact h
/-- An atomic at 0x20000: the old value 5 is met or missed by a CAS. -/
def five (xs : List Word64) : State :=
  let s := world xs
  { s with mem := writeByte s.mem 0x20000 5 }
/-- HomeIsQuiet, by computation. -/
def quiet (s : State) (t : Target) (n : Nat) (w : Bool) : Bool := match s.part? s.cix with
  | some p => s.inOrder t && (s.sliceVisit (p.home t.pa) t w).isSome && !s.isBad t.pa && !t.leaf.hyp && !t.leaf.plc.isHostly && !p.inRegion t.pa n
      && decide (s.otherKey t.leaf.hsh t.pa = false) && decide (s.lineVersions p.cix (lineOf t.pa) = []) && decide (∀ r ∈ s.recent, overlaps t.pa n r.pa r.size = true → r.size = n)
  | none => false
theorem quiet_of {s : State} {t : Target} {n : Nat} {w : Bool} (h : quiet s t n w = true) : ∃ p, HomeIsQuiet s t n w p := by
  unfold quiet at h
  split at h
  · next p hp =>
    simp only [Bool.and_eq_true, Bool.not_eq_true', decide_eq_true_eq] at h
    obtain ⟨⟨⟨⟨⟨⟨⟨⟨a, b⟩, c⟩, d⟩, e⟩, f⟩, g⟩, i⟩, j⟩ := h
    exact ⟨p, hp, a, b, c, d, e, f, g, i, j⟩
  · exact absurd h Bool.false_ne_true
theorem witness_AtomicsAtTheHome :
    let s := five [5, 0x20000, 9]
    let m := five [6, 0x20000, 9]
    Executes always s ∧ Safe s ∧ s.cur.blocked = none ∧ (s.loadsOut = false ∧ s.cur.unacked = [] ∧ s.cur.lost = [])
    ∧ Reaches s 0x20000 8 .write (dataAt 0x20000)
    ∧ (∃ p, HomeIsQuiet s (dataAt 0x20000) 8 true p) ∧ BitVec.ofNat 64 (readNat s.mem 0x20000 8) = (s.rdG 1).setWidth 64
    ∧ Executes always m ∧ Safe m ∧ (∃ p, HomeIsQuiet m (dataAt 0x20000) 8 true p) ∧ BitVec.ofNat 64 (readNat m.mem 0x20000 8) ≠ (m.rdG 1).setWidth 64 := by
  refine ⟨executes_of (by decide +kernel), safe_of (by decide +kernel), by decide +kernel, by decide +kernel, reaches_of (by decide +kernel),
    quiet_of (by decide +kernel), by decide +kernel, executes_of (by decide +kernel), safe_of (by decide +kernel), quiet_of (by decide +kernel),
    by decide +kernel⟩
/-- A load of a page of module 5, to be sent and answered. -/
def farWorld (b : Option Blocked) : State :=
  let s := world [0x20000]
  { s with tlb := [{ cluster := { site := 0, cluster := 0 }, cix := 1, leaf := { dataLeaf with mid := 5 } }], cur := { s.cur with blocked := b }
           peers := [{ mid := 5, inc := 1, lost := false, pathless := none }] }
def farAt : Target := { va := 0x20000, mid := 5, pa := 0x20000, leaf := { dataLeaf with mid := 5 } }
def farAnswer : Blocked := { pc := 0, asked := some 5, answer := some (.data 7), target := none, writes := false, sgen := none }
theorem witness_GlobalLoads_far :
    let s := farWorld none
    s.translate s.cix (coreCluster s.cur.place) 0x20000 .read = .ok farAt ∧ farAt.mid ≠ s.mid ∧ s.peerLost farAt.mid = false ∧ farAt.leaf.sync = false
    ∧ s.lineQueued farAt = false ∧ s.inOrder farAt = true ∧ s.l1Find farAt = none ∧ s.cur.blocked = none
    ∧ s.frames.contains (s.cix, 5, dataLeaf.frame, dataLeaf.bits) = false ∧ s.net = []
    ∧ ({ s with frames := [(1, 5, dataLeaf.frame, dataLeaf.bits)] } : State).frames.contains (s.cix, 5, dataLeaf.frame, dataLeaf.bits) = true
    ∧ (farWorld (some farAnswer)).cur.blocked = some farAnswer ∧ farAnswer.answer = some (.data 7) := by
  refine ⟨gives_eq (by decide +kernel), ?_⟩; decide +kernel
/-- The same at a free granule of a SYNC page, for a load. -/
theorem witness_GlobalLoads_sync :
    Reaches (world [0x30000]) 0x30000 8 .read (cellAt 0x30000) ∧ (cellAt 0x30000).leaf.sync = true
    ∧ ∃ p, HomeIsQuiet (world [0x30000]) (cellAt 0x30000) 8 false p := ⟨reaches_of (by decide +kernel), rfl, quiet_of (by decide +kernel)⟩

/-- The word 1 of the sealable page's leaf as MAPPED and as SEALED. -/
def sealWorld (c : Byte) : State :=
  let s := world [0x40000, 0x20000]
  { s with mem := writeByte s.mem (0x10040 + 12) c }
theorem witness_PrefetchInvalidateSealUnseal :
    (Executes always (sealWorld 0) ∧ (sealWorld 0).cur.blocked = none
      ∧ (sealWorld 0).translate (sealWorld 0).cix (coreCluster (sealWorld 0).cur.place) ((sealWorld 0).rdG 1 + (0 : BitVec 40).signExtend 64) .read = .ok (pageAt 0x40000)
      ∧ readNat (sealWorld 0).mem (0x10040 + 8) 8 / 2 ^ 32 % 4 = 0 ∧ (sealWorld 0).scribbled.contains 0x10040 = false
      ∧ (sealWorld 0).pageTurn 0x10040 = true)
    ∧ (readNat (sealWorld 1).mem (0x10040 + 8) 8 / 2 ^ 32 % 4 = 1 ∧ (sealWorld 1).pageStores 0x10040 = false
      ∧ (sealWorld 1).sealsPending 0x10040 = false)
    ∧ ((sealWorld 0).translate (sealWorld 0).cix (coreCluster (sealWorld 0).cur.place) ((sealWorld 0).rdG 2 + (0 : BitVec 40).signExtend 64) .read
        = .ok (dataAt 0x20000) ∧ (dataAt 0x20000).leaf.sealable = false) := by
  refine ⟨⟨executes_of (by decide +kernel), by decide +kernel, gives_eq (by decide +kernel), ?_⟩, ?_, ⟨gives_eq (by decide +kernel), ?_⟩⟩ <;> decide +kernel

/-- A second strand of the launch on core 2, and the vector queue of a strand that stores over the first bytes. -/
def other : Strand := Strand.blank { placedStrand with sidx := 1 } { site := 0, cluster := 0, core := 2 }
def withOther (s : State) : State := { s with others := [other] }
def busyStore (xs : List Word64) : State :=
  let s := world xs
  { s with cur := { s.cur with vq := [{ someVec with ranges := [{ base := 0, len := 512, write := true }] }] } }
/-- Local addresses: misaligned, past the end, and the last word; a peer that is absent and one that is not. -/
theorem witness_LocalStoreAccesses :
    let f : FormM := { zeroM with gt := 4, gb := 1, gx := 2, sz := .d }
    let s := withOther (world [0xFF8, 2])
    (Executes f.grd s ∧ Safe s ∧ f.sz ≠ .q ∧ (s.rdG 1).toNat % 8 = 0 ∧ (s.rdG 1).toNat + 8 ≤ s.storeLimit s.cur
      ∧ s.storeBusy 0xFF8 8 false = false ∧ s.storeBusy 0xFF8 8 true = false
      ∧ s.peerCore (s.rdG 2) = some { site := 0, cluster := 0, core := 2 } ∧ ({ site := 0, cluster := 0, core := 2 } : CoreLoc) ≠ s.cur.place)
    ∧ (world [0xFF8, 2]).peerCore ((world [0xFF8, 2]).rdG 2) = none ∧ (world [4]).cur.g.get 1 % 8 ≠ 0
    ∧ (world [0x1000]).storeLimit (world [0x1000]).cur < 0x1000 + 8
    ∧ (busyStore [0]).storeBusy 0 8 true = true := by
  refine ⟨⟨executes_of (by decide +kernel), safe_of (by decide +kernel), ?_⟩, ?_⟩ <;> decide +kernel

/-- A strand that holds v1, anchors v2, and has spent its budget. -/
def vectors (budget : Nat) (xs : List Word64) : State :=
  let s := world xs
  { s with cur := { s.cur with bud := budget, vres := (s.cur.vres.set 1 { held := true, anchored := false, binding := none }).set 2
                                                     { held := true, anchored := true, binding := none } } }
def fullVec (s : State) : State := { s with cur := { s.cur with vq := List.replicate 16 someVec } }
theorem witness_VectorEnqueues :
    let f : FormV := { zeroV with vd := 1 }
    let s := vectors 36 [0x20000]
    (Executes always s ∧ s.cur.vq.length < 16 ∧ (1 : BitVec 6).toNat < 48 ∧ ((s.cur.vr 1).held = true ∧ (s.cur.vr 1).binding = none
        ∧ (s.cur.vr 1).anchored = false ∧ s.cur.pinned 1 = false) ∧ (s.rdG 2 + (0 : BitVec 40).signExtend 64).toNat % 64 = 0
        ∧ 0 + 512 ≤ s.storeLimit s.cur ∧ s.indexPending { zeroM with gt := 1, gb := 1 } = false ∧ s.boundSource 1 = false ∧ s.src.hollow.contains 1 = false ∧ TagIsFree s)
    ∧ (∀ j ∈ (List.range 32).filter fun j => chunkActive { zeroM with gt := 1, gb := 1 } (s.cur.m' 0) j, ∃ t, Reaches s (chunkAddr 0x20000 (s.cur.v' 0) j) 16 .write t ∧ t.leaf.sync = false)
    ∧ (∀ v ∈ vecSources .vadd f, s.boundSource v = false) ∧ (∀ v ∈ vecDests .vadd f, (s.cur.vr v).held = true)
    ∧ (Executes always (fullVec s) ∧ 16 ≤ (fullVec s).cur.vq.length ∧ ∀ c ∈ (fullVec s).cur.vq, c.holdsAt s.src.pc = false)
    ∧ ¬(15 ≤ (s.cur.f' 0).producers.length)
    ∧ ((vecDests .vadd { f with vd := 3 }).head? = some 3 ∧ ((vectors 2 []).cur.vr 3).held = false ∧ (vectors 2 []).cur.bud ≤ (vectors 2 []).cur.heldCount)
    ∧ ((vecDests .vadd { f with vd := 2 }).head? = some 2 ∧ (s.cur.vr 2).anchored = true)
    ∧ (vecDests .vqnt { f with vb := 2 } = [1, 2] ∧ (s.cur.vr 1).held = true ∧ (s.cur.vr 1).anchored = false) := by
  refine ⟨⟨executes_of (by decide +kernel), ?_⟩, ?_, ?_, ?_, ⟨executes_of (by decide +kernel), ?_⟩, ?_, ?_, ?_⟩
  · exact ⟨by decide +kernel, by decide +kernel, by decide +kernel, by decide +kernel, by decide +kernel, by decide +kernel, by decide +kernel,
      by decide +kernel, by decide +kernel, by decide +kernel⟩
  · intro j hj
    have h : ∀ j ∈ (List.range 32).filter (fun j => chunkActive { zeroM with gt := 1, gb := 1 } ((vectors 36 [0x20000]).cur.m' 0) j),
        chunkAddr 0x20000 ((vectors 36 [0x20000]).cur.v' 0) j = 0x20000 := by decide +kernel
    rw [h j hj]
    exact ⟨dataAt 0x20000, reaches_of (by decide +kernel), rfl⟩
  all_goals decide +kernel

theorem witness_VectorUnitRunsTheHead :
    let u : HalfLoc := { site := 0, cluster := 0, half := 0 }
    let s := withVec (world [])
    2 ≤ ({ u with half := 2 } : HalfLoc).half ∧ u.half < 2 ∧ coreHalf s.cur.place = u ∧ s.cur.place.core < 8 ∧ s.cur.onCore = true ∧ s.cur.vq = [someVec]
    ∧ someVec.action = .compute .vadd zeroV ∧ someVec.waiting = none ∧ s.footprintClear s.cur someVec.stamp someVec.ranges = true ∧ s.others = [] := by
  decide +kernel
/-- The last element of each size, active by default and by a mask bit, and inactive. -/
theorem witness_VectorElements :
    let x : VecIn := { vd := 0, va := 0, vb := 0, msk := 1, md := 0, ma := 0, mb := 0, scalar := 0, luta := 0, lutb := 0 }
    etSized .int8 = true ∧ 511 < etCount .int8 ∧ etSized .fp32 = true ∧ 127 < etCount .fp32 ∧ zeroV.me = false
    ∧ x.msk.getLsbD (etBytes .fp32 * 0) = true ∧ x.msk.getLsbD (etBytes .fp32 * 1) = false ∧ zeroV.sat = false := by decide +kernel

/-- A granule at 0x30000 with generation 1, and the world with it; g1 holds its handle. -/
def cell (tag : CellTag) (b1 b2 b3 : Word64) : Granule :=
  { pa := 0x30000, tag := tag, gen := 1, abn := false, psn := false, dead := false, ogen := 0, own := 0, held := none, b1 := b1, b2 := b2, b3 := b3
    rels := [] }
def hand : Word64 := 0x0100000000030000
def cellWorld (gs : List Granule) (xs : List Word64) : State := { world (hand :: xs) with cells := gs }
/-- CellReached at 0x30000, by computation. -/
def cellForm : FormY := { zeroY with gh := 1, gv1 := 2, gv2 := 3, gst := 4 }
def reached (f : FormY) (s : State) (t : Target) : Bool := match s.part? s.cix with
  | some p => decide (s.cur.blocked = none) && decide (s.loadsOut = false) && decide (s.cur.unacked = []) && decide (s.cur.lost = [])
      && decide ((handleVa (s.rdG f.gh)).toNat % 32 = 0) && gives (s.translate s.cix (coreCluster s.cur.place) (handleVa (s.rdG f.gh)) .cell) t
      && decide (t.mid = s.mid) && (s.heat p t).isSome && decide (s.isBad t.pa = false)
  | none => false
theorem reached_of {f : FormY} {s : State} {t : Target} (h : reached f s t = true) : ∃ p, s.part? s.cix = some p ∧ CellReached f s t p := by
  unfold reached at h
  split at h
  · next p hp =>
    simp only [Bool.and_eq_true, decide_eq_true_eq] at h
    obtain ⟨⟨⟨⟨⟨⟨⟨⟨a, b⟩, c⟩, d⟩, e⟩, g⟩, i⟩, j⟩, k⟩ := h
    exact ⟨p, hp, a, b, c, d, e, gives_eq g, i, hp, j, k⟩
  · exact absurd h Bool.false_ne_true
/-- The part of the world. -/
def worldPart : Part := ((world []).part? 1).getD (blankPart 1 0)
theorem reached_world {f : FormY} {s : State} {t : Target} (h : (reached f s t && decide (s.part? s.cix = some worldPart)) = true) :
    CellReached f s t worldPart := by
  simp only [Bool.and_eq_true, decide_eq_true_eq] at h
  obtain ⟨p, hp, r⟩ := reached_of h.1
  rw [h.2] at hp
  exact Option.some.inj hp ▸ r

theorem witness_CellChecksInOrder :
    let s := cellWorld [cell .counter 5 0 0] []
    (Executes always s ∧ CellReached cellForm s (cellAt 0x30000) worldPart ∧ (s.granule 0x30000).tag = .counter
      ∧ (s.rdG 1).toNat / 2 ^ 56 = (s.granule 0x30000).gen.toNat % 256)
    ∧ (handleVa ((world [0x0100000000030010]).rdG 1)).toNat % 32 ≠ 0
    ∧ ((world [hand]).granule 0x30000).tag = .free
    ∧ ((cellWorld [{ cell .counter 5 0 0 with gen := 2 }] []).rdG 1).toNat / 2 ^ 56 ≠ 2
    ∧ (cell .lock 0 0 0).tag ≠ .counter ∧ ({ cell .counter 0 0 0 with dead := true } : Granule).dead = true := by
  refine ⟨⟨executes_of (by decide +kernel), reached_world (by decide +kernel), ?_⟩, ?_⟩ <;> decide +kernel

/-- A free granule for each type: a barrier of 1 and of 2^32, a condition beside its lock, a queue of one 8-byte slot; and a live counter. -/
theorem witness_CellLife :
    let s := world [hand, 0, 1]
    let condArg : Word64 := 0x0100000000030020
    let c := { world [hand, 0, condArg] with cells := [{ cell .lock 0 0 0 with pa := 0x30020 }] }
    (Executes always s ∧ Safe s ∧ CellReached { cellForm with imm := 2 } s (cellAt 0x30000) worldPart ∧ (s.granule 0x30000).tag = .free
        ∧ s.rdG 3 ≠ 0 ∧ (s.rdG 3).toNat < 2 ^ 32)
    ∧ (2 ^ 32 ≤ ((world [hand, 0, 0x100000000]).rdG 3).toNat)
    ∧ (CellReached { cellForm with imm := 5 } c (cellAt 0x30000) worldPart ∧ condArg.toNat % 2 ^ 56 % 32 = 0
        ∧ condArg.toNat % 2 ^ 56 / 128 = 0x30000 / 128 ∧ (c.granule (lineOf 0x30000 + condArg.toNat % 2 ^ 56 % 128)).tag = .lock)
    ∧ ((4 : BitVec 32).getLsbD 10 = false ∧ 0x30000 % 2 ^ syncLeaf.bits + 32 + 32 * 1 ≤ 2 ^ syncLeaf.bits ∧ (s.granule 0x30020).tag = .free)
    ∧ LiveCell cellForm (cellWorld [cell .counter 5 0 0] []) (cellAt 0x30000) .counter := by
  refine ⟨⟨executes_of (by decide +kernel), safe_of (by decide +kernel), reached_world (by decide +kernel), ?_⟩, ?_,
    ⟨reached_world (by decide +kernel), ?_⟩, ?_, ?_⟩
  all_goals (try unfold LiveCell)
  all_goals decide +kernel

/-- Counters below and at a threshold, poisoned and not; barriers broken, empty, at their last arrival and before it; phases equal and not. -/
theorem witness_CountersAndBarriers :
    let s := cellWorld [cell .counter 5 0 0] [6]
    let b := cellWorld [cell .barrier 0x0000000000000002 0 0] [0]
    let arw : FormY := cellForm
    (Executes always s ∧ CellReached cellForm s (cellAt 0x30000) worldPart ∧ LiveCell cellForm s (cellAt 0x30000) .counter
      ∧ (0 : BitVec 8).toNat < s.liveCount ∧ (s.granule 0x30000).psn = false ∧ (s.granule 0x30000).b1.toNat < (s.rdG 2 + (0 : BitVec 32).setWidth 64).toNat
      ∧ HasRoom s worldPart (cellAt 0x30000) 1)
    ∧ ((cellWorld [cell .counter 6 0 0] [6]).rdG 2).toNat ≤ 6
    ∧ ({ cell .counter 0 0 0 with psn := true } : Granule).psn = true
    ∧ (Executes always b ∧ CellReached arw b (cellAt 0x30000) worldPart ∧ LiveCell arw b (cellAt 0x30000) .barrier ∧ barBroken (b.granule 0x30000) = false
      ∧ barExp (b.granule 0x30000) = 2 ∧ barArrived (b.granule 0x30000) = 0 ∧ 0 + 1 < 2 ^ 32 ∧ (barPhase (b.granule 0x30000)).toNat = (b.rdG 2).toNat % 2 ^ 32
      ∧ b.liveG 0 2 = true ∧ b.cur.ap = false ∧ HasRoom b worldPart (cellAt 0x30000) 1)
    ∧ barExp (cell .barrier 0x0000000100000002 0 0) ≤ barArrived (cell .barrier 0x0000000100000002 0 0) + 1
    ∧ barExp (cell .barrier 0 0 0) = 0 ∧ barBroken (cell .barrier 0 0x100000000 0) = true
    ∧ ((0 : Int) ≤ (2 : Int) + ((0xFFFFFFFFFFFFFFFE : Word64)).toInt ∧ (2 : Int) + ((0xFFFFFFFFFFFFFFFD : Word64)).toInt < 0)
    ∧ (barPhase (cell .barrier 2 1 0)).toNat ≠ (b.rdG 2).toNat % 2 ^ 32 := by
  refine ⟨⟨executes_of (by decide +kernel), reached_world (by decide +kernel), ?_⟩, ?_, ?_,
    ⟨executes_of (by decide +kernel), reached_world (by decide +kernel), ?_⟩, ?_⟩
  all_goals (try unfold LiveCell)
  all_goals (try unfold HasRoom)
  all_goals decide +kernel

/-- A waiter on a cell. -/
def waiter (k : WaitKind) : Wait :=
  { pa := 0x30000, number := 0, mid := 0, inc := 1, who := other.id, loc := 0, hyp := 0, ls := 0, dynamic := false, kind := k, entries := 1, spilled := false, rels := [] }
/-- Locks free, held, and held with a waiter; conditions with none and one, their lock free beside them. -/
theorem witness_LocksAndConditions :
    let free := cellWorld [cell .lock 0 0 0] []
    let held := cellWorld [cell .lock 1 0 0] []
    let waited := { withOther (cellWorld [cell .lock 2 0 0] []) with waits := [waiter (.lockTurn 1)] }
    let cond := cellWorld [cell .cond 0x0100000000030020 0 0, { cell .lock 0 0 0 with pa := 0x30020 }] []
    let signalled := { withOther cond with waits := [waiter .condTurn] }
    (Executes always free ∧ CellReached cellForm free (cellAt 0x30000) worldPart ∧ LiveCell cellForm free (cellAt 0x30000) .lock
      ∧ lckHeld (free.granule 0x30000) = false ∧ (0 : BitVec 8).toNat < free.liveCount)
    ∧ (CellReached cellForm held (cellAt 0x30000) worldPart ∧ lckHeld (held.granule 0x30000) = true ∧ held.waitsAt 0x30000 = []
      ∧ HasRoom held worldPart (cellAt 0x30000) 1)
    ∧ (CellReached cellForm waited (cellAt 0x30000) worldPart ∧ lckHeld (waited.granule 0x30000) = true
      ∧ waited.waitsAt (waited.granule 0x30000).pa = [waiter (.lockTurn 1)] ∧ (waiter (.lockTurn 1)).mid = waited.mid)
    ∧ (CellReached cellForm cond (cellAt 0x30000) worldPart ∧ LiveCell cellForm cond (cellAt 0x30000) .cond ∧ cond.waitsAt 0x30000 = []
      ∧ (lockOfCond cond (cond.granule 0x30000)).pa = 0x30020 ∧ HasRoom cond worldPart (cellAt 0x30000) 1)
    ∧ (CellReached cellForm signalled (cellAt 0x30000) worldPart ∧ signalled.waitsAt 0x30000 = [waiter .condTurn]
      ∧ (lockOfCond signalled (signalled.granule 0x30000)).tag = .lock ∧ lckHeld (lockOfCond signalled (signalled.granule 0x30000)) = false) := by
  refine ⟨⟨executes_of (by decide +kernel), reached_world (by decide +kernel), ?_⟩, ⟨reached_world (by decide +kernel), ?_⟩,
    ⟨reached_world (by decide +kernel), ?_⟩, ⟨reached_world (by decide +kernel), ?_⟩, ⟨reached_world (by decide +kernel), ?_⟩⟩
  all_goals (try unfold LiveCell)
  all_goals (try unfold HasRoom)
  all_goals decide +kernel

/-- Queues of two 8-byte slots: empty, full, closed; with 0, 1, 2 and 65,535 producers; and a governor that an open launch queue can take. -/
def queue (head tail closed producers : Nat) : Granule :=
  cell .queue (BitVec.ofNat 64 (tail * 2 ^ 32 + head)) (BitVec.ofNat 64 (1 + closed * 2 ^ 32 + producers * 2 ^ 48)) 0
def launchQueue : LaunchQueue :=
  { lqi := 0, born := 0, handle := 0x0100000000030040, pa := 0x30040, period := 1000, budget := 0, deadline := 1000, remain := 5
    overrun := false, origins := [] }
def governWorld (dead : Bool) : State :=
  let s := foremanWorld [hand, 0x0100000000030040, 0x0000000100000001]
  { s with cells := [queue 0 0 0 0, { queue 0 0 0 0 with pa := 0x30040, dead := dead }]
           parts := s.parts.map fun p => { p with queues := [launchQueue] } }
theorem witness_QueueOperations :
    let f : FormY := { cellForm with gv2 := 0 }
    let s := cellWorld [queue 0 1 0 2] []
    let full := cellWorld [queue 0 2 0 0] []
    let empty := cellWorld [queue 0 0 0 1] []
    let closed := cellWorld [queue 0 0 1 0] []
    (Executes always s ∧ Safe s ∧ s.familyOf s.cur.id = none ∧ s.cur.fmn = false ∧ CellReached f s (cellAt 0x30000) worldPart
      ∧ LiveCell f s (cellAt 0x30000) .queue ∧ PlainQueue (s.granule 0x30000) ∧ ItemReady f s false ∧ itemBytes f ≤ qSlotBytes (s.granule 0x30000)
      ∧ s.waitsAt 0x30000 = [] ∧ worldPart.buffer = [] ∧ 0 < qCount (s.granule 0x30000) ∧ qCount (s.granule 0x30000) < qCapacity (s.granule 0x30000)
      ∧ 1 < qProducers (s.granule 0x30000))
    ∧ (qCapacity (full.granule 0x30000) ≤ qCount (full.granule 0x30000) ∧ HasRoom full worldPart (cellAt 0x30000) (putEntries (itemBytes f))
      ∧ qProducers (full.granule 0x30000) = 0)
    ∧ (qCount (empty.granule 0x30000) = 0 ∧ qProducers (empty.granule 0x30000) = 1 ∧ HasRoom empty worldPart (cellAt 0x30000) 1)
    ∧ (qClosed (closed.granule 0x30000) = true ∧ qLaunch (closed.granule 0x30000) = false ∧ (closed.granule 0x30000).b3.getLsbD 8 = false)
    ∧ (Executes always (governWorld false) ∧ (governWorld false).cur.fmn = true ∧ (∃ p, CellReached cellForm (governWorld false) (cellAt 0x30000) p
        ∧ p.queues.find? (fun q => q.handle == (governWorld false).rdG 2) = some launchQueue ∧ p.governors.length < 64)
      ∧ governorOk ((governWorld false).rdG 3) = true ∧ (governWorld false).rdG 3 ≠ 0 ∧ ((governWorld false).granule 0x30040).tag = .queue
      ∧ qCount ((governWorld false).granule 0x30000) < fieldNat ((governWorld false).rdG 3) 0 16)
    ∧ ((governWorld true).granule 0x30040).dead = true ∧ (foremanWorld [hand, 0, 0]).rdG 3 = 0 := by
  refine ⟨⟨executes_of (by decide +kernel), safe_of (by decide +kernel), by decide +kernel, by decide +kernel, reached_world (by decide +kernel), ?_⟩,
    ?_, ?_, ?_, ⟨executes_of (by decide +kernel), by decide +kernel, ?_, ?_⟩, ?_⟩
  case refine_5 =>
    obtain ⟨p, hp, h⟩ := reached_of (f := cellForm) (s := governWorld false) (t := cellAt 0x30000) (by decide +kernel)
    have e : (governWorld false).part? (governWorld false).cix = some { worldPart with queues := [launchQueue] } := by decide +kernel
    rw [e] at hp
    obtain rfl := Option.some.inj hp
    exact ⟨_, h, by decide +kernel, by decide +kernel⟩
  all_goals (try unfold LiveCell)
  all_goals (try unfold PlainQueue)
  all_goals (try unfold ItemReady)
  all_goals (try unfold HasRoom)
  all_goals decide +kernel

/-- An INT8 tile of depth 16, its result form, a descriptor of 600 columns, and a copy descriptor of two rows of 16 bytes. -/
def tileDesc (fmt str : Nat) : LineBits :=
  BitVec.ofNat 512 (1 + fmt * 2 ^ 8 + 16 * 2 ^ 32 + 16 * 2 ^ 64 + 256 * 2 ^ 96 + 16 * 2 ^ 128 + 16 * 2 ^ 160 + str * 2 ^ 192)
def rowsDesc : LineBits := BitVec.ofNat 512 (2 + 2 * 2 ^ 8 + 16 * 2 ^ 32 + 2 * 2 ^ 64 + 64 * 2 ^ 96 + 64 * 2 ^ 128)
def vaultLeaf : Leaf := { dataLeaf with vbase := 0x50000, frame := vaultBase, plc := .vault, entry := 0x10050 }
/-- Descriptors in d1 and d2 (operands), d3 (result), d4 (rows), and a page of the own window at 0x50000. -/
def tileWorld (xs : List Word64) : State :=
  let s := world xs
  { s with tlb := { cluster := { site := 0, cluster := 0 }, cix := 1, leaf := vaultLeaf } :: s.tlb
           cur := { s.cur with d := (((s.cur.d.set 1 (tileDesc 6 64)).set 2 (tileDesc 6 64)).set 3 (tileDesc 6 256)).set 4 rowsDesc } }
def tileForm : FormX := { zeroX with da := 1, db := 2, dc := 3, gl := 1, gw := 2, et := .int8 }
def someTile (op : TileOp) : TileCommand :=
  { stamp := 0, op := op, form := tileForm, descA := tileDesc 6 64, descB := tileDesc 6 64, la := 0, va := 0x50000, vault := [(5, vaultLeaf)], luta := 0
    lutb := 0, ranges := [{ base := 0, len := 16, write := false }], vranges := [], running := false, bytesA := [], bytesB := [], void := false }
def withTile (c : TileCommand) (s : State) : State := { s with cur := { s.cur with tq := [c] } }
theorem window_of {s : State} {t : Target} {rs : List Range} {kind : Kind} (h : pageTouches rs [] = [0x50000])
    (g : gives (s.translate s.cix (coreCluster s.cur.place) 0x50000 kind) t = true) (w : s.inWindow (coreCluster s.cur.place) t.leaf = true)
    (m : t.leaf.st = .mapped) (c : s.cur.hcur.toNat % 4096 = 0) : WindowReached s rs kind := by
  intro x hx
  rw [h] at hx
  obtain rfl := List.mem_singleton.mp hx
  exact ⟨t, gives_eq g, w, fun _ => ⟨m, .inl c⟩⟩
theorem witness_TileIssue :
    let s := tileWorld [0, 0x50000]
    let t : Target := { va := 0x50000, mid := 0, pa := vaultBase, leaf := vaultLeaf }
    (Executes always s ∧ s.vaultFull (coreCluster s.cur.place) 1 = false ∧ descKind (s.cur.d' 1) = 1 ∧ descKind (s.cur.d' 2) = 1 ∧ descKind (s.cur.d' 0) ≠ 1
      ∧ descFmt (s.cur.d' 1) = some .int8 ∧ descFmt (s.cur.d' 3) = some .int8 ∧ tileGroup .int8 ≠ .none ∧ s.cur.tq.length < 8
      ∧ (s.cur.f' 0).producers.length < 15)
    ∧ ((∀ r ∈ rangesA 0 (s.cur.d' 1) .int8, r.base + r.len ≤ s.storeLimit s.cur) ∧ (∀ r ∈ rangesC 0 (s.cur.d' 3) .int8, r.base + r.len ≤ s.storeLimit s.cur))
    ∧ WindowReached s (rangesB 0x50000 (s.cur.d' 2) .int8) .read ∧ WindowReached s (rangesC 0x50000 (s.cur.d' 3) .int8) .write ∧ t.mid = s.mid
    ∧ (tileWorld [64 + 32]).cur.g.get 1 % 64 ≠ 0 ∧ (8 ≤ (List.replicate 8 (someTile .mzero)).length)
    ∧ (Reaches (cached [0x20000]) 0x20000 16 .read (dataAt 0x20000) ∧ Reaches (cached [0x20000]) 0x20000 64 .read (dataAt 0x20000)
        ∧ descOk (BitVec.ofNat 512 (0x1234 + 2 * 2 ^ 64)) = false ∧ descOk 0 = true)
    ∧ (descKind tableDesc = 1 ∧ tileDescOk tableDesc = true) ∧ (withTile (someTile .mzero) s).cur.tq ≠ [] := by
  refine ⟨⟨executes_of (by decide +kernel), ?_⟩, ?_,
    window_of (t := { va := 0x50000, mid := 0, pa := vaultBase, leaf := vaultLeaf }) (by decide +kernel) (by decide +kernel) (by decide +kernel) rfl (by decide +kernel),
    window_of (t := { va := 0x50000, mid := 0, pa := vaultBase, leaf := vaultLeaf }) (by decide +kernel) (by decide +kernel) (by decide +kernel) rfl (by decide +kernel),
    ?_, ?_, ?_, ⟨reaches_of (by decide +kernel), reaches_of (by decide +kernel), ?_⟩, ?_⟩ <;> decide +kernel

theorem witness_MatrixUnitStartsAndRetires :
    let s := withTile (someTile .mma) (tileWorld [])
    let r := withTile { someTile .mma with running := true } (tileWorld [])
    (s.cur.onCore = true ∧ s.cur.place.core < 8 ∧ s.cur.tq = [someTile .mma] ∧ s.others = [] ∧ (someTile .mma).running = false ∧ s.badLines = []
      ∧ s.footprintClear s.cur 0 (someTile .mma).ranges = true ∧ s.vaultClear s.cur.place 0 (someTile .mma).vranges = true)
    ∧ (r.cur.tq = [{ someTile .mma with running := true }] ∧ r.cur.accKind 0 ≠ .float ∧ descFmt (someTile .mma).descA = some .int8
      ∧ tileGroup .int8 = .int) ∧ ({ someTile .movc with void := true } : TileCommand).void = true := by decide +kernel

/-- A job of 32 bytes from the local store to itself, queued, running, and with nothing left. -/
def someJob (st : JobStatus) (pending : List (Nat × Nat)) : Job :=
  { n := 0, who := placedStrand, place := { site := 0, cluster := 0, core := 1 }, jid := 1, op := .cpy, form := { zeroC with ss := .ls, dsp := .ls, gk := 3 }
    desc := 0, src := 0, dst := 0x100, len := 32, gp := 0, handle := hand, hyp := 0, st := st, accepted := none, pending := pending, ranges := [], vranges := []
    inStore := true, pages := [], ending := none, view := [] }
def jobWorld (js : List Job) (xs : List Word64) : State := { tileWorld xs with jobs := js }
theorem witness_CopyIssue :
    let f : FormC := { zeroC with gs := 1, gd := 2, ss := .ls, dsp := .ls, len := 32 }
    let s := tileWorld [0, 0x100]
    (Executes always s ∧ descKind (s.cur.d' 0) = 0 ∧ (s.rdG 1).toNat % 16 = 0 ∧ (s.rdG 2).toNat % 16 = 0 ∧ f.len.toNat % 16 = 0
      ∧ (∀ r, r < (copyRows (s.cur.d' 0) 32).1 → ((s.rdG 1).toNat + r * descSrcStr (s.cur.d' 0)) % 2 ^ 64 + (copyRows (s.cur.d' 0) 32).2 ≤ s.storeLimit s.cur)
      ∧ (∀ c ∈ copyCores .cpy f (s.cur.d' 0), s.peerHolds s.cur.id { s.cur.place with core := c } = true) ∧ queuedJobs s s.cur.id < 8)
    ∧ (descKind (s.cur.d' 1) ≠ 0 ∧ descKind (s.cur.d' 1) ≠ 2) ∧ (descKind (s.cur.d' 4) = 2 ∧ descCores (s.cur.d' 4) ≠ [])
    ∧ 2 ^ 32 < (((tileWorld [0, 0, 0x100000001]).rdG 3).toNat) ∧ (((tileWorld [8]).rdG 1).toNat % 16 ≠ 0)
    ∧ 8 ≤ queuedJobs (jobWorld (List.replicate 8 (someJob .queued [(0, 2)])) []) placedStrand
    ∧ ((jobWorld [someJob .running [(0, 2)]] [1]).rdG 1).setWidth 16 = (1 : BitVec 16) ∧ (jobWorld [someJob .running [(0, 2)]] [1]).jobs = [] ++ someJob .running [(0, 2)] :: []
    ∧ (jobWorld [someJob .running [(0, 2)]] [1]).jobOut (someJob .running [(0, 2)]) = false ∧ (someJob .running [(0, 2)]).ending = none
    ∧ { jobWorld [someJob .running [(0, 2)]] [1] with net := [{ sentLoad with party := .job 0, kind := .write 16 0 }] }.jobOut (someJob .running [(0, 2)]) = true := by
  refine ⟨⟨executes_of (by decide +kernel), ?_⟩, ?_⟩ <;> decide +kernel
theorem witness_CopyEngineMovesTheBytes :
    let q := jobWorld [someJob .queued [(0, 2)]] []
    let r := jobWorld [someJob .running [(0, 2)]] []
    (OnlyJob q (someJob .queued [(0, 2)]) ∧ Safe q ∧ q.cur.vq = [] ∧ q.cur.tq = [])
    ∧ (OnlyJob r (someJob .running [(0, 2)]) ∧ Safe r ∧ 0 < (copyRows 0 32).2 ∧ (copyRows 0 32).2 % 16 = 0 ∧ nthPending [(0, 2)] (1 % pendingCount [(0, 2)]) = some 1
      ∧ ∀ k, k < (copyRows (0 : LineBits) 32).1 → (0 + k * descSrcStr 0) % 2 ^ 64 + 32 ≤ 0x110 ∧ (0x100 + k * descDstStr 0) % 2 ^ 64 + 32 < 2 ^ 64)
    ∧ (OnlyJob (jobWorld [someJob .running []] []) (someJob .running []) ∧ Safe (jobWorld [someJob .running []] [])) := by
  refine ⟨⟨?_, safe_of (by decide +kernel), ?_⟩, ⟨?_, safe_of (by decide +kernel), ?_⟩, ⟨?_, safe_of (by decide +kernel)⟩⟩
  all_goals (try unfold OnlyJob)
  all_goals decide +kernel

/-- Hypothesis entries and a table of 64 KiB of them. -/
def hypE (id gen : Nat) (st : HypStatus) (parent : Nat) : HypEntry :=
  { id := id, gen := BitVec.ofNat 8 gen, st := st, parent := parent, depth := 1, cause := 0, resolved := false, swept := [], lost := false }
def hypWorld (es : List HypEntry) (hcur : BitVec 20) (xs : List Word64) : State :=
  let s := world xs
  { s with parts := s.parts.map fun p => { p with hyps := es, cvsl := 1 }, cur := { s.cur with hcur := hcur } }
def hypPart (es : List HypEntry) : Part := { worldPart with hyps := es, cvsl := 1 }
theorem table_of {s : State} {p : Part} (h : (decide (s.part? s.cix = some p) && decide (p.tableModule = s.mid) && decide (p.st = .run)) = true) : TableHere s p := by
  simp only [Bool.and_eq_true, decide_eq_true_eq] at h
  exact ⟨h.1.1, h.1.2, h.2⟩
theorem names_of {s : State} {p : Part} {h : Word64} {e : HypEntry}
    (k : (decide (h.toNat < 2 ^ 20) && decide (1 ≤ h.toNat % 4096) && decide (h.toNat % 4096 ≤ s.topId p) && decide (p.hyp? (h.toNat % 4096) = some e)
      && decide (e.gen.toNat = h.toNat / 4096)) = true) : NamesEntry s p h e := by
  simp only [Bool.and_eq_true, decide_eq_true_eq] at k
  exact ⟨k.1.1.1.1, k.1.1.1.2, k.1.1.2, k.1.2, k.2⟩
/-- g2 names entry 1 at generation 1: OPEN, resolved, or outdated; HCUR the root, the entry, or another branch; a table that is full. -/
theorem witness_HypothesisInstructions :
    let f : FormY := { zeroY with gv1 := 2, gst := 3 }
    let one := [hypE 1 1 .opened 0]
    let s := hypWorld one 0 [0, 0x1001]
    (Executes f.grd s ∧ TableHere s (hypPart one) ∧ (hypPart one).isRefuted 0 = false ∧ FreeEntry (hypPart one) 2 ∧ ¬FreeEntry (hypPart one) 1
      ∧ (hypPart one).depthOf 0 ≠ 15 ∧ NamesEntry s (hypPart one) (s.rdG 2) (hypE 1 1 .opened 0) ∧ ((hypPart one).chain 1).contains 0 = true
      ∧ hypId s.cur.hcur = 0 ∧ ((hypPart one).chain 0).contains ((hypPart one).parentOf 1) = true)
    ∧ ((hypPart [{ hypE 1 1 .opened 0 with depth := 15 }]).depthOf 1 = 15)
    ∧ ((hypPart [hypE 1 1 .refuted 0]).isRefuted 1 = true ∧ hypId (hypWorld [hypE 1 1 .refuted 0] 0x1001 []).cur.hcur ≠ 0)
    ∧ (NamesEntry (hypWorld [hypE 1 1 .confirmed 0] 0 [0, 0x1001]) (hypPart [hypE 1 1 .confirmed 0]) 0x1001 (hypE 1 1 .confirmed 0)
        ∧ HypStatus.confirmed ≠ .opened)
    ∧ ((hypPart (one ++ [hypE 2 1 .opened 0])).chain 1).contains 2 = false
    ∧ ((hypPart one).hyp? ((0x2001 : Word64).toNat % 4096) = some (hypE 1 1 .opened 0) ∧ (1 : Nat) ≠ (0x2001 : Word64).toNat / 4096)
    ∧ (((hypPart [hypE 1 1 .opened 0, hypE 2 1 .opened 1]).chain 2).contains 1 = true ∧ ((hypPart (one ++ [hypE 2 1 .opened 1])).chain 0).contains 1 = false) := by
  refine ⟨⟨executes_of (by decide +kernel), table_of (by decide +kernel), by decide +kernel, .inl (by decide +kernel), ?_, by decide +kernel,
    names_of (by decide +kernel), ?_⟩, ?_, ?_, ⟨names_of (by decide +kernel), ?_⟩, ?_⟩
  · rintro (h | ⟨e, h, st⟩)
    · exact absurd h (by decide +kernel)
    · have k : (hypPart [hypE 1 1 .opened 0]).hyp? 1 = some (hypE 1 1 .opened 0) := by decide +kernel
      rw [k] at h
      obtain rfl := Option.some.inj h
      exact absurd st (by decide)
  all_goals decide +kernel

def someResolve (confirm : Bool) (sites : List Nat) : Resolve :=
  { rid := 0, hyp := 0x1001, confirm := confirm, tags := [0x1001], target := 0, kids := [], handle := some hand, sites := sites
    mods := [], asker := none, view := [] }
def resolving (r : Resolve) (es : List HypEntry) : State :=
  let s := hypWorld es 0x1001 []
  { s with parts := s.parts.map fun p => { p with resolves := [r] } }
def resolvingPart (r : Resolve) (es : List HypEntry) : Part := { hypPart es with resolves := [r] }
def someVersion : Version := { cix := 1, line := 0x20000, tag := 0x1001, data := 7, mask := 1, resident := true, used := 0 }
theorem witness_ResolveSteps :
    let es := [hypE 1 1 .confirmed 0]
    let s := resolving (someResolve true []) es
    let p := resolvingPart (someResolve true []) es
    let d := resolvingPart (someResolve true [0]) es
    let e : HypEntry := { hypE 1 1 .confirmed 0 with resolved := true, swept := (List.range 19).map fun c => { site := 0, cluster := c + 1 } }
    (s.part? 1 = some p ∧ p.resolves = [someResolve true []] ∧ 0 ∈ p.sites ∧ 0 ∉ (someResolve true []).sites ∧ s.others = [] ∧ s.cur.id.grp.cix = 1
      ∧ s.cur.onCore = true ∧ s.cur.ended = false ∧ s.cur.place.site = 0 ∧ s.cur.hcur = (someResolve true []).hyp
      ∧ (someResolve false []).tags.contains s.cur.hcur = true)
    ∧ (Safe { s with versions := [someVersion] } ∧ hypId (someResolve true []).target = 0 ∧ (p.home someVersion.line).site = 0)
    ∧ ((∃ n ∈ p.sites, n ∉ (someResolve true []).sites) ∧ (∀ n ∈ d.sites, n ∈ (someResolve true [0]).sites) ∧ (resolving (someResolve true [0]) es).net = []
      ∧ (someResolve true [0]).mods = [] ∧ (resolving (someResolve true [0]) es).resolveOut 1 (someResolve true [0]) = false)
    ∧ ({ site := 0, cluster := 0 } ∈ (resolvingPart (someResolve true [0]) [e]).clusters
      ∧ (resolving (someResolve true [0]) [e]).parts = [resolvingPart (someResolve true [0]) [e]]
      ∧ (resolvingPart (someResolve true [0]) [e]).tableModule = (resolving (someResolve true [0]) [e]).mid
      ∧ (∀ c ∈ (resolvingPart (someResolve true [0]) [e]).clusters, c ≠ { site := 0, cluster := 0 } → e.swept.contains c = true)
      ∧ ({ resolving (someResolve true [0]) [e] with cur := (world []).cur } : State).hypUsed (resolvingPart (someResolve true [0]) [e]) 1 = false) := by
  refine ⟨?_, ⟨safe_of (by decide +kernel), ?_⟩, ?_⟩ <;> decide +kernel

/-- A recipe of one `vmul.fp32 v3, v1, v2`, two anchored sources, and a binding of v3. -/
def mulSlot : FormV := { zeroV with vd := 3, va := 1, vb := 2 }
def recipeWorld (xs : List Word64) : State :=
  let s := world xs
  { s with cur := { s.cur with recipes := [[(encode (.vmul mulSlot)).getD 0]]
                               vres := (s.cur.vres.set 1 { held := true, anchored := true, binding := none }).set 2
                                         { held := true, anchored := true, binding := none } } }
def someBinding : Binding :=
  { recipe := 0, capn := 0, caps := [0, 0, 0, 0], luta := 0, lutb := 0, page := none, nested := none, bid := 0, st := .resident, readAt := 0 }
def bound (s : State) : State := { s with cur := { s.cur with vres := s.cur.vres.set 3 { held := false, anchored := false, binding := some someBinding } } }
theorem witness_RecipeInstructions :
    let s := recipeWorld []
    let b := bound s
    UnitIsFree s ∧ s.poolUsed (coreHalf s.cur.place) ≤ 144 ∧ s.boundSource 3 = false
    ∧ (let e : State := { s with cur := { s.cur with vres := s.cur.vres.set 4 { held := true, anchored := true, binding := none, entry := true } } }
       (e.cur.vr 4).entry = true ∧ (e.cur.vr 4).anchored = true ∧ e.cur.pinned 4 = false)
    ∧ (let e : State := { s with cur := { s.cur with vres := s.cur.vres.set 4 { held := true, anchored := false, binding := none, entry := true } } }
       (e.cur.vr 4).entry = true ∧ (e.cur.vr 4).held = true ∧ (e.cur.vr 4).anchored = false ∧ e.cur.pinned 4 = false)
    ∧ (∀ x ∈ b.cur.bindings, x.2.bid = someBinding.bid → x = (3, someBinding))
    ∧ (Executes always s ∧ s.cur.vq = [] ∧ s.cur.pinned 3 = false ∧ (s.cur.vr 1).anchored = true ∧ (s.cur.vr 3).anchored = false ∧ (s.cur.vr 3).binding = none
      ∧ (s.cur.vr 3).held = false ∧ s.cur.heldCount < s.cur.bud ∧ (vectors 2 []).cur.bud ≤ (vectors 2 []).cur.heldCount
      ∧ ((vectors 36 []).cur.vr 1).held = true ∧ ((vectors 36 []).cur.vr 1).anchored = false ∧ (s.cur.f' 3).producers = [])
    ∧ ((b.cur.vr 3).binding = some someBinding ∧ b.cur.pinned 1 = true ∧ someBinding.recipe < 16 ∧ someBinding.capn < 8)
    ∧ (Executes always (fullVec s) ∧ 16 ≤ (fullVec s).cur.vq.length)
    ∧ (s.cur.body 1 = [] ∧ s.cur.body 0 = [.vmul mulSlot] ∧ mulSlot.va ≠ mulSlot.vd ∧ mulSlot.vb ≠ mulSlot.vd ∧ s.poolUsed (coreHalf s.cur.place) < 144)
    ∧ ((vectors 36 []).cur.vr 1).anchored = false := by
  refine ⟨?_, ?_, ?_, ?_, ?_, ?_, ⟨executes_of (by decide +kernel), ?_⟩, ?_, ⟨executes_of (by decide +kernel), ?_⟩, ?_⟩
  all_goals (try unfold UnitIsFree)
  all_goals decide +kernel

/-- The foreman under a group of its own, with one launch whose group 0 has the strand `other`; g1 holds the group's handle, g2 a selector. -/
def aLaunch : Launch :=
  { lid := 1, lqi := 0, born := 0, st := .running, kimg := 0, kid := 0, ent := 0, dyn := false, flq := none, scnt := 2, nx := 1, ny := 1, nz := 1, hyp := 0, ctrh := 0
    args := [], family := none, governed := none, govGen := 0, view := [], jobsView := [], next := 1, heldBack := [], dropped := [] }
def groupOf (st : GroupStatus) : Group :=
  { id := placedStrand.grp, st := st, held := false, preempt := none, frozenAt := 0, overrun := false, reserve := none, fullSent := false }
def ruling (st : GroupStatus) (t : Strand) (xs : List Word64) : State :=
  let s := foremanWorld xs
  { s with cur := { s.cur with id := { grp := { cix := 1, lid := 0, lgi := 0 }, sidx := 0 } }
           others := [t], groups := [groupOf st], parts := s.parts.map fun p => { p with launches := [aLaunch] } }
def frozenOther : Strand := { other with status := .frozen }
def grpHandle : Word64 := 0x0001000000000000
def rulingPart : Part := { worldPart with launches := [aLaunch] }
def winForm (imm : BitVec 32) : FormS := { zeroS with gd := 3, ga := 1, gb := 2, imm := imm }
theorem foreman_of {g : Guard} {s : State} (h : (decide (s.cur.status = .run) && guardHolds g s && decide (s.cur.fmn = true)) = true) : ExecutesForeman g s := by
  simp only [Bool.and_eq_true, decide_eq_true_eq] at h
  exact ⟨⟨h.1.1, h.1.2⟩, h.2⟩
theorem group_of {f : FormS} {s : State} {p : Part} {g : Group}
    (h : (decide (s.part? s.cix = some p) && decide (s.findGroup p (s.rdG f.ga) = .listed g) && decide (s.group? g.id = some g)
      && decide (g.id ≠ s.cur.id.grp)) = true) : NamesGroup f s p g := by
  simp only [Bool.and_eq_true, decide_eq_true_eq] at h
  exact ⟨h.1.1.1, h.1.1.2, h.1.2, h.2⟩
/-- Groups RESIDENT, FROZEN and held back; a selector of g5 of strand 1, of its store, of its state; a site's registers; the count of window 2. -/
theorem witness_ForemanInstructions :
    let run := ruling .resident other [grpHandle, 0x0400000000000005]
    let ice := ruling .frozen frozenOther [grpHandle, 0x0400000000000005]
    let store := ruling .frozen frozenOther [grpHandle, 0x0409000000000FF8]
    let site := foremanWorld [0, 0x30]
    ((world []).cur.status = .run ∧ (world []).cur.fmn = false)
    ∧ (ExecutesForeman always site ∧ site.part? site.cix = some worldPart ∧ (∀ l ∈ worldPart.launches, l.lid % 65536 ≠ fieldNat (site.rdG 1) 48 16)
      ∧ (site.rdG 1).toNat ∈ worldPart.sites ∧ (site.rdG 2).toNat = 16 * 3 ∧ ((foremanWorld [1, 0x30]).rdG 1).toNat ∉ worldPart.sites)
    ∧ (ExecutesForeman always run ∧ NamesGroup (winForm 0) run rulingPart (groupOf .resident) ∧ (groupOf .resident).st ≠ .frozen)
    ∧ (NamesGroup (winForm 0) ice rulingPart (groupOf .frozen) ∧ (groupOf .frozen).preempt = none ∧ (∀ t ∈ ice.groupStrands (groupOf .frozen).id, t.park = none)
      ∧ Selects (winForm 0) ice 0 5 frozenOther)
    ∧ (NamesGroup (winForm 0) (ruling .swapped frozenOther [grpHandle]) rulingPart (groupOf .swapped) ∧ (groupOf .swapped).held = false)
    ∧ (Safe store ∧ 0xFF8 < store.storeLimit frozenOther ∧ Selects (winForm 0) store 9 0xFF8 frozenOther)
    ∧ (3 ≤ (3 : BitVec 32).toNat ∧ 16 ≤ fieldNat (0x0410000000000000 : Word64) 48 8 ∧ (foremanWorld [0, 8]).rdG 2 = 8
      ∧ fieldNat (0x040F000000000000 : Word64) 48 8 = 15 ∧ other.status ≠ .frozen)
    ∧ (let waits : Blocked := { pc := 0, asked := some 5, answer := none, target := none, writes := false, sgen := none }
       let busy := ruling .resident { other with blocked := some waits } [grpHandle]
       (∃ t ∈ busy.groupStrands (groupOf .resident).id, t.status = .run ∧ t.blocked ≠ none) ∧ (∀ t ∈ run.groupStrands (groupOf .resident).id, t.blocked = none)
       ∧ run.givenUp = [] ∧ (∀ t ∈ run.groupStrands (groupOf .resident).id, t.afar = [] ∧ t.askedAfar = [] ∧ ∀ k, t.park = some k → k.mid = run.mid)
       ∧ (let away : State := { run with givenUp := [(other.id, 5, 0)] }
          ∃ e ∈ away.givenUp, e.1.grp = (groupOf .resident).id)
       ∧ (let on : State := { run with cur := { run.cur with blocked := some waits } }
          on.cur.blocked.isSome = true ∧ Sys2Proof.Machine.grpWait.groupOfHandle rulingPart (on.rdG 1) = (groupOf .resident).id
          ∧ ∃ t ∈ on.strands, t.id.grp = (groupOf .resident).id ∧ t.status = .run))
    ∧ ((foremanWorld [0x10000]).rdG 1).toNat % 65536 = 0 ∧ ((foremanWorld [0x10001]).rdG 1).toNat % 65536 ≠ 0
    ∧ ((foremanWorld []).cur.blocked = none ∧ (foremanWorld []).cur.unacked = [] ∧ (foremanWorld []).cur.lost = [])
    ∧ ({ world [] with invs := [{ n := 0, cix := 1, base := 0, len := 0x10000, acked := [], mods := [5], asker := none }] } : State).translated 1 = []
    ∧ ({ world [] with peers := [{ mid := 5, inc := 1, lost := false, pathless := none }, { mid := 6, inc := 1, lost := true, pathless := none }] } : State).livePeers = [5] ∧ (world []).mid = 0 := by
  refine ⟨by decide +kernel, ⟨foreman_of (by decide +kernel), ?_⟩, ⟨foreman_of (by decide +kernel), group_of (by decide +kernel), ?_⟩,
    ⟨group_of (by decide +kernel), by decide +kernel, by decide +kernel,
      by decide +kernel, by decide +kernel, by decide +kernel, by decide +kernel, ⟨rulingPart, groupOf .frozen, by decide +kernel, by decide +kernel, by decide +kernel⟩,
      by decide +kernel, by decide +kernel⟩,
    ⟨group_of (by decide +kernel), ?_⟩,
    ⟨safe_of (by decide +kernel), by decide +kernel, by decide +kernel, by decide +kernel, by decide +kernel, by decide +kernel,
      ⟨rulingPart, groupOf .frozen, by decide +kernel, by decide +kernel, by decide +kernel⟩, by decide +kernel, by decide +kernel⟩, ?_⟩ <;> decide +kernel

/-- A request of each kind at its home, and one done. -/
def request (k : RequestKind) : Request := { sentLoad with kind := k, reply := .none, tag := some 1 }
/-- The home slice of 0x20000 holds its line. -/
def arriving (r : Request) : State :=
  let s := world []
  { s with net := [r], slices := [{ s.slice (worldPart.home 0x20000) with lines := [{ line := 0x20000, dirty := false, evp := 0, used := 0 }] }] }
def atHome (s : State) (r : Request) (p : Part) (n : Nat) : Bool :=
  decide (s.net = [r]) && decide (r.done = false) && decide (r.target.mid = s.mid) && decide (s.part? r.cix = some p) && decide (p.current = true)
    && decide (s.isBad r.target.pa = false) && decide (r.target.leaf.hyp = false) && decide (r.target.leaf.plc.isHostly = false)
    && decide (p.inRegion r.target.pa n = false) && decide (s.lineVersions p.cix (lineOf r.target.pa) = [])
    && decide (∀ q ∈ s.recent, overlaps r.target.pa n q.pa q.size = true → q.size = n)
    && (s.sliceReady (p.home r.target.pa) r.target r.writes (some r.id)).isSome && decide (s.otherKey r.target.leaf.hsh r.target.pa = false)
    && decide (s.typedNow r = none)
theorem home_of {s : State} {r : Request} {p : Part} {n : Nat} (h : atHome s r p n = true) : AtItsHome s r p n := by
  simp only [atHome, Bool.and_eq_true, decide_eq_true_eq] at h
  obtain ⟨⟨⟨⟨⟨⟨⟨⟨⟨⟨⟨⟨⟨a, b⟩, c⟩, d⟩, e⟩, f⟩, g⟩, i⟩, j⟩, k⟩, l⟩, m⟩, o⟩, q⟩ := h
  exact ⟨a, b, c, d, e, f, g, i, j, k, l, m, o, q⟩
theorem witness_HomesPerformRequests :
    (Safe (arriving (request (.read 16))) ∧ AtItsHome (arriving (request (.read 16))) (request (.read 16)) worldPart 16)
    ∧ AtItsHome (arriving (request (.write 1 7))) (request (.write 1 7)) worldPart 1
    ∧ (AtItsHome (arriving (request (.atom .add 8 0xFFFFFFFFFFFFFFFF))) (request (.atom .add 8 0xFFFFFFFFFFFFFFFF)) worldPart 8
      ∧ (0xFFFFFFFFFFFFFFFF : BitVec 128).toNat < 2 ^ (8 * 8))
    ∧ AtItsHome (arriving (request (.reduce .add .int32 1))) (request (.reduce .add .int32 1)) worldPart 4
    ∧ ((arriving { request (.read 8) with done := true }).net = [{ request (.read 8) with done := true }]) :=
  ⟨⟨safe_of (by decide +kernel), home_of (by decide +kernel)⟩, home_of (by decide +kernel), ⟨home_of (by decide +kernel), by decide⟩,
    home_of (by decide +kernel), rfl⟩
theorem witness_AnswersReachTheStrand :
    let ack := { request (.write 1 7) with done := true }
    let load := { sentLoad with done := true }
    let pair : Request := { sentLoad with done := true, reply := .regs 62 16 false }
    ((arriving ack).net = [ack] ∧ ack.party = .strand (arriving ack).cur.id ∧ ack.reply = .none ∧ ack.tag = some 1 ∧ (arriving ack).cur.ended = false)
    ∧ (load.party = .strand (arriving load).cur.id ∧ load.reply = .regs 1 8 false) ∧ (pair.reply = .regs 62 16 false ∧ (62 : BitVec 6) ≠ 63 ∧ pair.bad = none ∧ pair.skip = []) := by
  decide +kernel

/-- A post to the counter, one of a passed generation, a parked strand with its wake, an access that waits, and an atomic to host memory. -/
def aPost (h : Word64) (op : CellOp) : Post := { id := 0, cix := 1, source := .resolve, handle := h, hyp := 0, op := op, party := .device, view := [], sent := none }
def posting (m : Post) : State := { cellWorld [cell .counter 5 0 0] [] with posts := [m] }
def aPark : Park := { mid := 0, pa := 0x30000, handle := hand, gst := 4, puts := false, take := none, la := 0, len := 0, ls := 0, since := 0,
                       result := none, rels := [] }
def parked (res : WakeResult) : State :=
  let s := world []
  { s with cur := { s.cur with status := .parked, park := some aPark }, wakes := [{ id := 0, who := placedStrand, res := res, rels := [] }] }
def hostRequest : Request :=
  { request (.atom .and 4 1) with tag := none
                                  target := { va := 0x20000, mid := 0, pa := hostBase, leaf := { dataLeaf with frame := hostBase, plc := .hostCached } } }
def waiting : Blocked := { pc := 0, asked := none, answer := none, target := none, writes := true, sgen := none }
def proxied : State :=
  let s := world []
  { s with net := [hostRequest], cur := { s.cur with blocked := some waiting } }
/-- A load of a page of module 5. -/
def farLoad : Request := { sentLoad with target := { va := 0x20000, mid := 5, pa := 0x20000, leaf := { dataLeaf with mid := 5 } } }
def askedFar : State := { world [] with net := [farLoad] }
theorem witness_PostsWakesAndProxies :
    let s := posting (aPost hand (.ctrAdd 1))
    (s.posts = [aPost hand (.ctrAdd 1)] ∧ (handleVa hand).toNat % 32 = 0 ∧ s.part? 1 = some worldPart
      ∧ s.translate 1 (coreCluster (s.foremanCore worldPart)) (handleVa hand) .cell = .ok (cellAt 0x30000) ∧ (s.granule 0x30000).tag = .counter
      ∧ (aPost hand (.ctrAdd 1)).sent = none ∧ (s.heat worldPart (cellAt 0x30000)).isSome = true ∧ s.isBad 0x30000 = false
      ∧ hand.toNat / 2 ^ 56 = (s.granule 0x30000).gen.toNat % 256 ∧ (0x0200000000030000 : Word64).toNat / 2 ^ 56 ≠ (s.granule 0x30000).gen.toNat % 256)
    ∧ ((parked .poisoned).wakes.map Wake.who = [(parked .poisoned).cur.id] ∧ (parked .poisoned).cur.status = .parked ∧ (parked .poisoned).cur.park = some aPark
      ∧ aPark.take = none ∧ (parked .poisoned).group? (parked .poisoned).cur.id.grp = none ∧ (parked .poisoned).cur.loops = [])
    ∧ (proxied.cur.blocked = some waiting ∧ waiting.answer = none ∧ proxied.askedOf (.strand proxied.cur.id) 0 = none ∧ proxied.givenUp = []
      ∧ (5 : Nat) ≠ proxied.mid ∧ ({ waiting with asked := some 5 } : Blocked).answer = none)
    ∧ (askedFar.net = [farLoad] ∧ farLoad.done = false ∧ farLoad.target.mid ≠ askedFar.mid ∧ farLoad.party = RemoteParty.here (.strand placedStrand 0))
    ∧ (Safe proxied ∧ proxied.net = [hostRequest] ∧ hostRequest.done = false ∧ hostRequest.target.mid = proxied.mid ∧ hostRequest.target.leaf.plc.isHostly = true
      ∧ hostRequest.target.leaf.hyp = false ∧ proxied.part? hostRequest.cix = some worldPart ∧ worldPart.inRegion hostBase 4 = false
      ∧ proxied.lineVersions 1 (lineOf hostBase) = [] ∧ proxied.recent = [] ∧ hostRequest.tag = none
      ∧ hostRequest.party = .strand proxied.cur.id ∧ proxied.otherKey false hostBase = false ∧ hostRequest.kind.isAtomicOp = false
      ∧ (RequestKind.atom .add 4 1).isAtomicOp = true) := by
  refine ⟨⟨by decide +kernel, by decide +kernel, by decide +kernel, gives_eq (by decide +kernel), ?_⟩, ?_, ?_, ?_, ⟨safe_of (by decide +kernel), ?_⟩⟩ <;> decide +kernel

def cluster0 : ClusterLoc := { site := 0, cluster := 0 }
/-- A slice with one miss, and one asleep; a leaf that is UNSEALING. -/
def sliced (x : Slice) : State := { world [] with slices := [x] }
/-- Tables that map the first GiB at virtual address 0. -/
def walked : State :=
  let s := world []
  { s with mem := writeNat (writeNat (writeNat s.mem 0x100000 0x102001 8) 0x102000 0x104001 8) 0x104000 7 8
           parts := s.parts.map fun p => { p with cptr := 0x100000 } }
def walkedPart : Part := { worldPart with cptr := 0x100000 }
def unsealing : State := let s := walked; { s with mem := writeByte s.mem (0x104000 + 12) 2 }
def finds (x : Except FaultInfo Leaf) : Bool := match x with
  | .ok _ => true
  | .error _ => false
theorem finds_of {x : Except FaultInfo Leaf} (h : finds x = true) : ∃ l, x = .ok l := by
  cases x with
  | error e => simp [finds] at h
  | ok l => exact ⟨l, rfl⟩
/-- A counter whose line its home slice holds. -/
def hotWorld : State :=
  let s := cellWorld [cell .counter 5 0 0] []
  { s with slices := [{ s.slice (worldPart.home 0x30000) with lines := [{ line := lineOf 0x30000, dirty := false, evp := 0, used := 0 }] }] }
theorem witness_SliceAndPageSteps :
    let x := (world []).slice cluster0
    let m := sliced { x with misses := [(0x20000, 0, false)] }
    let z := sliced { x with asleep := true }
    let idle := { State.reset with clk := 110000 }
    ((m.slice cluster0).misses = [(0x20000, 0, false)] ∧ m.net = [] ∧ (m.slice cluster0).lines.length < m.sliceRoom cluster0)
    ∧ ((z.slice cluster0).asleep = true) ∧ ((idle.slice { site := 1, cluster := 0 }).asleep = false ∧ (∀ t ∈ idle.strands, t.place.site ≠ 1)
      ∧ (idle.slice { site := 1, cluster := 0 }).lastUse + 110000 ≤ idle.clk.toNat ∧ idle.versions = [])
    ∧ ((world []).clk.toNat < x.lastUse + 110000)
    ∧ (walked.tlbHit cluster0 1 0 = none ∧ walked.part? 1 = some walkedPart ∧ ∃ leaf, walked.walkFrom walkedPart 0 0 .read = .ok leaf)
    ∧ (Safe unsealing ∧ (unsealing.pageNow 0x104000).1 = .unsealing ∧ unsealing.isLeafEntry 0x104000 = true ∧ unsealing.slices = [])
    ∧ (hotWorld.parts.find? (fun p => p.current && p.serves && p.inRanges 0x30000 32) = some worldPart ∧ granuleOf 0x30000 = 0x30000
      ∧ worldPart.home 0x30000 ≠ worldPart.home 0x30080 ∧ (hotWorld.granule 0x30000).tag = .counter
      ∧ (hotWorld.slice (worldPart.home 0x30000)).holds (lineOf 0x30000) = true ∧ (hotWorld.slice (worldPart.home 0x30000)).hot.length < 2048
      ∧ hotWorld.sliceRoom (worldPart.home 0x30000) ≠ 0) := by
  refine ⟨?_, ?_, ?_, ?_, ⟨by decide +kernel, by decide +kernel, finds_of (by decide +kernel)⟩, ⟨safe_of (by decide +kernel), ?_⟩, ?_⟩ <;> decide +kernel

/-- SHA-256 of 64 zero bytes (R66 names the standard; the value is the standard's). -/
def zeroDigest : BitVec 256 := 0xf5a5fd42d16a20302798ef6ed309979b43003d2320d9f0e8ea9831a92759fb4b
/-- An image of 64 zero bytes of code at 0x70000, with its header at 0x60000 and one entry (R66), on SEALED pages; the world with it loading. -/
def codePage : Leaf := { dataLeaf with vbase := 0x70000, frame := 0x70000, x := true, st := .sealed, entry := 0x10070 }
def headPage : Leaf := { codePage with vbase := 0x60000, frame := 0x60000, entry := 0x10060 }
def imageMem (m : List Host.Cell) : List Host.Cell :=
  let m := writeNat m 0x60000 (0x494B4D4A + 2 ^ 32 + 0x10000 * 2 ^ 64 + 64 * 2 ^ 128 + 0x80 * 2 ^ 320 + 2 ^ 352) 64
  writeBytes m ((List.range 32).map fun i => (0x60040 + i, zeroDigest.extractLsb' (8 * (31 - i)) 8))
def imageWorld (ks : List Kernel) (ls : List Launch) (q : LaunchQueue) : State :=
  let s := world []
  let c := coreCluster (s.foremanCore worldPart)
  { s with mem := imageMem s.mem, cells := [{ queue 0 1 0 0 with b2 := 1 + 3 * 2 ^ 16 + 2 ^ 41 }]
           tlb := [headPage, codePage].map fun l => { cluster := c, cix := 1, leaf := l }
           parts := s.parts.map fun p => { p with kernels := ks, launches := ls, queues := [q], logical := s.logicalCores p } }
def imagePart (ks : List Kernel) (ls : List Launch) (q : LaunchQueue) : Part :=
  { worldPart with kernels := ks, launches := ls, queues := [q], logical := (world []).logicalCores worldPart }
def rootQueue : LaunchQueue := { launchQueue with handle := hand, pa := 0x30000 }
def imageKernel (st : KernelStatus) (actv : Nat) : Kernel := { blankKernel 0 0x60000 with st := st, entries := [{ index := 0, store := 0, name := 0 }], actv := actv }
theorem serves_of {s : State} {cix : Nat} {p : Part} {q : LaunchQueue}
    (h : (decide (s.part? cix = some p) && decide (p.st = .run) && decide (p.current = true) && decide (p.queues.find? (fun x => x.lqi == q.lqi) = some q)
      && decide ((s.granule q.pa).tag = .queue) && decide ((s.granule q.pa).dead = false) && decide ((s.granule q.pa).own = 0)
      && decide (q.handle.toNat / 2 ^ 56 = (s.granule q.pa).gen.toNat % 256) && decide (s.waitsAt (s.granule q.pa).pa = [])) = true) : ServesQueue s cix p q := by
  simp only [Bool.and_eq_true, decide_eq_true_eq] at h
  exact ⟨h.1.1.1.1.1.1.1.1, h.1.1.1.1.1.1.1.2, h.1.1.1.1.1.1.2, h.1.1.1.1.1.2, h.1.1.1.1.2, h.1.1.1.2, h.1.1.2, h.1.2, h.2⟩
def loads (x : Except Nat Kernel) : Option Kernel := match x with
  | .ok k => some k
  | .error _ => none
theorem loads_of {x : Except Nat Kernel} (h : (loads x).isSome = true) : ∃ k, x = .ok k := by
  cases x with
  | error e => simp [loads] at h
  | ok k => exact ⟨k, rfl⟩
theorem fails_of {x : Except Nat Kernel} (h : (loads x).isSome = false) : ∃ c, x = .error c := by
  cases x with
  | error e => exact ⟨e, rfl⟩
  | ok k => simp [loads] at h
/-- A launch record of one strand at image 0x60000 at the head of the queue, a record that is malformed, an empty queue, a full one. -/
def recorded (ks : List Kernel) (x : Nat) : State :=
  let s := imageWorld ks [] rootQueue
  { s with mem := writeNat s.mem 0x30020 x 64 }
def goodRecord : Nat := 2 ^ 32 + 0x60000 * 2 ^ 64 + 2 ^ 128 + 2 ^ 144 + 2 ^ 160
theorem witness_LaunchQueuesAreServed :
    let s := recorded [] goodRecord
    let p := imagePart [] [] rootQueue
    let l := recorded [imageKernel .loaded 0] goodRecord
    let lp := imagePart [imageKernel .loaded 0] [] rootQueue
    let r := headRecord s (s.granule rootQueue.pa)
    let b := recorded [] 2
    let waitingL : Launch := { aLaunch with st := .checking, kimg := 0x50000 }
    (ServesQueue s 1 p rootQueue ∧ Safe s ∧ (s.granule 0x30000).b3.getLsbD 8 = false ∧ qSlotBytes (s.granule 0x30000) = 64 ∧ qLaunch (s.granule 0x30000) = true
      ∧ qLqi (s.granule 0x30000) = 0 ∧ qClosed (s.granule 0x30000) = false ∧ qCount (s.granule 0x30000) = 1 ∧ 1 < qCapacity (s.granule 0x30000)
      ∧ (s.heat p (rootQueue.target s.mid)).isSome = true ∧ s.isBad rootQueue.pa = false ∧ p.launches = []
      ∧ p.queues.find? (fun x => x.lqi == 63) = none)
    ∧ (recordWellFormed p r = true ∧ recField r 0 1 = 0 ∧ p.kernelAt (launchOf r p.newLid 0 0 (none, none, 0) []).kimg = none ∧ p.freeKid.isSome = true)
    ∧ (recordWellFormed p (headRecord b (b.granule 0x30000)) = false ∧ recField (headRecord b (b.granule 0x30000)) 0 1 ≠ 1)
    ∧ (ServesQueue l 1 lp rootQueue ∧ lp.kernelAt 0x60000 = some (imageKernel .loaded 0) ∧ l.kernelFresh lp (imageKernel .loaded 0) = true
      ∧ launchRefusal lp (imageKernel .loaded 0) (launchOf r lp.newLid 0 0 (none, none, 0) []) = none)
    ∧ (∃ m ∈ (imagePart [] [{ aLaunch with st := .placing }] rootQueue).launches, m.lqi = 0 ∧ m.st ≠ .running)
    ∧ ((imagePart [imageKernel .loading 0] [] rootQueue).waitersOf 0x60000 = []
      ∧ (imageWorld [imageKernel .loading 0] [] rootQueue).imageErrors (imagePart [imageKernel .loading 0] [] rootQueue) (imageKernel .loading 0) = []
      ∧ ∃ k, (imageWorld [imageKernel .loading 0] [] rootQueue).readImage (imagePart [imageKernel .loading 0] [] rootQueue) (imageKernel .loading 0) = .ok k)
    ∧ ((imagePart [blankKernel 0 0x50000] [waitingL] rootQueue).waitersOf 0x50000 = [waitingL]
      ∧ (imageWorld [blankKernel 0 0x50000] [waitingL] rootQueue).imageErrors (imagePart [blankKernel 0 0x50000] [waitingL] rootQueue) (blankKernel 0 0x50000) = []
      ∧ ∃ c, (imageWorld [blankKernel 0 0x50000] [waitingL] rootQueue).readImage (imagePart [blankKernel 0 0x50000] [waitingL] rootQueue) (blankKernel 0 0x50000)
          = .error c) := by
  refine ⟨⟨serves_of (by decide +kernel), safe_of (by decide +kernel), ?_⟩, ?_, ?_, ⟨serves_of (by decide +kernel), ?_⟩, ⟨_, List.mem_singleton.mpr rfl, ?_⟩,
    ⟨?_, ?_, loads_of (by decide +kernel)⟩, ⟨?_, ?_, fails_of (by decide +kernel)⟩⟩ <;> decide +kernel

/-- A launch of one group of two strands to place. -/
def toPlace : Launch := { aLaunch with st := .placing, next := 0 }
theorem witness_GroupsArePlaced :
    let s := imageWorld [imageKernel .loaded 1] [toPlace] rootQueue
    let p := imagePart [imageKernel .loaded 1] [toPlace] rootQueue
    let none_ := { p with logical := [] }
    s.part? 1 = some p ∧ p.st = .run ∧ p.current = true ∧ p.queueOf toPlace = some rootQueue ∧ rootQueue.remain ≠ 0 ∧ s.switching p = false
    ∧ (∀ x ∈ p.queues, x.lqi = toPlace.lqi ∧ x.born = toPlace.born ∨ qCount (s.granule x.pa) = 0) ∧ toPlace.heldBack = [] ∧ toPlace.dropped = [] ∧ p.launches = [toPlace]
    ∧ s.groups = [] ∧ p.kernels.find? (fun x => x.kid == toPlace.kid) = some (imageKernel .loaded 1) ∧ toPlace.hyp = 0 ∧ toPlace.next < toPlace.nx * toPlace.ny * toPlace.nz
    ∧ (dealCores p (s.freeCores p) 2 2).isSome = true ∧ dealCores none_ (s.freeCores none_) 2 2 = none := by decide +kernel

/-- A launch that is over, one that runs, a family swept and not; a queue at its deadline, one in debt with a frozen group. -/
def endedStrand : Strand := { (world []).cur with status := .exited }
def endWorld (l : Launch) (fs : List Family) (q : LaunchQueue) (gs : List Group) (clk : Word64) : State :=
  let s := imageWorld [] [l] q
  { s with cur := endedStrand, groups := gs, clk := clk, parts := s.parts.map fun p => { p with families := fs } }
def endPart (l : Launch) (fs : List Family) (q : LaunchQueue) : Part := { imagePart [] [l] q with families := fs }
def aFamily (t : Option Nat) (a : Option (Nat × Nat)) : Family := { head := 1, counts := [], recv := 0, sweptAt := t, agreed := a }
theorem witness_LaunchesEnd :
    let s := endWorld aLaunch [aFamily (some 0) (some (0, 0))] rootQueue [] 2731
    let p := endPart aLaunch [aFamily (some 0) (some (0, 0))] rootQueue
    let d : LaunchQueue := { rootQueue with remain := 0 }
    let debt := endWorld aLaunch [] d [groupOf .frozen] 0
    (s.part? 1 = some p ∧ p.serves = true ∧ p.current = true ∧ p.launches.find? (fun x => x.lid == aLaunch.lid) = some aLaunch ∧ aLaunch.governed = none ∧ p.kernels = []
      ∧ aLaunch.dyn = false ∧ s.launchOver p aLaunch = true ∧ p.families.find? (fun x => x.head == 1) = some (aFamily (some 0) (some (0, 0)))
      ∧ s.familyIdle p 1 = true ∧ (aFamily (some 0) (some (0, 0))).sums.1 = (aFamily (some 0) (some (0, 0))).sums.2 ∧ 0 + 2731 ≤ s.clk.toNat
      ∧ (aFamily none none).agreed ≠ some (aFamily none none).sums ∧ (endWorld aLaunch [] rootQueue [] 2730).clk.toNat < 0 + 2731)
    ∧ ((imageWorld [] [aLaunch] rootQueue).launchOver (imagePart [] [aLaunch] rootQueue) aLaunch = false)
    ∧ (rootQueue.deadline.toNat ≤ s.clk.toNat ∧ s.groups = [] ∧ debt.clk.toNat < d.deadline.toNat ∧ rootQueue.remain ≠ 0)
    ∧ (debt.part? 1 = some (endPart aLaunch [] d) ∧ d.remain = 0 ∧ d.overrun = false ∧ debt.groups = [groupOf .frozen] ∧ aLaunch.lid = (groupOf .frozen).id.lid
      ∧ (groupOf .frozen).id.cix = 1 ∧ (endPart aLaunch [] d).queueOf aLaunch = some d ∧ (groupOf .frozen).reserve = none)
    ∧ (let v : State := { s with cells := [{ queue 0 0 0 0 with b3 := 0x10000 }] }
       (v.granule 0x30000).tag = .queue ∧ 0 < fieldNat (v.granule 0x30000).b3 16 8 ∧ (v.granule 0x30000).gen = ({ aLaunch with govGen := 1 } : Launch).govGen
         ∧ (v.granule 0x30000).gen ≠ aLaunch.govGen)
    ∧ ((endPart aLaunch [] { rootQueue with lqi := 1 }).queueOf aLaunch = none) := by decide +kernel

/-- Groups to swap, to save, past their grace and without room; a region of 64 KiB and none. -/
def regionWorld (g : Group) (t : Strand) (len clk : Word64) : State :=
  let s := world []
  { s with cur := t, groups := [g], clk := clk, parts := s.parts.map fun p => { p with csavl := len, csavb := 0x100000 } }
def regionPart (len : Word64) : Part := { worldPart with csavl := len, csavb := 0x100000 }
def parkedCur : Strand := { (world []).cur with status := .parked, park := some aPark }
def savingGroup : Group := { groupOf .saving with reserve := some (0, 0x20000, 0) }
def pressed (full : Bool) : Group := { groupOf .resident with preempt := some 0, fullSent := full }
theorem witness_GroupsAreSaved :
    let s := regionWorld (groupOf .resident) parkedCur 2 16385
    let v := regionWorld savingGroup parkedCur 2 0
    let r := regionWorld (pressed false) (world []).cur 1 55000
    (s.groups = [groupOf .resident] ∧ s.part? 1 = some (regionPart 2) ∧ s.swapRule (regionPart 2) (groupOf .resident) = true
      ∧ (s.reserve placedStrand.grp (s.needOfGroup placedStrand.grp)).isSome = true)
    ∧ ((regionWorld (groupOf .resident) parkedCur 0 16385).reserve placedStrand.grp (s.needOfGroup placedStrand.grp) = none)
    ∧ ((regionWorld (groupOf .resident) parkedCur 1 16384).swapRule (regionPart 1) (groupOf .resident) = false)
    ∧ (v.others = [] ∧ v.cur.id.grp = savingGroup.id ∧ v.cur.ended = false ∧ v.cur.park = some aPark ∧ aPark.result = none ∧ v.canSave v.cur = true
      ∧ 0 + (v.liveSet v.cur aPark.ls).size v.cur.boundMask ≤ 0x20000)
    ∧ (r.cur.status = .run ∧ r.cur.stop = none ∧ r.cur.blocked = none ∧ r.cur.lost = [] ∧ (pressed false).preempt = some 0 ∧ (pressed false).st = .resident ∧ (regionPart 1).current = true
      ∧ 0 + (regionPart 1).grace ≤ r.clk.toNat ∧ ({ r with clk := 54999 } : State).clk.toNat < 0 + (regionPart 1).grace)
    ∧ (groupOf .resident).preempt = none
    ∧ (let n := regionWorld (pressed false) (world []).cur 0 0
       (∀ t ∈ n.groupStrands placedStrand.grp, t.status = .run ∧ t.stop = none) ∧ n.reserve placedStrand.grp (n.needOfGroup placedStrand.grp) = none)
    ∧ (let n := regionWorld (pressed false) { (world []).cur with stop := some .boundary, unacked := [1] } 0 0
       (∀ t ∈ n.groupStrands placedStrand.grp, t.status = .run ∧ t.stop ≠ none ∧ n.canSave t = false) ∧ n.groupStrands placedStrand.grp ≠ []
         ∧ n.reserve placedStrand.grp (n.needOfGroup placedStrand.grp) = none) := by
  decide +kernel

/-- A record that waits for a tag, one that does not, no fault queue and one with room; a fault of the foreman. -/
def aRecord (frz : Bool) (tags : List (BitVec 16)) : Delivery :=
  { id := 0, cix := 1, after := some (placedStrand, tags), record := { blankRecord .notice with frz := frz } }
def delivering (d : Delivery) (fqh : Word64) : State :=
  let s := world []
  let c := coreCluster (s.foremanCore worldPart)
  { s with records := [d], cur := { s.cur with unacked := [1] }, cells := [{ queue 0 0 0 0 with b2 := 1 + 3 * 2 ^ 16 }], fresh := 1
           tlb := [{ cluster := c, cix := 1, leaf := syncLeaf }], parts := s.parts.map fun p => { p with fqh := fqh } }
theorem plain_of {g : Granule} (h : (decide (qClosed g = false) && decide (qLaunch g = false) && decide (g.b3.getLsbD 8 = false)) = true) : PlainQueue g := by
  simp only [Bool.and_eq_true, decide_eq_true_eq] at h
  exact ⟨h.1.1, h.1.2, h.2⟩
theorem witness_RecordsAreDelivered :
    let s := delivering (aRecord true []) hand
    let g := s.granule 0x30000
    let w : Part := { worldPart with fqh := hand }
    let r : Record := blankRecord .illegalOp
    let e : State := { world [] with parts := (world []).parts.map fun p => { p with double := some r } }
    ((delivering (aRecord true [1]) 0).records = [aRecord true [1]] ∧ (1 : BitVec 16) ∈ (delivering (aRecord true [1]) 0).cur.unacked)
    ∧ ((delivering (aRecord true [2]) 0).part? 1 = some worldPart ∧ (2 : BitVec 16) ∉ (delivering (aRecord true [2]) 0).cur.unacked
      ∧ worldPart.fqh = 0 ∧ worldPart.buffer = [] ∧ (aRecord false []).record.frz = false)
    ∧ (Safe s ∧ s.part? 1 = some w ∧ w.fqh ≠ 0 ∧ s.translate 1 (coreCluster (s.foremanCore w)) (handleVa w.fqh) .cell = .ok (cellAt 0x30000)
      ∧ (s.heat w (cellAt 0x30000)).isSome = true ∧ s.isBad 0x30000 = false ∧ (handleVa w.fqh).toNat % 32 = 0
      ∧ g.tag = .queue ∧ g.dead = false ∧ g.own = 0 ∧ w.fqh.toNat / 2 ^ 56 = g.gen.toNat % 256 ∧ PlainQueue g ∧ qSlotBytes g = 64 ∧ s.waitsAt g.pa = []
      ∧ qCount g < qCapacity g ∧ (aRecord true []).id < s.fresh)
    ∧ (worldPart.double = none ∧ e.part? 1 = some { worldPart with double := some r } ∧ worldPart.st = .run ∧ worldPart.cdpol.getLsbD 0 = false) := by
  refine ⟨?_, ?_, ⟨safe_of (by decide +kernel), by decide +kernel, by decide +kernel, gives_eq (by decide +kernel), by decide +kernel,
    by decide +kernel, by decide +kernel, by decide +kernel, by decide +kernel, by decide +kernel, by decide +kernel, plain_of (by decide +kernel), ?_⟩, ?_⟩ <;> decide +kernel

/-! ### Parts, platform, links -/

/-- The world's part in some state. -/
def partWorld (f : Part → Part) : State := let s := world []; { s with parts := s.parts.map f }
def inState (st : PartStatus) : Part → Part := fun p => { p with st := st }
/-- A part that LOCK accepts: one site, the first GiB, a save region of four units. -/
def lockable (p : Part) : Part := { p with st := .configuring, csavl := 4, csavb := 0x100000 }
/-- A load that leaves the state as it was. -/
theorem loads_here {x : State × Except Nat Kernel} {s : State} (h : (decide (x.1 = s) && (loads x.2).isSome) = true) : ∃ k, x = (s, .ok k) := by
  simp only [Bool.and_eq_true, decide_eq_true_eq] at h
  obtain ⟨k, hk⟩ := loads_of h.2
  exact ⟨k, Prod.ext h.1 hk⟩
theorem fails_here {x : State × Except Nat Kernel} {s : State} (h : (decide (x.1 = s) && !(loads x.2).isSome) = true) : ∃ c, x = (s, .error c) := by
  simp only [Bool.and_eq_true, decide_eq_true_eq, Bool.not_eq_true'] at h
  obtain ⟨c, hc⟩ := fails_of h.2
  exact ⟨c, Prod.ext h.1 hc⟩
/-- The image of the launch tests as the foreman's. -/
def foremanImageWorld : State :=
  let s := imageWorld [] [] rootQueue
  { s with cur := { s.cur with status := .exited }, parts := s.parts.map fun p => { p with st := .locked, cfki := 0x60000 } }
def foremanImagePart : Part := { imagePart [] [] rootQueue with st := .locked, cfki := 0x60000 }
theorem witness_PartsBegin :
    (State.reset.firmware.verified = true ∧ State.reset.partState 63 = .free ∧ State.reset.freeSlot = some 0)
    ∧ ({ State.reset with parts := (List.range 64).map fun n => { blankPart (n + 64) 0 with st := .configuring, ckey := BitVec.ofNat 64 n } } : State).freeSlot = none
    ∧ (Indexed (world []) worldPart ∧ worldPart.st ≠ .free ∧ worldPart.st ≠ .configuring ∧ worldPart.st ≠ .locked)
    ∧ ({ State.reset with firmware := { digest := 0, secVer := 0, verified := false } } : State).firmware.verified = false
    ∧ (Indexed (partWorld lockable) (lockable worldPart) ∧ (lockable worldPart).st = .configuring ∧ (partWorld lockable).lockCause (lockable worldPart) = none)
    ∧ (Indexed (partWorld (inState .configuring)) (inState .configuring worldPart)
      ∧ (partWorld (inState .configuring)).lockCause (inState .configuring worldPart) = some 3)
    ∧ (Indexed foremanImageWorld foremanImagePart ∧ foremanImagePart.st = .locked ∧ foremanImagePart.ts = false
      ∧ foremanImageWorld.strand? (foremanId 1) = none ∧ foremanImagePart.tableModule = foremanImageWorld.mid ∧ ∃ k, foremanImageWorld.foremanImage foremanImagePart = (foremanImageWorld, .ok k))
    ∧ (Indexed (partWorld (inState .locked)) (inState .locked worldPart) ∧ ∃ c, (partWorld (inState .locked)).foremanImage (inState .locked worldPart) = (partWorld (inState .locked), .error c)) := by
  refine ⟨by decide +kernel, by decide +kernel, ⟨⟨by decide +kernel, by decide, by decide⟩, by decide +kernel⟩, by decide +kernel,
    ⟨⟨by decide +kernel, by decide, by decide⟩, by decide +kernel⟩, ⟨⟨by decide +kernel, by decide, by decide⟩, by decide +kernel⟩,
    ⟨⟨by decide +kernel, by decide, by decide⟩, by decide +kernel, by decide +kernel, by decide +kernel, by decide +kernel, loads_here (by decide +kernel)⟩,
    ⟨⟨by decide +kernel, by decide, by decide⟩, fails_here (by decide +kernel)⟩⟩

/-- Each state of a part; drained with its only strand gone. -/
def drained : State :=
  let s := partWorld (inState .quiescing)
  { s with cur := { s.cur with status := .exited } }
theorem witness_PartsEnd :
    (∀ st ∈ [PartStatus.run, .quiescing, .error, .configuring, .locked, .scrubbing, .free], (partWorld (inState st)).part? 1 = some (inState st worldPart))
    ∧ ((partWorld (inState .run)).groups = [] ∧ (inState .quiescing worldPart).draining = none
      ∧ ({ inState .quiescing worldPart with draining := some 0 } : Part).draining.isSome = true)
    ∧ listedCommand .run false 9 = false
    ∧ (drained.sites = [] ∧ drained.drainedPart 1 = true ∧ (partWorld (inState .quiescing)).drainedPart 1 = false ∧ (inState .scrubbing worldPart).ts = false) := by decide +kernel

def portWorldOf (q : Port) : State := { State.reset with ports := [q] }
/-- Whatever Config holds of signatures, an image is good or it is not: the two cases of the statement cover every image. -/
theorem witness_PartRegistersAndAttestation :
    Indexed (partWorld (inState .configuring)) (inState .configuring worldPart) ∧ Indexed (partWorld (inState .locked)) (inState .locked worldPart)
    ∧ (Indexed (world []) worldPart ∧ worldPart.st = .run ∧ worldPart.shk = false) ∧ 1000 ≤ (1000 : Word64).toNat % 2 ^ 32
    ∧ ((∀ q ∈ State.reset.parts, q.csite.getLsbD 0 = true → q.st = .free ∨ q.st = .configuring) ∧ (8 : Word64).toNat % 16 ≤ 8 ∧ 8 < (9 : Word64).toNat % 16
      ∧ ∃ q ∈ (world []).parts, q.csite.getLsbD 0 = true ∧ q.st ≠ .free ∧ q.st ≠ .configuring)
    ∧ ((world []).parts.length ≤ 64 ∧ State.reset.ports = [] ∧ worldPart.serves = true
      ∧ (let q := { blankPort 17 with st := .up }; (portWorldOf q).ports = [q] ∧ q.st = .up))
    ∧ ({ worldPart with cflg := 2 } : Part).shk = true
    ∧ ∀ i : FirmwareImage, (Config.signatureGood i = true ∧ Config.minSecVer ≤ i.secVer.toNat) ∨ ¬(Config.signatureGood i = true ∧ Config.minSecVer ≤ i.secVer.toNat) := by
  refine ⟨⟨by decide +kernel, by decide, by decide⟩, ⟨by decide +kernel, by decide, by decide⟩, ⟨⟨by decide +kernel, by decide, by decide⟩, by decide +kernel⟩,
    by decide, ⟨by decide, by decide, by decide, by decide +kernel⟩, by decide +kernel, by decide +kernel, fun i => Classical.em _⟩

/-- Two parts in a ring over site 0, the first current with nothing on it; the second's foreman image loaded. -/
def ringPart (cix : Nat) (current : Bool) : Part :=
  { blankPart cix 0 with st := .run, csite := 3, cflg := 1, current := current, kernels := [{ smallKernel with kid := 256 }] }
def ringWorld : State := { State.reset with parts := [ringPart 1 true, ringPart 2 false], clk := 1 }
def ringBusy : State :=
  let s := ringWorld
  { s with cur := Strand.blank { grp := { cix := 1, lid := 1, lgi := 0 }, sidx := 0 } { site := 0, cluster := 0, core := 1 } }
/-- Owners of site 1: a part of two sites in RUN, one being configured, none; and a part whose site 1 drains and has drained. -/
def drainPart : Part := { ringPart 1 true with cflg := 0, st := .quiescing, draining := some 1 }
def sited (p : Part) : State := { State.reset with parts := [p] }
theorem witness_RingSwitchesAndSitesRetire :
    (ringWorld.part? 1 = some (ringPart 1 true) ∧ ringWorld.part? 2 = some (ringPart 2 false) ∧ ringWorld.nextInRing (ringPart 1 true) = some (ringPart 2 false)
      ∧ (ringPart 1 true).current = true ∧ (ringPart 1 true).serves = true ∧ (ringPart 1 true).double = none ∧ (ringPart 1 true).since < ringWorld.clk.toNat ∧ (ringPart 1 true).launches = [] ∧ ringWorld.groups = [] ∧ ringWorld.jobs = []
      ∧ ringWorld.versions = [] ∧ (∀ t ∈ ringWorld.strands, t.id.grp.cix ≠ 1 ∧ t.id.grp.cix ≠ 2)
      ∧ ((ringPart 2 false).kernels.find? fun z => z.kid == 256).isSome = true)
    ∧ (ringBusy.nextInRing (ringPart 1 true) = some (ringPart 2 false) ∧ ringBusy.clk.toNat < 0 + (ringPart 1 true).ctsq.toNat % 2 ^ 32 * 1100 ∧ ringBusy.idlePart (ringPart 1 true) = false
      ∧ ∀ t ∈ ringBusy.strands, t.id.grp.cix = 1 → t.fmn = true → t.stop = none ∧ t.saved = none) ∧ (ringPart 2 false).current = false
    ∧ (let e := { ringPart 1 true with st := .error }
       { ringWorld with parts := [e, ringPart 2 false] }.nextInRing e = some (ringPart 2 false))
    ∧ (State.reset.ownersOf 31 = [] ∧ (State.reset.site 31).stat = 0)
    ∧ (let p := { ringPart 1 true with cflg := 0 }
       (sited p).ownersOf 1 = [p] ∧ (sited p).part? 1 = some p ∧ p.sites.length ≠ 1 ∧ (sited p).groups = [])
    ∧ (let p := { ringPart 1 true with csite := 1 }
       ∃ q ∈ (sited p).ownersOf 0, (q.st = .run ∨ q.st = .locked ∨ q.st = .quiescing) ∧ q.sites.length = 1)
    ∧ (∀ st ∈ [PartStatus.configuring, .locked, .error, .scrubbing, .quiescing],
        let p := { ringPart 1 true with cflg := 0, st := st }
        (sited p).ownersOf 1 = [p] ∧ (sited p).part? 1 = some p ∧ p.sites.length ≠ 1)
    ∧ ((sited drainPart).parts = [drainPart] ∧ (sited drainPart).siteDrained 1 1 = true ∧ (sited drainPart).strand? (foremanId 1) = none ∧ (sited drainPart).versions = []
      ∧ ({ sited drainPart with sites := [{ State.reset.site 1 with stat := 1 }] } : State).sites.all (fun x => x.stat != 1 || x.n == 1) = true)
    ∧ (let s := sited drainPart
       ({ s with cur := Strand.blank { grp := { cix := 1, lid := 1, lgi := 0 }, sidx := 0 } { site := 1, cluster := 0, core := 1 } } : State).siteDrained 1 1 = false) := by
  decide +kernel

/-- A site that tripped; a strand with a resident binding; a core with no strand. -/
def crowdedWorld : State :=
  let busy (t : Strand) : Strand := { t with tq := [{ someTile .mma with descA := tileDesc 5 64 }] }
  let s := tileWorld []
  { s with cur := busy s.cur, sites := (List.range 31).map fun n => { s.site (n + 1) with stat := 2 } }
theorem witness_PowerSoftErrorsAndResets :
    (1023 < 1024 ∧ (State.reset.site 31).tripped = false ∧ State.reset.siteDemands 31 true = false)
    ∧ (crowdedWorld.siteDemands 0 true = true ∧ ∀ m, m < 32 → m ≠ 0 → (crowdedWorld.site m).stat = 2 ∨ crowdedWorld.siteDemands m false = true)
    ∧ ({ State.reset with sites := [{ State.reset.site 31 with tripped := true }] } : State).site 31 = { State.reset.site 31 with tripped := true }
    ∧ ((world []).cur.status = .run ∧ (world []).cur.fmn = false ∧ ((bound (recipeWorld [])).cur.vr 3).binding = some someBinding
      ∧ someBinding.st = .resident
      ∧ (world []).strandOn { site := 0, cluster := 0, core := 2 } = none ∧ (world []).isBad 0x20000 = false)
    ∧ Safe (world []) ∧ isHost hostBase = true := by
  refine ⟨by decide +kernel, by decide +kernel, by decide +kernel, by decide +kernel, safe_of (by decide +kernel), by decide +kernel⟩

/-- Port 17 in each state. -/
def portWorld (p : Port → Port) : State := { State.reset with ports := [p (blankPort 17)] }
theorem witness_PortsChangeState :
    (∀ st ∈ [PortStatus.down, .training, .auth, .up, .retraining, .fenced], ((portWorld fun p => { p with st := st }).port 17).st = st)
    ∧ ((portWorld fun p => { p with retrains := [2, 1, 0] }).port 17).unsteady 0 = true ∧ (State.reset.port 17).unsteady 0 = false
    ∧ ((portWorld fun p => { p with st := .retraining }).port 17).due = false
    ∧ (∀ q ∈ (portWorld fun p => { p with st := .retraining }).ports, q.due = false) := by decide +kernel

def aPeer (inc : Nat) (lost : Bool) (t : Option Nat) : Peer := { mid := 5, inc := inc, lost := lost, pathless := t }
/-- A port in AUTH with an older peer; packets new and seen before; flits at 2^32. -/
theorem witness_SessionsAndFrames :
    let s := { portWorld (fun p => { p with st := .auth }) with peers := [aPeer 2 false none] }
    let u := { portWorld (fun p => { p with st := .up, accepted := some 7 }) with clk := BitVec.ofNat 64 keyCycles }
    let k : Packet := { mid := 5, inc := 2, party := .strand placedStrand 0, loc := 0, cid := 9, pa := 0, hyp := 0, seqNo := 1, access := .read 8, linkNo := 8 }
    ((s.port 17).st = .auth ∧ s.peer? 5 = some (aPeer 2 false none) ∧ 1 < (aPeer 2 false none).inc ∧ (aPeer 2 false none).inc ≤ 2 ∧ 5 ≠ s.mid ∧ 5 < 256 ∧ 2 < 2 ^ 24)
    ∧ Quiet s ∧ ((u.port 17).st = .up ∧ (u.port 17).keyed + keyCycles ≤ u.clk.toNat
      ∧ ({ u with clk := BitVec.ofNat 64 (keyCycles - 1) } : State).clk.toNat < (u.port 17).keyed + keyCycles
      ∧ seen (u.port 17).accepted 7 = true ∧ seen (u.port 17).accepted k.linkNo = false ∧ k.mid < 256 ∧ k.inc < 2 ^ 24) ∧ (State.reset.port 17).st ≠ .up := by
  refine ⟨by decide +kernel, ?_, by decide +kernel, by decide +kernel⟩
  unfold Quiet
  decide +kernel

/-- Boundary 51 with 14, 15 and 16 failures; peers lost, and pathless for just long enough. -/
def peered (p : Peer) (clk : Word64) : State := { State.reset with peers := [p], clk := clk }
theorem witness_BoundariesAndPeersFail :
    (51 < 52 ∧ (State.reset.boundary 51).out = false ∧ State.reset.groups = [] ∧ (State.reset.boundary 51).failed < 15
      ∧ ({ State.reset with bounds := [{ n := 51, failed := 15, out := false }] } : State).boundary 51 = { n := 51, failed := 15, out := false }
      ∧ ({ State.reset with bounds := [{ n := 51, failed := 16, out := true }] } : State).boundary 51 = { n := 51, failed := 16, out := true })
    ∧ ((peered (aPeer 1 true none) 0).peer? 5 = some (aPeer 1 true none))
    ∧ (let s := peered (aPeer 1 false (some 0)) 110000000
       5 ≠ s.mid ∧ s.peer? 5 = some (aPeer 1 false (some 0)) ∧ 0 + s.lostt * 1100 ≤ s.clk.toNat ∧ (peered (aPeer 1 false (some 0)) 109999999).clk.toNat < 0 + s.lostt * 1100
         ∧ s.others = [] ∧ s.cur.line = none ∧ s.cur.park = none ∧ s.invs = []) := by decide +kernel

def packet (a : RemoteAccess) (pa : Nat) : Packet :=
  { mid := 5, inc := 2, party := .strand placedStrand 0, loc := 0, cid := 9, pa := pa, hyp := 0, seqNo := 1, access := a }
def received (k : Packet) (f : Part → Part) : State :=
  { partWorld (fun p => f { p with cid := 9 }) with ports := [{ blankPort 17 with st := .up, waiting := [k] }], peers := [aPeer 2 false none] }
theorem witness_PacketsEnterTheModule :
    let rd := packet (.read 8) 0x20000
    let s := received rd id
    let p : Part := { worldPart with cid := 9 }
    let add (v : BitVec 128) : Contribution := { line := lineOf 0x20000, cix := 1, packet := packet (.reduce .add .int32 v) 0x20000 }
    ((s.port 17).waiting = [rd] ∧ s.peer? 5 = some (aPeer 2 false none) ∧ rd.inc = 2 ∧ ({ rd with inc := 1 } : Packet).inc < (aPeer 2 false none).inc
      ∧ (∀ q ∈ s.parts, s.part? q.cix = some q)
      ∧ s.parts.find? (fun p => p.st != .free && fieldNat p.cid 0 32 == rd.cid.toNat) = some p ∧ p.serves = true ∧ s.reaches p 0x20000 8 = true
      ∧ s.reaches p 0x40000000 8 = false ∧ s.typedIn 0x20000 8 = none ∧ isHbm 0x20000 = true ∧ p.inRanges 0x20000 32 = true)
    ∧ (let t : State := { s with cells := [{ cell .counter 5 0 0 with pa := 0x20020 }] }
       t.typedIn 0x2001F 2 = some { cell .counter 5 0 0 with pa := 0x20020 } ∧ t.reaches p 0x2001F 2 = true ∧ isHbm 0x2001F = true)
    ∧ (∀ p ∈ (received { rd with cid := 8 } id).parts, p.cid.toNat % 2 ^ 32 ≠ 8) ∧ (inState .configuring p).serves = false ∧ rd.hsh = false ∧ (p.shk && p.sslot) = false ∧ (State.reset.port 17).waiting = []
    ∧ (let m : State := { world [] with mill := [add 1, add 0xFFFFFFFF] }
       m.part? 1 = some worldPart ∧ worldPart.serves = true ∧ worldPart.inRegion 0x20000 4 = false ∧ m.otherKey false 0x20000 = false ∧ m.lineVersions 1 (lineOf 0x20000) = [] ∧ m.recent = []) := by
  decide +kernel

/-- A HOST_SHARED page of a part with the shared key: its last byte; a part being configured; an address of neither; a snooped half. -/
def sharedWorld : State :=
  let s := walked
  { s with mem := writeNat s.mem 0x104000 0x4007 8, parts := s.parts.map fun p => { p with cflg := 2, sslot := true } }
/-- HomeTakes, by computation. -/
def takes (s : State) (p : Part) (l : Leaf) (a n : Nat) (w : Bool) : Bool :=
  decide (s.versions = []) && !s.errorsIn a n && !p.inRegion a n && !s.typedSpan l a n && !s.otherKey l.hsh a && (!p.current || (s.sliceVisit (p.home a) (hostTarget s a l) w).isSome)
theorem takes_of {s : State} {a n : Nat} (h : (match s.hostPage a n with
    | some (p, l) => takes s p l a n false && takes s p { l with hyp := false } a n true
    | none => false) = true) :
    ∃ p l, s.hostPage a n = some (p, l) ∧ HomeTakes s p l a n false ∧ HomeTakes s p { l with hyp := false } a n true := by
  split at h
  · next p l hp =>
    simp only [takes, Bool.and_eq_true, Bool.not_eq_true', Bool.or_eq_true, decide_eq_true_eq] at h
    obtain ⟨⟨⟨⟨⟨⟨a, b⟩, c⟩, f⟩, g⟩, d⟩, ⟨⟨⟨⟨a', b'⟩, c'⟩, f'⟩, g'⟩, d'⟩ := h
    exact ⟨p, l, hp, ⟨a, b, c, f, g, fun e => d.resolve_left (by simp [e])⟩, ⟨a', b', c', f', g', fun e => d'.resolve_left (by simp [e])⟩⟩
  · exact absurd h Bool.false_ne_true
theorem witness_HostAccesses :
    let s := partWorld (inState .configuring)
    (s.hostConfig 0x3FFFFFFF 1 = some (inState .configuring worldPart)) ∧ ((world []).hostConfig 0x20000 1 = none ∧ (world []).hostPage 0x20000 1 = none)
    ∧ (sharedWorld.hostConfig 0x3FFFFFFF 1 = none ∧ (∃ p l, sharedWorld.hostPage 0x3FFFFFFF 1 = some (p, l) ∧ HomeTakes sharedWorld p l 0x3FFFFFFF 1 false
        ∧ HomeTakes sharedWorld p { l with hyp := false } 0x3FFFFFFF 1 true) ∧ sharedWorld.recent = [])
    ∧ ((∀ q ∈ s.otherParts (inState .configuring worldPart), ∀ i, i < 1 → q.inRanges (lineOf (0x3FFFFFFF + i)) 1 = false)
      ∧ (∀ i, i < 1 → s.otherKey false (0x3FFFFFFF + i) = false))
    ∧ (0x3FFFFFFF < 0x20100000000 ∧ (world []).lostt < 2 ^ 64 ∧ Indexed (world []) worldPart) ∧ (0x3FFFFFFF % 64 + 1 ≤ 64)
    ∧ (controlSpace 0x20100000008 = true ∧ (world []).controlWord 0x20100700000 = none ∧ controlSpace 0x20100700000 = true ∧ isHost hostBase = true
      ∧ (world []).hostConfig hostBase 1 = none ∧ (world []).hostPage hostBase 1 = none ∧ (world []).bridge = [])
    ∧ (State.reset.bridge.find? (fun h => h.1 == 0x40) = none)
    ∧ ({ State.reset with bridge := [(0x40, .modified)] } : State).bridge.find? (fun h => h.1 == 0x40) = some (0x40, .modified) := by
  refine ⟨by decide +kernel, by decide +kernel, ⟨by decide +kernel, takes_of (by decide +kernel), by decide +kernel⟩, ?_, ?_, ?_, ?_⟩
  all_goals (try unfold Indexed)
  all_goals decide +kernel

/-! ### The whole machine -/

/-- A fetch line of a template, of branch-target marks and of its first two slots, with the parity of R29 and R30. -/
def fetchLine (low : Nat) (a b : SlotBits) : LineBits :=
  let l : LineBits := BitVec.ofNat 512 low ||| a.setWidth 512 <<< 32 ||| b.setWidth 512 <<< 128
  let odd (k : Nat) : Bool := parityBit 32 (if k < 15 then l.extractLsb' (32 + 32 * k) 32 else BitVec.ofNat 32 low).toNat
  (List.range 16).foldl (fun (l : LineBits) k => if odd k then l ||| (1 : LineBits) <<< (16 + k) else l) l
/-- `add.d g1, g2, g3`, `ld.d g4, [g5, 64]` and `exit`. -/
def addWord : SlotBits := slotOf 0x10000108 0x30000000 0
def ldWord : SlotBits := slotOf 0x40000414 0x06000000 0x40
def exitWord : SlotBits := slotOf 0x011C0000 0 0
/-- The placed strand at a line of its own, by a transfer or not. -/
def atLine (l : LineBits) (byTransfer : Bool) : State :=
  let s := base
  { s with mem := writeNat s.mem 0 l.toNat 64, cur := { s.cur with byTransfer := byTransfer } }
/-- Fetches, as a test that evaluates. -/
def fetched (s : State) (l : LineBits) : Bool :=
  decide (s.cur.blocked = none) && match s.translate s.cix (coreCluster s.cur.place) (BitVec.ofNat 64 (s.cur.pc.toNat / 64 * 64)) .execute, s.part? s.cix with
  | .ok t, some p => t.leaf.st == .sealed && t.mid == s.mid && !s.isBad t.pa
      && l == BitVec.ofNat 512 (s.homeBytes p t.leaf.hsh t.pa 64 (if t.leaf.hyp then s.cur.hcur else 0))
  | _, _ => false
theorem fetches_of {s : State} {l : LineBits} (h : fetched s l = true) : Fetches s l := by
  unfold fetched at h
  rw [Bool.and_eq_true, decide_eq_true_eq] at h
  obtain ⟨h0, h⟩ := h
  split at h
  · next t p ht hp =>
    simp only [Bool.and_eq_true, beq_iff_eq, Bool.not_eq_true'] at h
    exact .inl ⟨h0, t, p, ht, h.1.1.1, h.1.1.2, h.1.2, hp, h.2⟩
  · exact absurd h (by decide)
def atTurn (l : LineBits) (byTransfer : Bool) : State := issuing (atLine l byTransfer) []
theorem turn_of (l : LineBits) (b : Bool) (h : (atLine l b).cur.status = .run ∧ (atLine l b).cur.stop = none ∧ (atLine l b).agenda = [.issue (atLine l b).cur.id]) :
    TurnOfCur (atLine l b) [] := ⟨h.1, h.2.1, .inl h.2.2⟩
/-- The same turn with nothing on the agenda and nothing due. -/
theorem witness_TurnOfCur_idle : TurnOfCur { atLine (fetchLine 0 addWord 0) false with agenda := [] } [] := by
  unfold TurnOfCur; decide +kernel

theorem witness_StepRunsDecodedInstruction_parity :
    let l := fetchLine 0 addWord exitWord ^^^ 1
    TurnOfCur (atLine l false) [] ∧ Fetches (atTurn l false) l ∧ parityBad l ≠ 0 :=
  ⟨turn_of _ _ (by decide +kernel), fetches_of (by decide +kernel), by decide +kernel⟩
/-- Template 8 and a reserved bit are refused; template 7 and all five marks are not. -/
theorem witness_StepRunsDecodedInstruction_line :
    (let l := fetchLine 0x100 addWord exitWord
     TurnOfCur (atLine l false) [] ∧ Fetches (atTurn l false) l ∧ parityBad l = 0 ∧ linePairs l = none)
    ∧ linePairs (fetchLine 0x400 addWord exitWord) = none ∧ linePairs (fetchLine 0xFF addWord exitWord) = some [1, 3] :=
  ⟨⟨turn_of _ _ (by decide +kernel), fetches_of (by decide +kernel), by decide +kernel, by decide +kernel⟩, by decide +kernel, by decide +kernel⟩
theorem witness_StepRunsDecodedInstruction_target :
    let l := fetchLine 2 addWord exitWord
    TurnOfCur (atLine l true) [] ∧ Fetches (atTurn l true) l ∧ parityBad l = 0 ∧ linePairs l = some [] ∧ (atLine l true).cur.byTransfer = true
      ∧ (lineWord l).getLsbD 0 = false ∧ (lineWord (fetchLine 1 addWord exitWord)).getLsbD 0 = true :=
  ⟨turn_of _ _ (by decide +kernel), fetches_of (by decide +kernel), by decide +kernel⟩
def goesOn (o : Host.Outcome State Fault Refusal) : Bool := match o with
  | .next _ => true
  | _ => false
theorem gone {o : Host.Outcome State Fault Refusal} (h : goesOn o = true) : ∃ t, o = .next t := by
  cases o with
  | next t => exact ⟨t, rfl⟩
  | fault f => exact absurd h Bool.false_ne_true
  | refused r => exact absurd h Bool.false_ne_true
def isNoOpcode (x : Except Illegal Instr) : Bool := match x with
  | .error .noOpcode => true
  | _ => false
theorem noOpcode_of {x : Except Illegal Instr} (h : isNoOpcode x = true) : x = .error .noOpcode := by
  cases x with
  | ok i => exact absurd h Bool.false_ne_true
  | error e => cases e <;> first | rfl | exact absurd h Bool.false_ne_true
def callWord : SlotBits := (encode (.call { zeroB with glk := 63, off := 6 })).getD 0
theorem after_of {i : Instr} {s : State} (h : goesOn (exec i s) = true) : exec i s = .next (after i s) := by
  obtain ⟨t, ht⟩ := gone h
  simp only [after, ht]
theorem witness_StepRunsDecodedInstruction_single :
    (let l := fetchLine 0 addWord exitWord
     TurnOfCur (atLine l false) [] ∧ Fetches (atTurn l false) l ∧ parityBad l = 0 ∧ linePairs l = some [] ∧ 0 ∉ ([] : List Nat)
       ∧ decodeSlot (lineSlot l 0) = .ok (.add { zeroA with gd := 1, ga := 2, gb := 3 })
       ∧ beforeIssue (.add { zeroA with gd := 1, ga := 2, gb := 3 }) (atTurn l false) = none)
    ∧ (let l := fetchLine 0 (BitVec.allOnes 96) exitWord
       Fetches (atTurn l false) l ∧ parityBad l = 0 ∧ linePairs l = some [] ∧ decodeSlot (lineSlot l 0) = .error .noOpcode) :=
  ⟨⟨turn_of _ _ (by decide +kernel), fetches_of (by decide +kernel), by decide +kernel, by decide +kernel, by decide, rfl, by decide +kernel⟩,
    fetches_of (by decide +kernel), by decide +kernel, by decide +kernel, noOpcode_of (by decide +kernel)⟩
/-- A legal pair (R37) that runs both, and a pair of two that R37 does not name. -/
theorem witness_StepRunsDecodedInstruction_pair :
    (let l := fetchLine 0x20 addWord callWord
     let t := atTurn l false
     let t0 := t.atSlot t.cur.pc t.beginPair
     let b : Instr := .call { zeroB with glk := 63, off := 6 }
     let a : Instr := .add { zeroA with gd := 1, ga := 2, gb := 3 }
     let u := after a t0
     let u2 := t.atSlot (pcNext t.cur.pc) u
     let v := after b u2
     TurnOfCur (atLine l false) [] ∧ Fetches (atTurn l false) l ∧ parityBad l = 0 ∧ linePairs l = some [0]
       ∧ decodeSlot (lineSlot l 0) = .ok a ∧ decodeSlot (lineSlot l 1) = .ok b
       ∧ pairLegal a b = true ∧ beforeIssue a t0 = none ∧ exec a t0 = .next u ∧ u.last = .seq
       ∧ beforeIssue b u2 = none ∧ exec b u2 = .next v ∧ isFaulted v.last = false ∧ v.last ≠ .stall
       ∧ (finishGroup t.here (t.here + 1) (v.keepFrom t.fresh (if guardHolds (guardOf b) t then writesG b else []))).cur.blocked = none)
    ∧ (let l := fetchLine 0x20 exitWord addWord
       Fetches (atTurn l false) l ∧ parityBad l = 0 ∧ linePairs l = some [0] ∧ pairLegal (.exit zeroB) (.add { zeroA with gd := 1, ga := 2, gb := 3 }) = false
         ∧ decodeSlot (lineSlot l 0) = .ok (.exit zeroB)) :=
  ⟨⟨turn_of _ _ (by decide +kernel), fetches_of (by decide +kernel), by decide +kernel, by decide +kernel, rfl, rfl, by decide +kernel, by decide +kernel,
      after_of (by decide +kernel), by decide +kernel, by decide +kernel, after_of (by decide +kernel), by decide +kernel, by decide +kernel, by decide +kernel⟩,
    fetches_of (by decide +kernel), by decide +kernel, by decide +kernel, by decide +kernel, rfl⟩
theorem witness_StepRunsDecodedInstruction_others :
    ({ base with agenda := [.act (.wake 0)] } : State).agenda = .act (.wake 0) :: [] ∧ payloadOf (.wake 0) = none
    ∧ ({ base with agenda := [.tick 3] } : State).agenda = .tick 3 :: [] := by decide +kernel

/-- `fget g1, f0 || fget g2, f0` of a FULL register (R37, R107, R132): both read it, and it is EMPTY after the pair. -/
theorem test_step_fget_pair :
    let s := atLine (fetchLine 0x20 ((encode (.fget { zeroA with gd := 1 })).getD 0) ((encode (.fget { zeroA with gd := 2 })).getD 0)) false
    let u := stepped { s with cur := { s.cur with f := s.cur.f.set 0 { value := 7, arrived := true, producers := [] } } }
    u.cur.g.get 1 = 7 ∧ u.cur.g.get 2 = 7 ∧ (u.cur.f' 0).arrived = false ∧ u.cur.pc = 2 ∧ u.cur.fu = false := by decide +kernel
/-- MZ with ME on VRED, which writes no v register, is an unused field (R43, R138); on VADD it is used. -/
theorem test_mz_of_a_reduction : (Instr.vred { zeroV with me := true, mz := true }).wf = false ∧ (Instr.vdot { zeroV with me := true, mz := true }).wf = false
    ∧ (Instr.vadd { zeroV with me := true, mz := true }).wf = true := by decide
theorem witness_SpecWordsDecode_bits : addWord.toNat = 0x10000108 * 2 ^ 64 + 0x30000000 * 2 ^ 32 := by decide
theorem witness_DecodeAndEncodeAgree :
    let i : Instr := .ld { zeroM with gt := 4, gb := 5, sz := .d, off := 64 }
    i.wf = true ∧ encode i = some ldWord ∧ decodeSlot ldWord = .ok i :=
  ⟨by decide +kernel, by decide +kernel, rfl⟩
/-- An instruction of a running strand, of one that does not run, a step of another agent; a live set that the image has and one that it has not;
a guard that is false. -/
theorem witness_EveryInstructionGoesOn :
    ((payloadOf (.nop { grd := always })).isSome = true ∧ base.cur.status = .run ∧ State.reset.cur.status ≠ .run ∧ payloadOf (.wake 0) = none)
    ∧ RefusedWhateverTheGuard (.grpFrz { zeroS with gd := 1 }) base
    ∧ (¬RefusedWhateverTheGuard (.nop { grd := { inv := true, k := 0 } }) base ∧ guardHolds (guardOf (.nop { grd := { inv := true, k := 0 } })) base = false) := by
  unfold RefusedWhateverTheGuard; decide +kernel
theorem witness_FaultsAreTaken :
    (FaultCode.parity ≠ .pagePerm) ∧ base.cur.fmn = false ∧ (foremanWorld []).cur.fmn = true
    ∧ ((foremanWorld []).part? (foremanWorld []).cix).isSome = true := by decide +kernel
theorem witness_BytesReadAsWritten :
    let m := writeNat [] 0xFFFE 0x123456 3
    Memory.wf m = true ∧ m.length = 3 ∧ Memory.wf (writeByte m 0xFFFF 0) = true ∧ (writeByte m 0xFFFF 0).length = 2 := by decide +kernel
theorem witness_EveryStepKeepsMemoryCanonical : Safe base ∧ ∃ t, step base = .next t := ⟨safe_of (by decide +kernel), gone (by decide +kernel)⟩

end Sys2Proof.Tests
end

section
/-! PROOFS. The loop stack (spec/05_strand.md R108, R109): what LOOP does in each of its cases, and what the check after an issue group does to
the entry on top of the stack. -/

namespace Sys2Proof.Machine

open Sys2Proof.Says

/-! ### LOOP (R108) -/

theorem exec_loop (f : FormB) (s : State) : exec (.loop f) s = execLoop f s := rfl

section
variable {f : FormB} {s : State} (hx : Executes f.grd s)
include hx

theorem execLoop_offset_lt_one (ho : f.off.toInt < 1) : execLoop f s = .next (s.raiseCode .illegalOp) := by
  rw [execLoop, issue_run _ hx.1 hx.2]
  simp only [ho, if_true]

theorem execLoop_count_too_large (ho : 1 ≤ f.off.toInt) (hn : 2 ^ 48 ≤ loopCount f s) : execLoop f s = .next (s.raiseCode .loop) := by
  rw [execLoop, issue_run _ hx.1 hx.2]
  simp only [not_lt.mpr ho, hn, if_true, if_false]

theorem execLoop_count_zero (ho : 1 ≤ f.off.toInt) (hn : loopCount f s = 0) :
    execLoop f s = .next { s with last := .skip (s.here + f.off.toNat + 1) } := by
  have hsmall : ¬2 ^ 48 ≤ (0 : Nat) := by decide
  rw [execLoop, issue_run _ hx.1 hx.2]
  simp only [not_lt.mpr ho, hn, hsmall, if_true, if_false]

theorem execLoop_stack_full (ho : 1 ≤ f.off.toInt) (h0 : 0 < loopCount f s) (hn : loopCount f s < 2 ^ 48) (hl : s.cur.loops.length = 4) :
    execLoop f s = .next (s.raiseCode .loop) := by
  rw [execLoop, issue_run _ hx.1 hx.2]
  simp only [not_lt.mpr ho, not_le.mpr hn, h0.ne', hl, if_true, if_false]

theorem execLoop_push (ho : 1 ≤ f.off.toInt) (h0 : 0 < loopCount f s) (hn : loopCount f s < 2 ^ 48) (hl : s.cur.loops.length < 4) :
    execLoop f s = .next (s.setLoops
      ({ start := s.here + 1, final := s.here + f.off.toNat, count := loopCount f s } :: s.cur.loops)).done := by
  rw [execLoop, issue_run _ hx.1 hx.2]
  simp only [not_lt.mpr ho, not_le.mpr hn, h0.ne', hl.ne, if_false]

end

/-! ### After an issue group (R109) -/

section
variable {lo hi next : Nat} {e : LoopEntry} {rest : List LoopEntry}

@[simp] theorem loopReturn_nil : loopReturn lo hi next [] = (next, []) := rfl

/-- The body of the entry on top does not end in the group. -/
theorem loopReturn_cons_outside (he : ¬(lo ≤ e.final ∧ e.final ≤ hi)) : loopReturn lo hi next (e :: rest) = (next, e :: rest) := by
  rw [loopReturn, if_neg he]

/-- The body of the entry on top ends in the group and repeats. -/
theorem loopReturn_cons_repeat (he : lo ≤ e.final ∧ e.final ≤ hi) (hc : 1 < e.count) :
    loopReturn lo hi next (e :: rest) = (e.start, { e with count := e.count - 1 } :: rest) := by
  rw [loopReturn, if_pos he, if_pos hc]

/-- The body of the entry on top ends in the group for the last time: the entry below is tested. -/
theorem loopReturn_cons_spent (he : lo ≤ e.final ∧ e.final ≤ hi) (hc : e.count ≤ 1) :
    loopReturn lo hi next (e :: rest) = loopReturn lo hi next rest := by
  rw [loopReturn, if_pos he, if_neg (not_lt.mpr hc)]

end

theorem loopReturn_append_spent {lo hi next : Nat} {done : List LoopEntry} (below : List LoopEntry)
    (hd : ∀ e ∈ done, lo ≤ e.final ∧ e.final ≤ hi ∧ e.count ≤ 1) :
    loopReturn lo hi next (done ++ below) = loopReturn lo hi next below := by
  induction done with
  | nil => rfl
  | cons e rest ih =>
    obtain ⟨⟨hlo, hhi, hc⟩, hrest⟩ := List.forall_mem_cons.mp hd
    calc loopReturn lo hi next (e :: (rest ++ below))
        = loopReturn lo hi next (rest ++ below) := loopReturn_cons_spent ⟨hlo, hhi⟩ hc
      _ = loopReturn lo hi next below := ih hrest

/-- Settles O8: LOOP by the order of its tests, and the check after a group by induction on the entries it pops. -/
theorem loopsRepeatTheirBodies : Obligations.LoopsRepeatTheirBodies := by
  unfold Obligations.LoopsRepeatTheirBodies
  refine ⟨fun f s hx => ?_, fun lo hi next done below hd => ?_⟩
  · rw [exec_loop]
    exact ⟨execLoop_offset_lt_one hx, fun ho =>
      ⟨execLoop_count_too_large hx ho, execLoop_count_zero hx ho, execLoop_stack_full hx ho, execLoop_push hx ho⟩⟩
  · rw [loopReturn_append_spent below hd]
    refine ⟨?_, ?_, ?_⟩
    · rintro rfl
      exact loopReturn_nil
    · rintro e rest rfl he
      exact loopReturn_cons_outside he
    · rintro e rest rfl hlo hhi hc
      exact loopReturn_cons_repeat ⟨hlo, hhi⟩ hc

end Sys2Proof.Machine
end

section
/-! PROOFS. What decoding a slot says of the instruction it names: the entry of the instruction permits its fields (R40-R43, R53). -/

namespace Sys2Proof

/-- A word that decodes decodes to an instruction its entry permits. -/
theorem wf_of_decodeSlot {w : SlotBits} {i : Instr} (h : decodeSlot w = .ok i) : i.wf = true := by
  unfold decodeSlot at h
  simp only at h
  split at h
  · cases h
  · split at h
    · cases h
    · split at h
      · next hwf =>
        cases h
        exact hwf
      · cases h

section
variable {f : FormA} {u : UseA} (h : f.fits u = true)
include h

theorem FormA.gd_of_fits (hu : u.gd = false) : f.gd = 0 := by
  simp only [FormA.fits, Bool.and_eq_true, hu, Bool.false_or, beq_iff_eq] at h
  tauto

theorem FormA.w_of_fits (hu : u.w = false) : f.w = .w64 := by
  simp only [FormA.fits, Bool.and_eq_true, hu, Bool.false_or, beq_iff_eq] at h
  tauto

theorem FormA.cc_of_fits : u.cc f.cc = true := by
  simp only [FormA.fits, Bool.and_eq_true] at h
  tauto

theorem FormA.imm_of_fits : u.imm f.imm = true := by
  simp only [FormA.fits, Bool.and_eq_true] at h
  tauto

end

section
variable {f : FormA} {u : UseA} {w : SlotBits} {i : Instr}

theorem decodeSlot_ne_of_gd (hi : i.wf = f.fits u) (hu : u.gd = false) (hd : f.gd ≠ 0) : decodeSlot w ≠ .ok i := fun h =>
  hd (FormA.gd_of_fits (hi ▸ wf_of_decodeSlot h) hu)

theorem decodeSlot_ne_of_w (hi : i.wf = f.fits u) (hu : u.w = false) (hw : f.w ≠ .w64) : decodeSlot w ≠ .ok i := fun h =>
  hw (FormA.w_of_fits (hi ▸ wf_of_decodeSlot h) hu)

theorem decodeSlot_ne_of_cc (hi : i.wf = f.fits u) (hc : ¬u.cc f.cc = true) : decodeSlot w ≠ .ok i := fun h =>
  hc (FormA.cc_of_fits (hi ▸ wf_of_decodeSlot h))

theorem decodeSlot_ne_of_imm (hi : i.wf = f.fits u) (hm : ¬u.imm f.imm = true) : decodeSlot w ≠ .ok i := fun h =>
  hm (FormA.imm_of_fits (hi ▸ wf_of_decodeSlot h))

end

theorem FormI.imm_of_fits {f : FormI} {p : BitVec 48 → Bool} (h : f.fits p = true) : p f.imm = true := by
  simp only [FormI.fits, Bool.and_eq_true] at h
  exact h.2

theorem ccCmp_iff {c : BitVec 4} : ccCmp c = true ↔ c.toNat ≤ 9 := decide_eq_true_iff
theorem ccKop_iff {c : BitVec 4} : ccKop c = true ↔ c.toNat ≤ 5 := decide_eq_true_iff

/-- The specifiers that R124 permits in the immediate forms. -/
theorem bitFieldImm_iff {i : BitVec 32} :
    bitFieldImm i = true ↔ i.extractLsb' 15 17 = 0 ∧ i.extractLsb' 6 2 = 0 ∧ (i.extractLsb' 8 7).toNat ≤ 64 := by
  simp only [bitFieldImm, Bool.and_eq_true, beq_iff_eq, decide_eq_true_eq, and_assoc]

end Sys2Proof
end

section
/-! PROOFS. The divisions and the bit fields (spec/06_scalar.md R121, R123, R124): the model's operations on numbers are those of words at the
operation width, and a field specifier is read bit by bit. -/

namespace Sys2Proof.Machine

open Sys2Proof.Says

/-! ### Words of n bits as numbers (R121) -/

section
variable {n : Nat}

@[simp] theorem toSigned_toNat (x : BitVec n) : toSigned n x.toNat = x.toInt := by
  have hx : x.toNat < 2 ^ n := x.isLt
  have hhalf : x.toNat < 2 ^ (n - 1) ↔ 2 * x.toNat < 2 ^ n := by
    cases n with
    | zero => simp [Nat.lt_one_iff.mp hx]
    | succ m => rw [Nat.add_sub_cancel, Nat.pow_succ]; omega
  rw [toSigned, BitVec.toInt_eq_toNat_cond]
  simp only [hhalf, Nat.cast_pow, Nat.cast_ofNat]

theorem ofSigned_eq_toNat_ofInt (v : Int) : ofSigned n v = (BitVec.ofInt n v).toNat := by
  rw [BitVec.toNat_ofInt, ofSigned, Nat.cast_pow]
  rfl

theorem lowBits_eq_toNat_setWidth (x : Word64) : lowBits n x = (x.setWidth n).toNat := (BitVec.toNat_setWidth n x).symm

theorem extendResult_unsigned (r : BitVec n) : extendResult false n r.toNat = r.setWidth 64 := by
  rw [extendResult, Nat.mod_eq_of_lt r.isLt]
  exact BitVec.ofNat_toNat 64 r

theorem extendResult_signed (r : BitVec n) : extendResult true n r.toNat = r.signExtend 64 := by
  rw [extendResult, Nat.mod_eq_of_lt r.isLt, toSigned_toNat]
  rfl

theorem toNat_eq_zero_iff {b : BitVec n} : b.toNat = 0 ↔ b = 0 := by simp [← BitVec.toNat_inj]

/-! ### Quotients and remainders (R123) -/

theorem aluDiv_toNat (a b : BitVec n) : aluDiv n a.toNat b.toNat = (divOf n a b).toNat := by
  simp only [aluDiv, divOf, toNat_eq_zero_iff]
  split
  · exact BitVec.toNat_allOnes.symm
  · exact BitVec.toNat_udiv.symm

theorem aluRem_toNat (a b : BitVec n) : aluRem n a.toNat b.toNat = (remOf n a b).toNat := by
  simp only [aluRem, remOf, toNat_eq_zero_iff]
  split
  · rfl
  · exact BitVec.toNat_umod.symm

theorem ofInt_tdiv_toInt (a b : BitVec n) : BitVec.ofInt n (a.toInt.tdiv b.toInt) = a.sdiv b := by
  apply BitVec.eq_of_toInt_eq
  rw [BitVec.toInt_sdiv, BitVec.toInt_ofInt]

theorem ofInt_tmod_toInt (a b : BitVec n) : BitVec.ofInt n (a.toInt.tmod b.toInt) = a.srem b := by
  rw [← BitVec.toInt_srem, BitVec.ofInt_toInt]

theorem aluDivs_toNat (a b : BitVec n) : aluDivs n a.toNat b.toNat = (divsOf n a b).toNat := by
  simp only [aluDivs, divsOf, toNat_eq_zero_iff, toSigned_toNat, ofSigned_eq_toNat_ofInt, ofInt_tdiv_toInt]
  split
  · exact BitVec.toNat_allOnes.symm
  · rfl

theorem aluRems_toNat (a b : BitVec n) : aluRems n a.toNat b.toNat = (remsOf n a b).toNat := by
  simp only [aluRems, remsOf, toNat_eq_zero_iff, toSigned_toNat, ofSigned_eq_toNat_ofInt, ofInt_tmod_toInt]
  split
  · rfl
  · rfl

/-- The most negative number by -1 overflows to itself, at every width. -/
theorem divsOf_intMin_allOnes (hn : 0 < n) : divsOf n (BitVec.intMin n) (BitVec.allOnes n) = BitVec.intMin n := by
  have hb : BitVec.allOnes n ≠ 0 := fun h => hn.ne' (BitVec.allOnes_eq_zero_iff.mp h)
  rw [divsOf, if_neg hb, ← BitVec.neg_one_eq_allOnes, BitVec.intMin_sdiv_neg_one]

theorem remsOf_intMin_allOnes (hn : 0 < n) : remsOf n (BitVec.intMin n) (BitVec.allOnes n) = 0 := by
  have hb : BitVec.allOnes n ≠ 0 := fun h => hn.ne' (BitVec.allOnes_eq_zero_iff.mp h)
  rw [remsOf, if_neg hb]
  apply BitVec.eq_of_toInt_eq
  rw [BitVec.toInt_srem, BitVec.toInt_allOnes, if_pos hn, Int.tmod_neg, Int.tmod_one]
  exact BitVec.toInt_zero.symm

end

theorem widthBits_pos (w : Width) : 0 < widthBits w := by cases w <;> decide

/-! ### The frame of a division -/

section
variable {op : Nat → Nat → Nat → Nat} {word : (n : Nat) → BitVec n → BitVec n → BitVec n} {f : FormA} {s : State} {b : State → Word64}

theorem aluValue_unsigned (y : Word64) (hop : ∀ {n : Nat} (x y : BitVec n), op n x.toNat y.toNat = (word n x y).toNat) :
    aluValue op false f s y = atWidth f.w word (s.rdG f.ga) y := by
  simp only [aluValue, atWidth, lowBits_eq_toNat_setWidth, hop, extendResult_unsigned]

theorem aluValue_signed (y : Word64) (hop : ∀ {n : Nat} (x y : BitVec n), op n x.toNat y.toNat = (word n x y).toNat) :
    aluValue op true f s y = atWidthSigned f.w word (s.rdG f.ga) y := by
  simp only [aluValue, atWidthSigned, lowBits_eq_toNat_setWidth, hop, extendResult_signed]

/-- A division writes its result and sets SSW.DZ exactly when the divisor is 0 at the width. -/
theorem aluDivision_run (sgn : Bool) (hx : Executes f.grd s) :
    aluDivision op sgn f b s = .next (withDz f.w (b s) (s.putG f.gd (aluValue op sgn f s (b s)))) := by
  rw [aluDivision, issue_run _ hx.1 hx.2]
  simp only [withDz, lowBits_eq_toNat_setWidth, toNat_eq_zero_iff]

theorem aluDivision_unsigned (hx : Executes f.grd s) (hop : ∀ {n : Nat} (x y : BitVec n), op n x.toNat y.toNat = (word n x y).toNat) :
    aluDivision op false f b s = .next (withDz f.w (b s) (s.putG f.gd (atWidth f.w word (s.rdG f.ga) (b s)))) := by
  rw [aluDivision_run false hx, aluValue_unsigned (b s) hop]

theorem aluDivision_signed (hx : Executes f.grd s) (hop : ∀ {n : Nat} (x y : BitVec n), op n x.toNat y.toNat = (word n x y).toNat) :
    aluDivision op true f b s = .next (withDz f.w (b s) (s.putG f.gd (atWidthSigned f.w word (s.rdG f.ga) (b s)))) := by
  rw [aluDivision_run true hx, aluValue_signed (b s) hop]

end

/-! ### Bit fields (R124) -/

/-- The position and the length of the field that a specifier names (R124). -/
def fieldPos (e : Word64) : Nat := e.toNat % 64
def fieldLen (e : Word64) : Nat := Nat.min (e.toNat / 256 % 128) 64

theorem fieldMask_eq (e : Word64) : fieldMask e = BitVec.ofNat 64 ((2 ^ fieldLen e - 1) * 2 ^ fieldPos e) := rfl
theorem fieldExtract_eq (a e : Word64) : fieldExtract a e = (a &&& fieldMask e) >>> fieldPos e := rfl
theorem fieldInsert_eq (d a e : Word64) :
    fieldInsert d a e = (d &&& ~~~fieldMask e) ||| ((a <<< fieldPos e) &&& fieldMask e) := rfl

theorem getLsbD_fieldMask (e : Word64) {i : Nat} (hi : i < 64) :
    (fieldMask e).getLsbD i = decide (fieldPos e ≤ i ∧ i < fieldPos e + fieldLen e) := by
  rw [fieldMask_eq, BitVec.getLsbD_ofNat, Nat.testBit_mul_two_pow, Nat.testBit_two_pow_sub_one, Bool.eq_iff_iff]
  simp only [Bool.and_eq_true, decide_eq_true_eq]
  omega

theorem getLsbD_fieldExtract (a e : Word64) (j : Nat) :
    (fieldExtract a e).getLsbD j = (decide (j < fieldLen e) && a.getLsbD (fieldPos e + j)) := by
  rw [fieldExtract_eq, BitVec.getLsbD_ushiftRight, BitVec.getLsbD_and]
  by_cases hj : fieldPos e + j < 64
  · rw [getLsbD_fieldMask e hj, Bool.and_comm]
    simp only [Nat.le_add_right, true_and, Nat.add_lt_add_iff_left]
  · rw [BitVec.getLsbD_of_ge a _ (not_lt.mp hj), Bool.false_and, Bool.and_false]

theorem getLsbD_fieldInsert (d a e : Word64) {j : Nat} (hj : j < 64) :
    (fieldInsert d a e).getLsbD j
      = if fieldPos e ≤ j ∧ j < fieldPos e + fieldLen e then a.getLsbD (j - fieldPos e) else d.getLsbD j := by
  rw [fieldInsert_eq, BitVec.getLsbD_or, BitVec.getLsbD_and, BitVec.getLsbD_and, BitVec.getLsbD_not, BitVec.getLsbD_shiftLeft,
    getLsbD_fieldMask e hj]
  split
  · next hin => simp [hin, hj, not_lt.mpr hin.1]
  · next hout => simp [hout, hj]

/-! ### The instructions -/

section
variable (f : FormA) (s : State)

theorem exec_div : exec (.div f) s = aluDivision aluDiv false f (opReg f) s := rfl
theorem exec_divImm : exec (.divImm f) s = aluDivision aluDiv false f (opImm f) s := rfl
theorem exec_divs : exec (.divs f) s = aluDivision aluDivs true f (opReg f) s := rfl
theorem exec_divsImm : exec (.divsImm f) s = aluDivision aluDivs true f (opImm f) s := rfl
theorem exec_rem : exec (.rem f) s = aluDivision aluRem false f (opReg f) s := rfl
theorem exec_remImm : exec (.remImm f) s = aluDivision aluRem false f (opImm f) s := rfl
theorem exec_rems : exec (.rems f) s = aluDivision aluRems true f (opReg f) s := rfl
theorem exec_remsImm : exec (.remsImm f) s = aluDivision aluRems true f (opImm f) s := rfl

end

section
variable {f : FormA} {s : State} (hx : Executes f.grd s)
include hx

theorem exec_bfx_run : exec (.bfx f) s = .next (s.putG f.gd (fieldExtract (s.rdG f.ga) (s.rdG f.gb))) :=
  show execBfx f s = _ from issue_run _ hx.1 hx.2
theorem exec_bfi_run : exec (.bfi f) s = .next (s.putG f.gd (fieldInsert (s.rdG f.gd) (s.rdG f.ga) (s.rdG f.gb))) :=
  show execBfi f s = _ from issue_run _ hx.1 hx.2
theorem exec_bfxImm_run : exec (.bfxImm f) s = .next (s.putG f.gd (fieldExtract (s.rdG f.ga) (f.imm.setWidth 64))) :=
  show execBfxImm f s = _ from issue_run _ hx.1 hx.2
theorem exec_bfiImm_run : exec (.bfiImm f) s = .next (s.putG f.gd (fieldInsert (s.rdG f.gd) (s.rdG f.ga) (f.imm.setWidth 64))) :=
  show execBfiImm f s = _ from issue_run _ hx.1 hx.2

end

theorem decodeSlot_ne_bitField_of_w {f : FormA} {w : SlotBits} (hw : f.w ≠ .w64) :
    decodeSlot w ≠ .ok (.bfx f) ∧ decodeSlot w ≠ .ok (.bfi f) ∧ decodeSlot w ≠ .ok (.bfxImm f) ∧ decodeSlot w ≠ .ok (.bfiImm f) :=
  ⟨decodeSlot_ne_of_w rfl rfl hw, decodeSlot_ne_of_w rfl rfl hw, decodeSlot_ne_of_w rfl rfl hw, decodeSlot_ne_of_w rfl rfl hw⟩

theorem decodeSlot_ne_bitField_of_imm {f : FormA} {w : SlotBits}
    (hi : ¬(f.imm.extractLsb' 15 17 = 0 ∧ f.imm.extractLsb' 6 2 = 0 ∧ (f.imm.extractLsb' 8 7).toNat ≤ 64)) :
    decodeSlot w ≠ .ok (.bfxImm f) ∧ decodeSlot w ≠ .ok (.bfiImm f) :=
  ⟨decodeSlot_ne_of_imm rfl (mt bitFieldImm_iff.mp hi), decodeSlot_ne_of_imm rfl (mt bitFieldImm_iff.mp hi)⟩

/-- Settles O2: the divisions as operations on words of the operation width, the bit fields bit by bit, and what is no such instruction by the
entries that decoding checks. -/
theorem divisionsAndBitFields : Obligations.DivisionsAndBitFields := by
  unfold Obligations.DivisionsAndBitFields
  refine ⟨⟨fun f s hx => ?_, fun w => ?_⟩, fun f s hx => ?_, fun f w => ⟨decodeSlot_ne_bitField_of_w, decodeSlot_ne_bitField_of_imm⟩⟩
  · rw [exec_div, exec_divImm, exec_divs, exec_divsImm, exec_rem, exec_remImm, exec_rems, exec_remsImm]
    exact ⟨⟨aluDivision_unsigned hx aluDiv_toNat, aluDivision_unsigned hx aluDiv_toNat⟩,
      ⟨aluDivision_signed hx aluDivs_toNat, aluDivision_signed hx aluDivs_toNat⟩,
      ⟨aluDivision_unsigned hx aluRem_toNat, aluDivision_unsigned hx aluRem_toNat⟩,
      ⟨aluDivision_signed hx aluRems_toNat, aluDivision_signed hx aluRems_toNat⟩⟩
  · exact ⟨divsOf_intMin_allOnes (widthBits_pos w), remsOf_intMin_allOnes (widthBits_pos w)⟩
  · exact ⟨_, _, _, _, exec_bfx_run hx, exec_bfi_run hx, exec_bfxImm_run hx, exec_bfiImm_run hx,
      ⟨fun j _ => getLsbD_fieldExtract _ _ j, fun _ hj => getLsbD_fieldInsert _ _ _ hj⟩,
      ⟨fun j _ => getLsbD_fieldExtract _ _ j, fun _ hj => getLsbD_fieldInsert _ _ _ hj⟩⟩

end Sys2Proof.Machine
end

section
/-! PROOFS. Compares, predicate operations, select, constants and addresses (spec/06_scalar.md R125, R126). -/

namespace Sys2Proof.Machine

open Sys2Proof.Says

/-! ### Compares and predicate operations (R125) -/

/-- The comparison on numbers is that of the words they stand for, at every width. -/
theorem intCompare_toNat {n : Nat} (code : Nat) (a b : BitVec n) : intCompare code n a.toNat b.toNat = compares code n a b := by
  match code with
  | 0 => exact Bool.eq_iff_iff.mpr (by simp [intCompare, compares, BitVec.toNat_inj])
  | 1 => exact Bool.eq_iff_iff.mpr (by simp [intCompare, compares, BitVec.toNat_inj])
  | 2 => simp only [intCompare, compares, toSigned_toNat, BitVec.slt_eq_decide]
  | 3 => simp only [intCompare, compares, toSigned_toNat, BitVec.slt_eq_decide, ← decide_not, not_lt]
  | 4 => rfl
  | 5 => simp only [intCompare, compares, BitVec.ult, ← decide_not, not_lt]
  | 6 => simp only [intCompare, compares, toSigned_toNat, BitVec.slt_eq_decide, ← decide_not, not_lt]
  | 7 => simp only [intCompare, compares, toSigned_toNat, BitVec.slt_eq_decide]
  | 8 => simp only [intCompare, compares, BitVec.ult, ← decide_not, not_lt]
  | _ + 9 => rfl

theorem cmpHolds_eq_compares (cc : BitVec 4) (w : Width) (a b : Word64) :
    cmpHolds cc w a b = compares cc.toNat (widthBits w) (a.setWidth _) (b.setWidth _) := by
  rw [cmpHolds, lowBits_eq_toNat_setWidth, lowBits_eq_toNat_setWidth, intCompare_toNat]

theorem boolOp_eq_kops (code : Nat) (a b : Bool) : boolOp code a b = kops code a b := by
  match code with
  | 0 | 1 | 2 | 3 | 4 => rfl
  | _ + 5 => cases a <;> cases b <;> rfl

theorem putK_zero (s : State) (b : Bool) : s.putK 0 b = { s with last := .seq } := by
  rw [State.putK, State.wrK, if_pos rfl, State.done]

/-! ### Constants and addresses (R126) -/

theorem shiftLeft_or_setWidth_eq_append (x : BitVec 48) (y : Word64) :
    (x.setWidth 64 <<< 48) ||| (y.setWidth 48).setWidth 64 = x.setWidth 16 ++ y.setWidth 48 := by
  apply BitVec.eq_of_getLsbD_eq
  intro i hi
  rw [BitVec.getLsbD_or, BitVec.getLsbD_shiftLeft, BitVec.getLsbD_append]
  by_cases hlow : i < 48
  · simp [hlow, hi]
  · simp [hlow, hi, show i - 48 < 16 by omega, show i - 48 < 64 by omega]

theorem add_shiftLeft_eq_ofNat (x y : Word64) (k : Nat) : x + y <<< k = BitVec.ofNat 64 (x.toNat + y.toNat * 2 ^ k) := by
  apply BitVec.eq_of_toNat_eq
  rw [BitVec.toNat_add, BitVec.toNat_shiftLeft, Nat.shiftLeft_eq, BitVec.toNat_ofNat, Nat.add_mod_mod]

/-- The line of a PC starts at the PC rounded down to a multiple of 8. -/
theorem lineAddr_eq_ofNat (pc : BitVec 56) : lineAddr pc = BitVec.ofNat 64 (pc.toNat / 8 * 8) := by
  have hmask (i : Nat) : (7 : BitVec 56).getLsbD i = decide (i < 3) := Nat.testBit_two_pow_sub_one 3 i
  have hround (i : Nat) : (pc.toNat / 8 * 8).testBit i = (decide (3 ≤ i) && pc.getLsbD i) := by
    rw [show pc.toNat / 8 * 8 = pc.toNat / 2 ^ 3 * 2 ^ 3 from rfl, Nat.testBit_mul_two_pow, Nat.testBit_div_two_pow, BitVec.getLsbD]
    by_cases hi : 3 ≤ i
    · rw [Nat.sub_add_cancel hi]
    · simp [hi]
  apply BitVec.eq_of_getLsbD_eq
  intro i hi
  rw [lineAddr, BitVec.getLsbD_setWidth, BitVec.getLsbD_and, BitVec.getLsbD_not, hmask, BitVec.getLsbD_ofNat, hround]
  by_cases hpc : i < 56
  · simp [hi, hpc, ← decide_not, not_lt, Bool.and_comm]
  · simp [hpc, BitVec.getLsbD_of_ge pc i (not_lt.mp hpc)]

theorem leaPc_eq_ofInt (pc : BitVec 56) (x : Word64) (i : BitVec 32) :
    lineAddr pc + x + immWord i = BitVec.ofInt 64 ((pc.toNat / 8 * 8 : Nat) + (x.toNat : Int) + i.toInt) := by
  rw [BitVec.ofInt_add, BitVec.ofInt_add, BitVec.ofInt_natCast, BitVec.ofInt_natCast, BitVec.ofNat_toNat, BitVec.setWidth_eq, lineAddr_eq_ofNat]
  rfl

/-! ### The instructions -/

section
variable {f : FormA} {s : State} (hx : Executes f.grd s)
include hx

theorem exec_cmp_run : exec (.cmp f) s
    = .next (s.putK f.kd (compares f.cc.toNat (widthBits f.w) ((s.rdG f.ga).setWidth _) ((s.rdG f.gb).setWidth _))) := by
  rw [← cmpHolds_eq_compares]
  exact show execCmp f s = _ from issue_run _ hx.1 hx.2

theorem exec_cmpi_run : exec (.cmpi f) s
    = .next (s.putK f.kd (compares f.cc.toNat (widthBits f.w) ((s.rdG f.ga).setWidth _) ((f.imm.signExtend 64).setWidth _))) := by
  rw [← cmpHolds_eq_compares]
  exact show execCmpi f s = _ from issue_run _ hx.1 hx.2

theorem exec_kop_run : exec (.kop f) s = .next (s.putK f.kd (kops f.cc.toNat (s.rdK f.ka) (s.rdK f.kb))) := by
  rw [← boolOp_eq_kops]
  exact show execKop f s = _ from issue_run _ hx.1 hx.2

theorem exec_sel_run : exec (.sel f) s = .next (s.putG f.gd (if s.rdK f.ka then s.rdG f.ga else s.rdG f.gb)) :=
  show execSel f s = _ from issue_run _ hx.1 hx.2

theorem exec_lea_run :
    exec (.lea f) s = .next (s.putG f.gd (BitVec.ofNat 64 ((s.rdG f.ga).toNat + (s.rdG f.gb).toNat * 2 ^ f.imm.toNat))) := by
  rw [← add_shiftLeft_eq_ofNat]
  exact show execLea f s = _ from issue_run _ hx.1 hx.2

theorem exec_leaPc_run : exec (.leaPc f) s
    = .next (s.putG f.gd (BitVec.ofInt 64 ((s.cur.pc.toNat / 8 * 8 : Nat) + ((s.rdG f.ga).toNat : Int) + f.imm.toInt))) := by
  rw [← leaPc_eq_ofInt]
  exact show execLeaPc f s = _ from issue_run _ hx.1 hx.2

end

section
variable {f : FormI} {s : State} (hx : Executes f.grd s)
include hx

theorem exec_movi_run : exec (.movi f) s = .next (s.putG f.gd (f.imm.signExtend 64)) :=
  show execMovi f s = _ from issue_run _ hx.1 hx.2

theorem exec_movh_run : exec (.movh f) s = .next (s.putG f.gd (f.imm.setWidth 16 ++ (s.rdG f.gd).setWidth 48)) := by
  rw [← shiftLeft_or_setWidth_eq_append]
  exact show execMovh f s = _ from issue_run _ hx.1 hx.2

end

/-! ### The words that are none of them -/

section
variable {f : FormA} {w : SlotBits}

theorem decodeSlot_ne_compare_of_cc (hc : 10 ≤ f.cc.toNat) : decodeSlot w ≠ .ok (.cmp f) ∧ decodeSlot w ≠ .ok (.cmpi f) :=
  have hcode : ¬ccCmp f.cc = true := mt ccCmp_iff.mp (not_le.mpr hc)
  ⟨decodeSlot_ne_of_cc rfl hcode, decodeSlot_ne_of_cc rfl hcode⟩

theorem decodeSlot_ne_kop_of_cc (hc : 6 ≤ f.cc.toNat) : decodeSlot w ≠ .ok (.kop f) :=
  decodeSlot_ne_of_cc rfl (mt ccKop_iff.mp (not_le.mpr hc))

theorem decodeSlot_ne_compare_of_gd (hd : f.gd ≠ 0) : decodeSlot w ≠ .ok (.cmp f) ∧ decodeSlot w ≠ .ok (.cmpi f) :=
  ⟨decodeSlot_ne_of_gd rfl rfl hd, decodeSlot_ne_of_gd rfl rfl hd⟩

theorem decodeSlot_ne_kop_sel_of_w (hw : f.w ≠ .w64) : decodeSlot w ≠ .ok (.kop f) ∧ decodeSlot w ≠ .ok (.sel f) :=
  ⟨decodeSlot_ne_of_w rfl rfl hw, decodeSlot_ne_of_w rfl rfl hw⟩

theorem decodeSlot_ne_lea_of_w (hw : f.w ≠ .w64) : decodeSlot w ≠ .ok (.lea f) ∧ decodeSlot w ≠ .ok (.leaPc f) :=
  ⟨decodeSlot_ne_of_w rfl rfl hw, decodeSlot_ne_of_w rfl rfl hw⟩

/-- The scale of LEA is at most 2^7 (R126). -/
theorem decodeSlot_ne_lea_of_imm (hi : 8 ≤ f.imm.toNat) : decodeSlot w ≠ .ok (.lea f) :=
  decodeSlot_ne_of_imm rfl (mt of_decide_eq_true (not_lt.mpr hi))

end

/-- The immediate of MOVH has 16 bits (R126). -/
theorem decodeSlot_ne_movh_of_imm {f : FormI} {w : SlotBits} (hi : 2 ^ 16 ≤ f.imm.toNat) : decodeSlot w ≠ .ok (.movh f) := fun h =>
  have hfits : f.fits (fun i => i.toNat < 65536) = true := wf_of_decodeSlot h
  not_lt.mpr hi (of_decide_eq_true (FormI.imm_of_fits hfits))

/-- Settles O3: each instruction by its equation, each refused word by the entry that decoding checks. -/
theorem predicatesConstantsAndAddresses : Obligations.PredicatesConstantsAndAddresses := by
  unfold Obligations.PredicatesConstantsAndAddresses
  refine ⟨⟨fun f s hx => ?_, putK_zero, fun f w => ?_⟩, fun f s hx => ?_, fun f s hx => ?_, fun f w => decodeSlot_ne_movh_of_imm, fun f w => ?_⟩
  · exact ⟨exec_cmp_run hx, exec_cmpi_run hx, exec_kop_run hx, exec_sel_run hx⟩
  · exact ⟨decodeSlot_ne_compare_of_cc, decodeSlot_ne_kop_of_cc, decodeSlot_ne_compare_of_gd, decodeSlot_ne_kop_sel_of_w⟩
  · exact ⟨exec_movi_run hx, exec_movh_run hx⟩
  · exact ⟨exec_lea_run hx, exec_leaPc_run hx⟩
  · exact ⟨decodeSlot_ne_lea_of_imm, decodeSlot_ne_lea_of_w⟩

end Sys2Proof.Machine
end
